-- ==== Sys2Proof/Word.lean ====
section
/-! DEFINITION. Word.lean: the word types of the GX8 (00:R2, R3) and nothing else. -/

namespace Sys2Proof

/-- A 64-bit value: a general register, an address, an element of a queue. -/
abbrev Word := BitVec 64

/-- The unit of memory (R3). -/
abbrev Byte := BitVec 8

/-- A register or predicate field number (R52). -/
abbrev Reg := BitVec 3

end Sys2Proof
end

