-- ==== Sys2Proof/Syntax.lean ====
section
/-! DEFINITION. Syntax.lean: the instructions of the GX8, one constructor per row of the opcode table, in the table's
order: 195 instruction words with the fields of their encodings, then 100 device, firmware and host events with what
they carry (a word that is no instruction first). The data an event carries stands first. -/

namespace Sys2Proof

/-- The gang of one job as GANGMAP gives it (R445): this module's VMOD and every other member with its address. -/
structure GangMap where
  vmod    : Nat
  members : List (Nat × BitVec 48)
  deriving DecidableEq, Repr

/-- What the boot ROM and boot firmware find and choose (R485, R140, R343, R125, R437): the outcomes of the checks of
steps 2 to 5, which are cryptographic and outside the model, and the choices of step 6. -/
structure BootInput where
  /-- The flash port gave the image (step 1), and its signature verifies over the manifest's digest (step 3). -/
  imageOk       : Bool
  sigOk         : Bool
  /-- The SHA3-256 digest of the manifest's public key (step 2), and that of the body as read (step 5). -/
  keyDigest     : BitVec 256
  bodySum       : BitVec 256
  /-- The manifest: security version, body digest, digest of the host's key. -/
  version       : BitVec 32
  bodyDigest    : BitVec 256
  hostKeyDigest : BitVec 256
  microcode     : BitVec 32
  /-- The EtherType that firmware sets (R449). -/
  etherType     : BitVec 16
  /-- (virtual die, PHYS, STATE) for entries that boot firmware changes. -/
  dies          : List (Nat × Nat × Nat)
  /-- (core coordinate, k) for cores whose spill ring is not 2^12 records. -/
  spill         : List (Nat × Nat)
  /-- (cluster, MiB) for clusters whose CL2 is not 2 MiB. -/
  cl2           : List (Nat × Nat)
  /-- (cluster, core) for clusters whose heliostat is not core 0. -/
  helio         : List (Nat × Nat)
  /-- The host has enabled the checkpoint of R491. -/
  faultCkpt     : Bool
  deriving DecidableEq, Repr

/-- Where an access lands after translation and swizzle. -/
inductive Loc where
  /-- memory bytes from this key on: a DRAM physical address (R200), or a vault or local-store byte, keyed by its
  device-window address. -/
  | cell (key : Nat)
  /-- byte `off` of the mailbox file of core `core` (R148). -/
  | mbox (core off : Nat)
  /-- byte `off` of the tile descriptor table of cluster `cl` (R190). -/
  | tdt (cl off : Nat)
  /-- DRAM of another gang member (R446). -/
  | remote (vmod paddr : Nat)
  /-- a page of the packet's tenant at a virtual address: a packet of a save area, which names no frame (R429). -/
  | virt (va : Nat)
  deriving DecidableEq, Repr

/-- What a packet carries (R466: KIND, payload and AUX). -/
inductive PktBody where
  /-- a load of `size` bytes for register `reg`, formed as type code `ty` of R55 (16: as `ld`). -/
  | read (size ty : Nat) (reg : Reg)
  /-- a store of `size` bytes; `fe` is the full/empty bit it sets (R172), none for a plain store. -/
  | write (size : Nat) (data : Word) (fe : Option Bool)
  /-- a read-modify-write (R247): function, size, operand, comparand, result register. -/
  | rmw (fn size : Nat) (y c : Word) (reg : Reg)
  /-- a ticket load (R259): size code, acquire scope, result register. -/
  | ticket (size acqs : Nat) (reg : Reg)
  /-- a result on its way to register `reg`, with the float flags it raises (R23, R249). -/
  | result (reg : Reg) (v : Word) (fflg : BitVec 5)
  /-- the acknowledgement of a store. -/
  | ack
  /-- an acknowledgement that the access failed: uncorrectably (R404), or on a die that is lost (R443); the register when it was a
  read. -/
  | failed (reg : Option Reg) (lost : Option Nat)
  /-- a push to a virtual queue (R151). -/
  | push (name : Nat) (elem : Word)
  /-- the nack of a dropped push (R151). -/
  | nack
  /-- a post to a mailbox counter (R149). -/
  | post (name inc : Nat)
  /-- a migrating line as its image (R143), to core `core`. -/
  | line (img : BitVec 1024) (core : Nat)
  /-- a wake of lines waiting with this tag (R146). -/
  | wake (tag : Word)
  /-- a line that migrated here from its home member is live no more (R434, R447). -/
  | retired
  /-- a message to the host (R457): AUX and payload words. -/
  | message (aux : BitVec 64) (words : List Nat)
  deriving DecidableEq, Repr

/-- A packet in flight (R466, R439). -/
structure Pkt where
  id     : Nat          -- unique on the member that holds it
  name   : Nat          -- the number its sender gave it, which its answer carries back
  body   : PktBody
  ans    : Bool
  src    : Nat          -- sender VMOD
  dst    : Nat          -- receiver VMOD
  tenant : Nat
  job    : Nat
  line   : Nat          -- address of the issuing line
  core   : Nat          -- core on which it issued
  target : Nat          -- virtual address named
  loc    : Loc
  dmgen  : BitVec 32
  bufClass : Nat
  bufId    : Nat
  vc       : Nat
  deriving DecidableEq, Repr

/-- A flow of the fabric (R451). -/
structure FlowId where
  src    : Nat
  dst    : Nat
  tenant : Nat
  job    : Nat
  cls    : Nat
  deriving DecidableEq, Repr

/-- A fabric frame (R450). -/
structure Frame where
  ver     : Nat
  ty      : Nat
  flow    : FlowId
  seq     : BitVec 32
  ackSeq  : BitVec 32
  reason  : Nat
  pkts    : List Pkt
  deriving DecidableEq, Repr

/-- The bytes of a frame and the port at which they arrive (R449). -/
structure Arrival where
  port  : Nat
  bytes : List Byte
  deriving DecidableEq, Repr

/-- The instructions: one constructor per row of the opcode table. -/
inductive Instr where
  /-- R98: Adds two integer registers at the chosen width under wrap, signed or unsigned saturation. -/
  | add (g : BitVec 4) (d a b : Reg) (w r : BitVec 2)
  /-- R98: Subtracts gB from gA at the chosen width and rule. -/
  | sub (g : BitVec 4) (d a b : Reg) (w r : BitVec 2)
  /-- R98: Bitwise AND of two integer registers. -/
  | and (g : BitVec 4) (d a b : Reg) (w : BitVec 2)
  /-- R98: Bitwise OR of two integer registers. -/
  | or (g : BitVec 4) (d a b : Reg) (w : BitVec 2)
  /-- R98: Bitwise XOR of two integer registers. -/
  | xor (g : BitVec 4) (d a b : Reg) (w : BitVec 2)
  /-- R98: gA AND NOT gB. -/
  | andn (g : BitVec 4) (d a b : Reg) (w : BitVec 2)
  /-- R98: gA OR NOT gB. -/
  | orn (g : BitVec 4) (d a b : Reg) (w : BitVec 2)
  /-- R98: NOT (gA XOR gB). -/
  | xnor (g : BitVec 4) (d a b : Reg) (w : BitVec 2)
  /-- R98: Shifts gA left by gB under the chosen rule. -/
  | shl (g : BitVec 4) (d a b : Reg) (w r : BitVec 2)
  /-- R98: Logical right shift of gA by gB. -/
  | shr (g : BitVec 4) (d a b : Reg) (w : BitVec 2)
  /-- R98: Arithmetic right shift of gA by gB. -/
  | sar (g : BitVec 4) (d a b : Reg) (w : BitVec 2)
  /-- R98: Rotates gA left by gB mod width. -/
  | rol (g : BitVec 4) (d a b : Reg) (w : BitVec 2)
  /-- R98: Rotates gA right by gB mod width. -/
  | ror (g : BitVec 4) (d a b : Reg) (w : BitVec 2)
  /-- R98: Signed minimum of two registers. -/
  | min (g : BitVec 4) (d a b : Reg) (w : BitVec 2)
  /-- R98: Signed maximum of two registers. -/
  | max (g : BitVec 4) (d a b : Reg) (w : BitVec 2)
  /-- R98: Unsigned minimum of two registers. -/
  | minb (g : BitVec 4) (d a b : Reg) (w : BitVec 2)
  /-- R98: Unsigned maximum of two registers. -/
  | maxb (g : BitVec 4) (d a b : Reg) (w : BitVec 2)
  /-- R98: Multiplies two registers under the chosen rule. -/
  | mul (g : BitVec 4) (d a b : Reg) (w r : BitVec 2)
  /-- R98: High half of the signed product. -/
  | mulh (g : BitVec 4) (d a b : Reg) (w : BitVec 2)
  /-- R98: High half of the unsigned product. -/
  | mulhb (g : BitVec 4) (d a b : Reg) (w : BitVec 2)
  /-- R99: Signed division truncated toward zero, never trapping. -/
  | div (g : BitVec 4) (d a b : Reg) (w : BitVec 2)
  /-- R99: Unsigned division, never trapping. -/
  | divb (g : BitVec 4) (d a b : Reg) (w : BitVec 2)
  /-- R99: Signed remainder, never trapping. -/
  | rem (g : BitVec 4) (d a b : Reg) (w : BitVec 2)
  /-- R98: Negates gA, wrapping or signed saturating. -/
  | neg (g : BitVec 4) (d a : Reg) (w r : BitVec 2)
  /-- R99: Unsigned remainder, never trapping. -/
  | remb (g : BitVec 4) (d a b : Reg) (w : BitVec 2)
  /-- R98: Counts leading zero bits of gA. -/
  | clz (g : BitVec 4) (d a : Reg) (w : BitVec 2)
  /-- R98: Counts trailing zero bits of gA. -/
  | ctz (g : BitVec 4) (d a : Reg) (w : BitVec 2)
  /-- R98: Counts one bits of gA. -/
  | popc (g : BitVec 4) (d a : Reg) (w : BitVec 2)
  /-- R98: Reverses the bytes of gA at the width. -/
  | bswap (g : BitVec 4) (d a : Reg) (w : BitVec 2)
  /-- R100: Copies a whole register with its tag. -/
  | mov (g : BitVec 4) (d a : Reg)
  /-- R99: Absolute value of gA, wrapping or signed saturating. -/
  | abs (g : BitVec 4) (d a : Reg) (w r : BitVec 2)
  /-- R98: Sign-extends gA from the source width. -/
  | sext (g : BitVec 4) (d a : Reg) (w : BitVec 2)
  /-- R102: Adds a sign-extended immediate to gA. -/
  | addi (g : BitVec 4) (d a : Reg) (i : BitVec 16)
  /-- R102: ANDs gA with a zero-extended immediate. -/
  | andi (g : BitVec 4) (d a : Reg) (i : BitVec 16)
  /-- R102: ORs gA with a zero-extended immediate. -/
  | ori (g : BitVec 4) (d a : Reg) (i : BitVec 16)
  /-- R102: XORs gA with a zero-extended immediate. -/
  | xori (g : BitVec 4) (d a : Reg) (i : BitVec 16)
  /-- R102: Shifts gA left by an immediate amount. -/
  | shli (g : BitVec 4) (d a : Reg) (w : BitVec 2) (k : BitVec 6)
  /-- R102: Logical right shift by an immediate amount. -/
  | shri (g : BitVec 4) (d a : Reg) (w : BitVec 2) (k : BitVec 6)
  /-- R102: Arithmetic right shift by an immediate amount. -/
  | sari (g : BitVec 4) (d a : Reg) (w : BitVec 2) (k : BitVec 6)
  /-- R102: Rotates left by an immediate amount; rori assembles to it. -/
  | roli (g : BitVec 4) (d a : Reg) (w : BitVec 2) (k : BitVec 6)
  /-- R102: Loads a sign-extended immediate into gD. -/
  | movi (g : BitVec 4) (d : Reg) (i : BitVec 16)
  /-- R102: Inserts imm16 at halfword position p of gD. -/
  | movh (g : BitVec 4) (d p : Reg) (i : BitVec 16)
  /-- R104: Compares two registers scalar or lanewise and writes a predicate field. -/
  | cmp (g : BitVec 4) (d a b : Reg) (c : BitVec 5) (w : BitVec 2) (l : BitVec 1)
  /-- R104: Compares gA with an extended 12-bit immediate into a predicate field. -/
  | cmpi (g : BitVec 4) (d a : Reg) (c : BitVec 4) (i : BitVec 12)
  /-- R105: ANDs two predicate fields. -/
  | qand (g : BitVec 4) (d a b : Reg)
  /-- R105: ORs two predicate fields. -/
  | qor (g : BitVec 4) (d a b : Reg)
  /-- R105: XORs two predicate fields. -/
  | qxor (g : BitVec 4) (d a b : Reg)
  /-- R105: Complements a predicate field. -/
  | qnot (g : BitVec 4) (d a : Reg)
  /-- R105: Copies a predicate field. -/
  | qmov (g : BitVec 4) (d a : Reg)
  /-- R105: Sets a predicate field to imm8. -/
  | qset (g : BitVec 4) (d : Reg) (i : BitVec 8)
  /-- R105: Sets qD to 0xFF if any of the low n bits of qA is set. -/
  | qany (g : BitVec 4) (d a : Reg) (w : BitVec 2)
  /-- R105: Sets qD to 0xFF if all of the low n bits of qA are set. -/
  | qall (g : BitVec 4) (d a : Reg) (w : BitVec 2)
  /-- R105: XORs a predicate field with imm8. -/
  | qtog (g : BitVec 4) (d : Reg) (i : BitVec 8)
  /-- R105: Moves the low byte of an int64 register into a predicate field. -/
  | gtoq (g : BitVec 4) (d a : Reg)
  /-- R106: Lanewise wrapping addition. -/
  | vadd (g : BitVec 4) (d a b : Reg) (w : BitVec 2)
  /-- R106: Lanewise wrapping subtraction. -/
  | vsub (g : BitVec 4) (d a b : Reg) (w : BitVec 2)
  /-- R106: Lanewise saturating addition. -/
  | vadds (g : BitVec 4) (d a b : Reg) (w : BitVec 2) (u : BitVec 1)
  /-- R106: Lanewise saturating subtraction. -/
  | vsubs (g : BitVec 4) (d a b : Reg) (w : BitVec 2) (u : BitVec 1)
  /-- R106: Lanewise saturating multiplication. -/
  | vmul (g : BitVec 4) (d a b : Reg) (w : BitVec 2) (u : BitVec 1)
  /-- R106: Lanewise minimum. -/
  | vmin (g : BitVec 4) (d a b : Reg) (w : BitVec 2) (u : BitVec 1)
  /-- R106: Lanewise maximum. -/
  | vmax (g : BitVec 4) (d a b : Reg) (w : BitVec 2) (u : BitVec 1)
  /-- R106: Lanewise rounded average. -/
  | vavg (g : BitVec 4) (d a b : Reg) (w : BitVec 2) (u : BitVec 1)
  /-- R106: Lanewise left shift. -/
  | vshl (g : BitVec 4) (d a b : Reg) (w : BitVec 2)
  /-- R106: Lanewise logical right shift. -/
  | vshr (g : BitVec 4) (d a b : Reg) (w : BitVec 2)
  /-- R106: Lanewise arithmetic right shift. -/
  | vsar (g : BitVec 4) (d a b : Reg) (w : BitVec 2)
  /-- R106: Selects lanes of gA or gB by a selector predicate. -/
  | vsel (g : BitVec 4) (d a b : Reg) (w : BitVec 2) (ss : Reg)
  /-- R106: Permutes lanes of gA by nibble indices in gB. -/
  | vshuf (g : BitVec 4) (d a b : Reg) (w : BitVec 2)
  /-- R106: Packs lanes of gA and gB into half-width saturated lanes. -/
  | vpack (g : BitVec 4) (d a b : Reg) (w : BitVec 2) (u : BitVec 1)
  /-- R106: Sign-extends the low or high half of lanes to double width. -/
  | vunpk (g : BitVec 4) (d a : Reg) (w : BitVec 2) (h : BitVec 1)
  /-- R106: Accumulates the dot product of enabled lanes into gD. -/
  | vdot (g : BitVec 4) (d a b : Reg) (w : BitVec 2) (u : BitVec 1)
  /-- R106: Sums the enabled lanes of gA exactly into gD. -/
  | vsum (g : BitVec 4) (d a : Reg) (w : BitVec 2) (u : BitVec 1)
  /-- R108: Float addition rounded once. -/
  | fadd (g : BitVec 4) (d a b : Reg) (w : BitVec 2) (x : BitVec 1)
  /-- R108: Float subtraction rounded once. -/
  | fsub (g : BitVec 4) (d a b : Reg) (w : BitVec 2) (x : BitVec 1)
  /-- R108: Float multiplication rounded once. -/
  | fmul (g : BitVec 4) (d a b : Reg) (w : BitVec 2) (x : BitVec 1)
  /-- R108: Float division rounded once. -/
  | fdiv (g : BitVec 4) (d a b : Reg) (w : BitVec 2) (x : BitVec 1)
  /-- R108: Float square root rounded once. -/
  | fsqrt (g : BitVec 4) (d a : Reg) (w : BitVec 2) (x : BitVec 1)
  /-- R108: IEEE minimumNumber. -/
  | fmin (g : BitVec 4) (d a b : Reg) (w : BitVec 2) (x : BitVec 1)
  /-- R108: IEEE maximumNumber. -/
  | fmax (g : BitVec 4) (d a b : Reg) (w : BitVec 2) (x : BitVec 1)
  /-- R108: Fused multiply-add gA times gB plus gD, rounded once. -/
  | fma (g : BitVec 4) (d a b : Reg) (w : BitVec 2) (x : BitVec 1)
  /-- R108: Float comparison written to a predicate field. -/
  | fcmp (g : BitVec 4) (d a b : Reg) (w : BitVec 2) (c : BitVec 4) (x : BitVec 1)
  /-- R110: Converts between float and integer formats, scalar or lanewise. -/
  | fcvt (g : BitVec 4) (d a : Reg) (l : BitVec 2) (ss t : Reg)
  /-- R111: Rounds a float to an integral value in its own format. -/
  | fround (g : BitVec 4) (d a : Reg) (w : BitVec 2) (x : BitVec 1)
  /-- R103: Extracts a bitfield sign-extended. -/
  | bext (g : BitVec 4) (d a : Reg) (p n : BitVec 6)
  /-- R103: Extracts a bitfield zero-extended. -/
  | bextb (g : BitVec 4) (d a : Reg) (p n : BitVec 6)
  /-- R103: Inserts the low bits of gA into a field of gD. -/
  | bins (g : BitVec 4) (d a : Reg) (p n : BitVec 6)
  /-- R112: PC-relative branch. -/
  | br (g : BitVec 4) (o : BitVec 22)
  /-- R112: PC-relative call writing the return address to g7. -/
  | call (g : BitVec 4) (o : BitVec 22)
  /-- R112: Jumps to the code address in gA. -/
  | jr (g : BitVec 4) (a : Reg)
  /-- R112: Returns to the code address in gA, g7 by default. -/
  | ret (g : BitVec 4) (a : Reg)
  /-- R112: Calls the code address in gA, writing g7. -/
  | callr (g : BitVec 4) (a : Reg)
  /-- R112: Decrements gD and branches while it is nonzero. -/
  | loop (g : BitVec 4) (d : Reg) (o : BitVec 16)
  /-- R162: Increments a join counter and pushes a task record onto the core's deque. -/
  | spawn (g : BitVec 4) (d a b : Reg) (p : BitVec 4) (ss : BitVec 2)
  /-- R163: Waits until a join counter reads zero, with acquire. -/
  | join (g : BitVec 4) (a : Reg)
  /-- R164: Offers the slot to another candidate. -/
  | yield (g : BitVec 4)
  /-- R165: Drains and retires the line. -/
  | exit (g : BitVec 4)
  /-- R165: Drains, decrements a join counter with release and retires the line. -/
  | exitCounter (g : BitVec 4) (a : Reg)
  /-- R167: Migrates the line to the cluster that owns an address. -/
  | go (g : BitVec 4) (a : Reg)
  /-- R167: Migrates the line to a named core. -/
  | goc (g : BitVec 4) (a : Reg)
  /-- R169: Writes the line's own address to gD. -/
  | self (g : BitVec 4) (d : Reg)
  /-- R170: Removes a queued task record by identity and decrements its join counter. -/
  | cancel (g : BitVec 4) (d a : Reg)
  /-- R171: Waits until a memory value differs from a comparand. -/
  | waitne (g : BitVec 4) (d a b : Reg) (w c : BitVec 2)
  /-- R171: Waits until a memory value equals a comparand. -/
  | waiteq (g : BitVec 4) (d a b : Reg) (w c : BitVec 2)
  /-- R113: Loads 8 bytes, relaxed or acquire. -/
  | ld (g : BitVec 4) (d a z : Reg) (c : BitVec 2) (l : BitVec 4) (o : BitVec 7)
  /-- R113: Stores 8 bytes, plain or release. -/
  | st (g : BitVec 4) (d a z : Reg) (c : BitVec 2) (l : BitVec 4) (o : BitVec 7)
  /-- R113: Typed load of the size and tag its type gives. -/
  | ldx (g : BitVec 4) (d a : Reg) (t : BitVec 4) (z : Reg) (c : BitVec 2) (l : BitVec 4) (o : Reg)
  /-- R113: Typed store of the size its type gives. -/
  | stx (g : BitVec 4) (d a : Reg) (t : BitVec 4) (z : Reg) (c : BitVec 2) (l : BitVec 4) (o : Reg)
  /-- R172: Waits for a full word, reads it and sets it empty. -/
  | ldfe (g : BitVec 4) (d a z : Reg) (c : BitVec 2) (o : Reg)
  /-- R172: Waits for a full word and reads it, leaving it full. -/
  | ldff (g : BitVec 4) (d a z : Reg) (c : BitVec 2) (o : Reg)
  /-- R172: Waits for an empty word, writes it and sets it full. -/
  | stf (g : BitVec 4) (d a z : Reg) (c : BitVec 2) (o : Reg)
  /-- R172: Writes a word and sets it empty, as a long-latency store. -/
  | ste (g : BitVec 4) (d a z : Reg) (c : BitVec 2) (l : BitVec 4) (o : Reg)
  /-- R247: Atomic add at the location. -/
  | amoAdd (g : BitVec 4) (d a b : Reg) (w : BitVec 1) (o c : BitVec 2)
  /-- R247: Atomic AND. -/
  | amoAnd (g : BitVec 4) (d a b : Reg) (w : BitVec 1) (o c : BitVec 2)
  /-- R247: Atomic OR. -/
  | amoOr (g : BitVec 4) (d a b : Reg) (w : BitVec 1) (o c : BitVec 2)
  /-- R247: Atomic XOR. -/
  | amoXor (g : BitVec 4) (d a b : Reg) (w : BitVec 1) (o c : BitVec 2)
  /-- R247: Atomic signed minimum. -/
  | amoMin (g : BitVec 4) (d a b : Reg) (w : BitVec 1) (o c : BitVec 2)
  /-- R247: Atomic signed maximum. -/
  | amoMax (g : BitVec 4) (d a b : Reg) (w : BitVec 1) (o c : BitVec 2)
  /-- R247: Atomic unsigned minimum. -/
  | amoMinb (g : BitVec 4) (d a b : Reg) (w : BitVec 1) (o c : BitVec 2)
  /-- R247: Atomic unsigned maximum. -/
  | amoMaxb (g : BitVec 4) (d a b : Reg) (w : BitVec 1) (o c : BitVec 2)
  /-- R247: Atomic exchange. -/
  | amoSwap (g : BitVec 4) (d a b : Reg) (w : BitVec 1) (o c : BitVec 2)
  /-- R247: Atomic compare-and-swap against gD. -/
  | amoCas (g : BitVec 4) (d a b : Reg) (w : BitVec 1) (o c : BitVec 2)
  /-- R249: Atomic float add at the location, RNE, flags only. -/
  | amoFadd (g : BitVec 4) (d a b : Reg) (w : BitVec 1) (o c : BitVec 2)
  /-- R252: Acquire, release or full fence at a scope. -/
  | fence (g : BitVec 4) (k c : BitVec 2)
  /-- R259: Starts a fetch at a slice and returns a ticket. -/
  | tkld (g : BitVec 4) (d a : Reg) (w c : BitVec 2)
  /-- R260: Redeems a ticket, waiting if pending, or falls back when stale. -/
  | tkred (g : BitVec 4) (d a b p : Reg)
  /-- R261: Drops a ticket's entry. -/
  | tkdrop (g : BitVec 4) (d a : Reg)
  /-- R262: Reports a ticket's entry state. -/
  | tkstat (g : BitVec 4) (d a : Reg)
  /-- R173: Posts an increment to a mailbox counter. -/
  | mpost (g : BitVec 4) (a b : Reg) (c : BitVec 2)
  /-- R173: Adds an expectation to a mailbox counter and waits for the answer. -/
  | mexp (g : BitVec 4) (a b : Reg)
  /-- R173: Waits until a mailbox counter reaches a target. -/
  | mwait (g : BitVec 4) (a b : Reg) (c : BitVec 2)
  /-- R173: Reads a mailbox counter's CNT and EXP. -/
  | mread (g : BitVec 4) (d a : Reg) (c : BitVec 2)
  /-- R177: Sends a push to a virtual queue. -/
  | enq (g : BitVec 4) (a b : Reg) (c : BitVec 2)
  /-- R178: Removes the head element of a virtual queue or reports empty. -/
  | deq (g : BitVec 4) (d a aq : Reg) (c : BitVec 2)
  /-- R178: Reads a queue's length. -/
  | qlen (g : BitVec 4) (d a : Reg)
  /-- R175: Creates a virtual queue from a descriptor. -/
  | qmake (g : BitVec 4) (d a b : Reg)
  /-- R176: Destroys a queue and advances its generation. -/
  | qfree (g : BitVec 4) (a : Reg)
  /-- R116: Performs one restartable step of a block move. -/
  | rmov (g : BitVec 4) (d a b : Reg) (w : BitVec 2)
  /-- R116: Performs one restartable step of a block fill. -/
  | rfill (g : BitVec 4) (d a b : Reg) (w : BitVec 2)
  /-- R116: Performs one restartable step of a block compare. -/
  | rcmp (g : BitVec 4) (d a b : Reg) (w : BitVec 2)
  /-- R360: Enqueues a weight load into the Last's shadow plane. -/
  | lw (g : BitVec 4) (d a : Reg) (x : BitVec 1) (ss : BitVec 4) (aq r : BitVec 1) (c : BitVec 2)
  /-- R361: Enqueues an exchange of the Last's planes. -/
  | lswap (g : BitVec 4) (d : Reg) (x : BitVec 1) (ss : BitVec 4) (aq r : BitVec 1) (c : BitVec 2)
  /-- R363: Enqueues a stream of activation rows against the active plane. -/
  | lstream (g : BitVec 4) (d a : Reg) (x : BitVec 1) (ss : BitVec 4) (aq r : BitVec 1) (c : BitVec 2)
  /-- R364: Enqueues a drain marker for the Last. -/
  | ldrain (g : BitVec 4) (d : Reg) (x : BitVec 1) (ss : BitVec 4) (aq r : BitVec 1) (c : BitVec 2)
  /-- R365: Enqueues emptying of the caller's Last planes. -/
  | lcfg (g : BitVec 4) (d a : Reg) (x : BitVec 1) (ss : BitVec 4) (aq r : BitVec 1) (c : BitVec 2)
  /-- R367: Sends a Last command with a capability to a remote cluster and awaits acceptance. -/
  | lrem (g : BitVec 4) (d a b : Reg)
  /-- R368: Enqueues a tile-wide addition. -/
  | tadd (g : BitVec 4) (d a : Reg) (x : BitVec 1) (ss : BitVec 4) (aq r : BitVec 1) (c : BitVec 2)
  /-- R368: Enqueues a tile-wide multiplication. -/
  | tmul (g : BitVec 4) (d a : Reg) (x : BitVec 1) (ss : BitVec 4) (aq r : BitVec 1) (c : BitVec 2)
  /-- R368: Enqueues a tile-wide fused multiply-add. -/
  | tfma (g : BitVec 4) (d a : Reg) (x : BitVec 1) (ss : BitVec 4) (aq r : BitVec 1) (c : BitVec 2)
  /-- R368: Enqueues a tile-wide maximum. -/
  | tmax (g : BitVec 4) (d a : Reg) (x : BitVec 1) (ss : BitVec 4) (aq r : BitVec 1) (c : BitVec 2)
  /-- R368: Enqueues a tile-wide minimum. -/
  | tmin (g : BitVec 4) (d a : Reg) (x : BitVec 1) (ss : BitVec 4) (aq r : BitVec 1) (c : BitVec 2)
  /-- R368: Enqueues a tile-wide base-2 exponential. -/
  | texp2 (g : BitVec 4) (d a : Reg) (x : BitVec 1) (ss : BitVec 4) (aq r : BitVec 1) (c : BitVec 2)
  /-- R368: Enqueues a tile-wide reciprocal. -/
  | trcp (g : BitVec 4) (d a : Reg) (x : BitVec 1) (ss : BitVec 4) (aq r : BitVec 1) (c : BitVec 2)
  /-- R368: Enqueues a tile-wide reciprocal square root. -/
  | trsqrt (g : BitVec 4) (d a : Reg) (x : BitVec 1) (ss : BitVec 4) (aq r : BitVec 1) (c : BitVec 2)
  /-- R368: Enqueues a tile format conversion. -/
  | tcvt (g : BitVec 4) (d a : Reg) (x : BitVec 1) (ss : BitVec 4) (aq r : BitVec 1) (c : BitVec 2)
  /-- R370: Enqueues a row reduction into a tile or a result register. -/
  | tred (g : BitVec 4) (d a b : Reg) (x : BitVec 1) (ss : BitVec 4) (aq r : BitVec 1) (c : BitVec 2)
  /-- R368: Enqueues a mask-driven tile selection. -/
  | tsel (g : BitVec 4) (d a : Reg) (x : BitVec 1) (ss : BitVec 4) (aq r : BitVec 1) (c : BitVec 2)
  /-- R368: Enqueues a tile transpose. -/
  | ttrn (g : BitVec 4) (d a : Reg) (x : BitVec 1) (ss : BitVec 4) (aq r : BitVec 1) (c : BitVec 2)
  /-- R372: Starts a copy from memory the issuing cluster owns. -/
  | cpy (g : BitVec 4) (d a : Reg) (x : BitVec 1) (ss : BitVec 4) (aq r : BitVec 1) (c : BitVec 2)
  /-- R372: Asks another cluster's copy unit to perform a copy. -/
  | cpyd (g : BitVec 4) (d a : Reg) (x : BitVec 1) (ss : BitVec 4) (aq r : BitVec 1) (c : BitVec 2)
  /-- R374: Reads a copy channel's watermark register. -/
  | cwm (g : BitVec 4) (d a b : Reg) (x : BitVec 1) (ss : BitVec 4) (aq r : BitVec 1) (c : BitVec 2)
  /-- R375: Enqueues a channel marker behind earlier copies. -/
  | chan (g : BitVec 4) (d a : Reg) (x : BitVec 1) (ss : BitVec 4) (aq r : BitVec 1) (c : BitVec 2)
  /-- R377: Writes and multicasts a heliostat scale entry. -/
  | scmc (g : BitVec 4) (d a b : Reg) (x : BitVec 1) (ss : BitVec 4) (aq r : BitVec 1) (c : BitVec 2)
  /-- R378: Reads a heliostat scale entry. -/
  | sld (g : BitVec 4) (d a b : Reg) (x : BitVec 1) (ss : BitVec 4) (aq r : BitVec 1) (c : BitVec 2)
  /-- R390: Enqueues a swap-in of a page. -/
  | swpin (g : BitVec 4) (d a : Reg) (x : BitVec 1) (ss : BitVec 4) (aq r : BitVec 1) (c : BitVec 2)
  /-- R390: Enqueues a swap-out of a page. -/
  | swpout (g : BitVec 4) (d a : Reg) (x : BitVec 1) (ss : BitVec 4) (aq r : BitVec 1) (c : BitVec 2)
  /-- R391: Queries a page's swap state. -/
  | swpq (g : BitVec 4) (d a b : Reg) (x : BitVec 1) (ss : BitVec 4) (aq r : BitVec 1) (c : BitVec 2)
  /-- R381: Allocates a guard slot of the issuing cluster. -/
  | gslot (g : BitVec 4) (d a : Reg)
  /-- R382: Resolves an open guard slot true or false. -/
  | gset (g : BitVec 4) (d a b : Reg)
  /-- R383: Frees a guard slot and discards held commands. -/
  | gfree (g : BitVec 4) (a : Reg)
  /-- R386: Waits until an engine job is final. -/
  | jwait (g : BitVec 4) (a : Reg)
  /-- R387: Tests whether an engine job is final. -/
  | jtest (g : BitVec 4) (d a : Reg)
  /-- R388: Reads an engine job's status word. -/
  | jstat (g : BitVec 4) (d a : Reg)
  /-- R266: Allocates a TDT entry from a template and returns a handle. -/
  | talloc (g : BitVec 4) (d a b : Reg)
  /-- R267: Frees a tile's TDT entry. -/
  | tfree (g : BitVec 4) (a : Reg)
  /-- R268: Replaces a tile's descriptor in place and returns a new handle. -/
  | tdesc (g : BitVec 4) (d a b : Reg)
  /-- R269: Reads a tile's descriptor summary, optionally its image. -/
  | tinfo (g : BitVec 4) (d a b : Reg) (m : BitVec 1)
  /-- R392: Mints a capability for remote Last commands. -/
  | capmint (g : BitVec 4) (d a : Reg)
  /-- R393: Advances the tenant's capability generation at every remote port. -/
  | caprev (g : BitVec 4)
  /-- R389: Releases a finishing thread's staging row to the Last. -/
  | fin (g : BitVec 4)
  /-- R417: Raises SoftTrap, or at level 1 calls a firmware service. -/
  | trap (g : BitVec 4) (i : BitVec 16)
  /-- R418: Reads a status register. -/
  | csrr (g : BitVec 4) (d : Reg) (n : BitVec 16)
  /-- R418: Writes a status register that has no row of its own. -/
  | csrw (g : BitVec 4) (a : Reg) (n : BitVec 16)
  /-- R419: Resumes a claimed parked line and releases the claim. -/
  | rft (g : BitVec 4) (a f : Reg)
  /-- R420: The executing line leaves its slot and returns to CL1 ready. -/
  | cevictSelf (g : BitVec 4)
  /-- R420: Brings a named line to its DRAM image. -/
  | cevict (g : BitVec 4) (a : Reg)
  /-- R421: Claims a line at its home directory and waits until it is in DRAM. -/
  | cclaim (g : BitVec 4) (d a : Reg)
  /-- R422: Releases, parks or kills a claimed line. -/
  | cpark (g : BitVec 4) (a b : Reg)
  /-- R423: Starts a snapshot transit at the issuing core. -/
  | transit (g : BitVec 4) (a : Reg)
  /-- R424: Invalidates translations module-wide and waits for every marker. -/
  | tlbinv (g : BitVec 4) (a b : Reg)
  /-- R425: Starts a gang switch out or a resume of a job. -/
  | gsw (g : BitVec 4) (d a b : Reg)
  /-- R426: Advances PC. -/
  | nop (g : BitVec 4)
  /-- R426: Halts or resumes a tenant's lines. -/
  | halt (g : BitVec 4) (a b : Reg)
  /-- R427: Seals a code page and invalidates translations. -/
  | seal (g : BitVec 4) (a : Reg)
  /-- R64: Collects 24 bits of immediate extension for the next instruction. -/
  | hext (p : BitVec 24)
  /-- R65: Gives a scheduling hint with no visible effect. -/
  | hsched (c : BitVec 24)
  /-- R66: Modifies the following instruction's lookahead, rounding or acknowledgement. -/
  | hmod (l : BitVec 4) (v : BitVec 1) (r : Reg) (k n : BitVec 1)
  /-- R68: Issue of a word that is not an instruction (unallocated major, unassigned selector, guard !q0, hint kind 3, nonzero reserved field or code, or an unaccepted feature) takes the emulation or illegal-instruction trap. -/
  | notAnInstructionWord (w : BitVec 32)
  /-- R30: A csrw to FMODE changes RMODE and FEN only. -/
  | fmodeWrite (g : BitVec 4) (a : Reg)
  /-- R44: A csrw to FFLAGS sets or clears the sticky float flags. -/
  | fflagsWrite (g : BitVec 4) (a : Reg)
  /-- R414: Advancing FQ_HEAD consumes fault records and frees ring room. -/
  | fqHeadWrite (g : BitVec 4) (a : Reg)
  /-- R138: Sets the base of the tenant's context pool. -/
  | ctxpoolBaseWrite (g : BitVec 4) (a : Reg)
  /-- R138: Sets the size of the tenant's context pool. -/
  | ctxpoolLinesWrite (g : BitVec 4) (a : Reg)
  /-- R415: Firmware service that maps a zeroed frame at a page address. -/
  | map (tn : Nat) (g1 g2 g3 : Word)
  /-- R415: Firmware service that removes a mapping and invalidates. -/
  | unmap (tn : Nat) (g1 : Word)
  /-- R415: Firmware service that replaces a page's attributes and invalidates. -/
  | protect (tn : Nat) (g1 g3 : Word)
  /-- R415: Firmware service that assigns a scrubbed granule to the tenant. -/
  | grantTake (tn : Nat) (g1 : Word)
  /-- R415: Firmware service that returns a granule, scrubbed before reuse. -/
  | grantGiveBack (tn : Nat) (g1 : Word)
  /-- R415: Firmware service that sets the tenant's push mask for a cluster. -/
  | pushmask (tn : Nat) (g1 g2 : Word)
  /-- R409: Firmware service that kills every line, record, command, ticket and packet of a job. -/
  | killjob (tn : Nat) (g1 : Word)
  /-- R415: Firmware service that sets the tenant's flash swap allotment. -/
  | swapallot (tn : Nat) (g1 : Word)
  /-- R415: Firmware service that assigns a free mailbox counter to the tenant. -/
  | counterTake (tn : Nat) (g1 : Word)
  /-- R415: Firmware service that resets a counter and wakes its waiters. -/
  | counterGiveBack (tn : Nat) (g1 : Word)
  /-- R456: Host message that writes tenant memory after checking every byte. -/
  | write (tn : Nat) (addr : Word) (data : List Byte) (rel : Bool) (tag : BitVec 32)
  /-- R456: Host message that reads tenant memory and is answered by READDATA. -/
  | read (tn : Nat) (addr : Word) (len : Nat) (acq : Bool) (tag : BitVec 32)
  /-- R131: Host message carrying a launch record that is checked and creates root lines. -/
  | launch (tn : Nat) (rec : BitVec 512) (tag : BitVec 32)
  /-- R456: Host message that pushes to a virtual queue with system release. -/
  | push (tn : Nat) (name elem : Word) (tag : BitVec 32)
  /-- R456: Host message that posts to a mailbox counter with system release. -/
  | post (tn : Nat) (name inc : Word) (tag : BitVec 32)
  /-- R473: Management message that creates a tenant with reset registers. -/
  | tenantCreate (tn : Nat) (tag : BitVec 32)
  /-- R211: Management message that tears down a tenant in order. -/
  | tenantTearDown (tn : Nat) (tag : BitVec 32)
  /-- R475: Management message that seals supervisor code and creates a level-1 line. -/
  | tenantStartSupervisor (tn : Nat) (blk : BitVec 384) (tag : BitVec 32)
  /-- R445: Management message that stores a job's gang membership. -/
  | gangmap (tn job : Nat) (gm : GangMap) (tag : BitVec 32)
  /-- R458: Management message that starts a gang switch out of a job. -/
  | gswitch (tn job : Nat) (tag : BitVec 32)
  /-- R468: Management message that resumes a switched job, optionally with a new gang map. -/
  | gresume (tn job : Nat) (gm : Option GangMap) (tag : BitVec 32)
  /-- R426: Management message that halts a tenant. -/
  | hostHalt (tn : Nat) (tag : BitVec 32)
  /-- R426: Management message that resumes a halted tenant. -/
  | hostHaltResume (tn : Nat) (tag : BitVec 32)
  /-- R403: Management message that resumes a line parked at level 2. -/
  | lineResume (tn : Nat) (addr : Word) (tag : BitVec 32)
  /-- R403: Management message that kills a line parked at level 2. -/
  | lineKill (tn : Nat) (addr : Word) (tag : BitVec 32)
  /-- R437: Management message that reads the die map. -/
  | diemapRead (die : Nat) (tag : BitVec 32)
  /-- R440: Management message that starts remapping a virtual die to another die pair. -/
  | diemapRemap (die phys : Nat) (tag : BitVec 32)
  /-- R438: Management message that sets an empty die offline. -/
  | diemapOffline (die : Nat) (tag : BitVec 32)
  /-- R456: Management message that runs a firmware service on a tenant's behalf. -/
  | service (tn : Nat) (n g1 g2 g3 : Word) (tag : BitVec 32)
  /-- R481: Management message that reads the offered feature set and microcode revision. -/
  | featuresRead (tag : BitVec 32)
  /-- R481: Management message that writes the accepted feature set. -/
  | featuresAccept (set : BitVec 256) (tag : BitVec 32)
  /-- R488: Halts all tenants and writes the whole module to flash. -/
  | checkpointModuleSave (tag : BitVec 32)
  /-- R488: Restores the module from flash under the same die map and feature set. -/
  | checkpointModuleRestore (tag : BitVec 32)
  /-- R489: Writes a switched-out tenant's state to flash. -/
  | checkpointTenantSave (tn : Nat) (tag : BitVec 32)
  /-- R489: Restores a tenant's saved state into an empty created tenant. -/
  | checkpointTenantRestore (tn : Nat) (tag : BitVec 32)
  /-- R486: Binds the host port to the host whose key and signature check. -/
  | bind (src : BitVec 48) (keyDigest : BitVec 256) (sigOk : Bool) (tag : BitVec 32)
  /-- R487: Answers a nonce with a signed attestation report. -/
  | attest (nonce : BitVec 256) (tag : BitVec 32)
  /-- R485: At reset the boot ROM verifies and runs firmware. -/
  | boot (b : BootInput)
  /-- R491: Input or coolant outside limits makes firmware lower the main clock. -/
  | clockReduction
  /-- R491: Input below 40 V or inlet above 50 C triggers an optional checkpoint and shutdown. -/
  | supplyFaultShutdown
  /-- R23: A result for a pending register is written and its PEND bit cleared wherever the line is. -/
  | resultArrival (id : Nat)
  /-- R32: A store acknowledgement reaches the issuing core and may end a drain wait. -/
  | storeAcknowledgement (id : Nat)
  /-- R32: The home directory applies the acknowledgement of a store swept by a gang switch. -/
  | sweptStoreAck (id : Nat)
  /-- R404: An uncorrectable error found after issue is reported as a deferred MemoryError. -/
  | deferredMemoryError (id : Nat)
  /-- R128: A free slot is filled with the first candidate line or popped record. -/
  | slotFill (core slot : Nat)
  /-- R123: After 4,096 issues the line leaves its slot when other ready work exists. -/
  | quantumExpiry (core slot : Nat)
  /-- R126: A CL1 evicts a line to its CL2 once its stores are performed. -/
  | cl1Eviction (core : Nat)
  /-- R126: A CL2 writes a line back to DRAM. -/
  | cl2Eviction (cl : Nat)
  /-- R128: A CL2 line passed over by 64 slot fills moves into a CL1. -/
  | cl2Promotion (cl core : Nat)
  /-- R129: A CL2 fills the head of a DRAM ready list. -/
  | readyListFill (cl src : Nat)
  /-- R129: A head passed over by 64 slot fills or aged 4,096 evictions forces an eviction and fill. -/
  | readyListForcedFill (cl : Nat)
  /-- R435: A fill request reaches the home directory and is granted or refused. -/
  | fillRequest (cl tn : Nat) (addr : Word)
  /-- R142: An idle core steals the oldest admitting record from another deque. -/
  | steal (thief slot victim : Nat)
  /-- R135: When a launched job ceases to be live the device releases, posts and notifies. -/
  | jobCompletion (tn job : Nat)
  /-- R143: A migrating line arrives and is placed ready in a CL1 of the target. -/
  | migrationArrival (tn : Nat) (addr : Word) (core : Nat)
  /-- R146: A wake reaches a waiting line, clears its wait tag and makes it ready. -/
  | wake (n : Nat)
  /-- R149: A post arrives at a mailbox counter and is applied or dropped. -/
  | mailboxPost (id : Nat)
  /-- R149: An expectation arrives at a counter and is applied, rejected or dropped. -/
  | mailboxExpectation (tn : Nat) (name inc : Word)
  /-- R151: A push packet reaches its queue and is appended, held or dropped. -/
  | queuePush (id : Nat)
  /-- R151: A nack of a dropped push returns to the sender and raises its bounce count. -/
  | queuePushNack (id : Nat)
  /-- R151: The device moves a queue between a queue buffer and its DRAM image. -/
  | queueResidencyChange (tn qnum core : Nat)
  /-- R256: A ticket fetch returns data and its entry becomes complete or is freed. -/
  | ticketFetchReturn (slice idx : Nat)
  /-- R256: A ticket fetch fails after issue and its entry becomes failed or is freed. -/
  | ticketFetchFailure (slice idx : Nat)
  /-- R401: A deferred handler line is created when a pool line frees or its vector page lands. -/
  | handlerCreation (n : Nat)
  /-- R436: A message for a line is applied, forwarded or held at its home directory. -/
  | directoryMessage (n : Nat)
  /-- R410: A base-die walker walks the tenant's page tables. -/
  | tableWalk (core tn : Nat) (addr : Word)
  /-- R411: A translating unit returns its invalidation marker. -/
  | invalidationMarker (inv unit : Nat)
  /-- R313: A queued engine command reaches the head and runs, is held or is discarded. -/
  | commandStart (eng : Nat)
  /-- R315: A running command meets a failure and ends as failed with a fault record. -/
  | commandFault (eng entry : Nat)
  /-- R313: A command completes its last access and release and becomes done. -/
  | commandCompletion (eng entry : Nat)
  /-- R327: A drained Last row goes to a free staging row. -/
  | stagingDelivery (cl core : Nat)
  /-- R329: A released staging row is converted and written to its destination row. -/
  | stagingRowWrite (cl row : Nat)
  /-- R338: A copy channel delivers a segment and raises its watermark. -/
  | copySegment (cl ch : Nat)
  /-- R349: A swap-out's image is written and the page becomes swapped. -/
  | swapOutImageWritten (tn : Nat) (page : Word)
  /-- R350: A swap-in waiting on the frame pool takes a returned frame. -/
  | swapInFrameGrant (tn : Nat) (page : Word)
  /-- R350: A swap-in completes, the page is resident and waiters and parked commands resume. -/
  | pageLanding (tn : Nat) (page : Word)
  /-- R350: An uncorrectable flash read leaves the page swapped and fails its waiters. -/
  | flashReadError (tn : Nat) (page : Word)
  /-- R439: A router reroutes a packet carrying an older DMGEN. -/
  | packetReroute (id : Nat)
  /-- R440: A die-remap phase completes and the next begins. -/
  | remapPhaseCompletion
  /-- R443: A failed die pair marks its virtual die lost and ends dependent activity. -/
  | dieLost (die : Nat)
  /-- R451: A fabric data frame is received at a port, ordered and delivered or refused: its bytes from the Ethernet header on. -/
  | fabricDataFrame (f : Arrival)
  /-- R452: An ack frame releases acknowledged frames of a flow. -/
  | fabricAck (flow : FlowId) (ackSeq : BitVec 32)
  /-- R452: A transport nack makes the sender resend from the missing SEQ. -/
  | transportNack (flow : FlowId) (seq : BitVec 32)
  /-- R453: A device nack of reason 0 kills the job at the sender; reason 1 does nothing. -/
  | deviceNack (flow : FlowId) (reason : Nat)
  /-- R452: A heartbeat frame carries acknowledgements. -/
  | heartbeat (flow : FlowId) (ackSeq : BitVec 32)
  /-- R452: An idle port sends a heartbeat frame. -/
  | heartbeatSend (port : Nat)
  /-- R452: A frame unacknowledged after 1,024 further frames is sent again. -/
  | retransmission (flow : FlowId)
  /-- R454: A frame sent 64 times unacknowledged fails its flow and kills the job. -/
  | flowFailure (flow : FlowId)
  /-- R458: A switch-control packet starts or resumes a switch of a job. -/
  | switchControl (tn job src : Nat) (resume : Bool)
  /-- R461: A meridian marker arrives at a buffer, which sweeps and forwards when all inputs have one. -/
  | meridianMarker (tn job src cls : Nat)
  /-- R460: A gang-switch phase completes and the next begins. -/
  | switchPhaseCompletion (tn job : Nat)
  /-- R468: A resume phase completes and the next begins. -/
  | resumePhaseCompletion (tn job : Nat)
  /-- R477: A block latches its snapshot record on its first transit marker and forwards it. -/
  | transitMarker (bkind block link : Nat)
  /-- R442: When the target die pair q fails before phase 5 of a remap, the remap is abandoned, held accesses are performed at p and the virtual die returns to online on p. -/
  | remapAbandoned
  deriving DecidableEq, Repr

end Sys2Proof
end

