-- ==== Sys2Proof/WellFormed.lean ====
section
/-! DEFINITION. WellFormed.lean: the reserved codes of the encodings (R52, R68 order 2 and order 5): what an instruction
of the table must meet beside the fixed bits of its row. -/

namespace Sys2Proof

/-- Guard `!q0` is reserved (R49). -/
def guardOk (g : BitVec 4) : Bool := g != 8

/-- The engine form: SLOT is reserved with G = 0, the scope with ACQ = REL = 0, and scope 0 with either set (R351, R394). -/
def engineOk (x : BitVec 1) (slot : BitVec 4) (acq rel : BitVec 1) (scope : BitVec 2) : Bool :=
  (x == 1 || slot == 0) && ((acq == 0 && rel == 0) == (scope == 0))

/-- fcvt: width 0 or 1, codes not equal, and the lanewise pairs of R110 item 2. -/
def fcvtOk (l : BitVec 2) (src tgt : BitVec 3) : Bool :=
  src != tgt && (l == 0 || (l == 1 &&
    ([1, 6, 7].contains src.toNat && [1, 6, 7].contains tgt.toNat ||
     [2, 3].contains src.toNat && [2, 3].contains tgt.toNat)))

/-- The status registers `csrr` may name (R413). -/
def csrReadable (n : BitVec 16) : Bool :=
  [0x000, 0x001, 0x002, 0x003, 0x004, 0x005, 0x008, 0x009, 0x00A, 0x010, 0x011, 0x012, 0x013, 0x014, 0x015, 0x016,
   0x017, 0x018, 0x019, 0x01A, 0x01B, 0x020, 0x021, 0x022, 0x023, 0x024, 0x025, 0x026, 0x028, 0x029, 0x02A, 0x02B,
   0x02C].contains n.toNat

/-- The status registers with a Write column (R413). -/
def csrWritable (n : BitVec 16) : Bool :=
  [0x008, 0x009, 0x00A, 0x020, 0x021, 0x022, 0x023, 0x026, 0x028, 0x029, 0x02A, 0x02B, 0x02C].contains n.toNat

/-- Well-formed: no reserved code in any field. An event has no encoding, so nothing to check. -/
def Instr.wf : Instr → Bool
  | .add g _ _ _ _ r => guardOk g && r != 3
  | .sub g _ _ _ _ r => guardOk g && r != 3
  | .and g .. | .or g .. | .xor g .. | .andn g .. | .orn g .. | .xnor g .. => guardOk g
  | .shl g _ _ _ _ r => guardOk g && r != 3
  | .shr g .. | .sar g .. | .rol g .. | .ror g .. | .min g .. | .max g .. | .minb g .. | .maxb g .. => guardOk g
  | .mul g _ _ _ _ r => guardOk g && r != 3
  | .mulh g .. | .mulhb g .. | .div g .. | .divb g .. | .rem g .. => guardOk g
  | .neg g _ _ _ r => guardOk g && decide (r.toNat < 2)
  | .remb g .. | .clz g .. | .ctz g .. | .popc g .. | .bswap g .. | .mov g .. => guardOk g
  | .abs g _ _ _ r => guardOk g && decide (r.toNat < 2)
  | .sext g _ _ w => guardOk g && w != 0
  | .addi g .. | .andi g .. | .ori g .. | .xori g .. => guardOk g
  | .shli g _ _ w k => guardOk g && decide (k.toNat < 64 >>> w.toNat)
  | .shri g _ _ w k => guardOk g && decide (k.toNat < 64 >>> w.toNat)
  | .sari g _ _ w k => guardOk g && decide (k.toNat < 64 >>> w.toNat)
  | .roli g _ _ w k => guardOk g && decide (k.toNat < 64 >>> w.toNat)
  | .movi g _ _ => guardOk g
  | .movh g _ p _ => guardOk g && decide (p.toNat < 4)
  | .cmp g _ _ _ c w l => guardOk g && decide (c.toNat < 12) && (l == 0 || w != 0)
  | .cmpi g _ _ c _ => guardOk g && decide (c.toNat < 12)
  | .qand g .. | .qor g .. | .qxor g .. | .qnot g .. | .qmov g .. | .qset g .. | .qany g .. | .qall g ..
  | .qtog g .. | .gtoq g .. => guardOk g
  | .vadd g _ _ _ w => guardOk g && w != 0
  | .vsub g _ _ _ w => guardOk g && w != 0
  | .vadds g _ _ _ w _ => guardOk g && w != 0
  | .vsubs g _ _ _ w _ => guardOk g && w != 0
  | .vmul g _ _ _ w _ => guardOk g && w != 0
  | .vmin g _ _ _ w _ => guardOk g && w != 0
  | .vmax g _ _ _ w _ => guardOk g && w != 0
  | .vavg g _ _ _ w _ => guardOk g && w != 0
  | .vshl g _ _ _ w => guardOk g && w != 0
  | .vshr g _ _ _ w => guardOk g && w != 0
  | .vsar g _ _ _ w => guardOk g && w != 0
  | .vsel g _ _ _ w _ => guardOk g && w != 0
  | .vshuf g _ _ _ w => guardOk g && w != 0
  | .vpack g _ _ _ w _ => guardOk g && w != 0 && w != 3
  | .vunpk g _ _ w _ => guardOk g && w != 0
  | .vdot g _ _ _ w _ => guardOk g && w != 0
  | .vsum g _ _ w _ => guardOk g && w != 0
  | .fadd g _ _ _ w x => guardOk g && (w != 0 || x == 0)
  | .fsub g _ _ _ w x => guardOk g && (w != 0 || x == 0)
  | .fmul g _ _ _ w x => guardOk g && (w != 0 || x == 0)
  | .fdiv g _ _ _ w x => guardOk g && (w != 0 || x == 0)
  | .fsqrt g _ _ w x => guardOk g && (w != 0 || x == 0)
  | .fmin g _ _ _ w x => guardOk g && (w != 0 || x == 0)
  | .fmax g _ _ _ w x => guardOk g && (w != 0 || x == 0)
  | .fma g _ _ _ w x => guardOk g && (w != 0 || x == 0)
  | .fcmp g _ _ _ w c x => guardOk g && (w != 0 || x == 0) && decide (c.toNat < 8)
  | .fcvt g _ _ l ss t => guardOk g && fcvtOk l ss t
  | .fround g _ _ w x => guardOk g && (w != 0 || x == 0)
  | .bext g _ _ p n => guardOk g && decide (p.toNat + n.toNat + 1 ≤ 64)
  | .bextb g _ _ p n => guardOk g && decide (p.toNat + n.toNat + 1 ≤ 64)
  | .bins g _ _ p n => guardOk g && decide (p.toNat + n.toNat + 1 ≤ 64)
  | .br g .. | .call g .. | .jr g .. | .ret g .. | .callr g .. | .loop g .. => guardOk g
  | .spawn g _ _ _ _ ss => guardOk g && ss != 3
  | .join g .. | .yield g | .exit g | .exitCounter g .. | .go g .. | .goc g .. | .self g .. | .cancel g ..
  | .waitne g .. | .waiteq g .. | .ld g .. | .st g .. | .ldx g .. | .stx g .. | .ldfe g .. | .ldff g ..
  | .stf g .. | .ste g .. => guardOk g
  | .amoAdd g _ _ _ _ o c => guardOk g && ((o == 0) == (c == 0))
  | .amoAnd g _ _ _ _ o c => guardOk g && ((o == 0) == (c == 0))
  | .amoOr g _ _ _ _ o c => guardOk g && ((o == 0) == (c == 0))
  | .amoXor g _ _ _ _ o c => guardOk g && ((o == 0) == (c == 0))
  | .amoMin g _ _ _ _ o c => guardOk g && ((o == 0) == (c == 0))
  | .amoMax g _ _ _ _ o c => guardOk g && ((o == 0) == (c == 0))
  | .amoMinb g _ _ _ _ o c => guardOk g && ((o == 0) == (c == 0))
  | .amoMaxb g _ _ _ _ o c => guardOk g && ((o == 0) == (c == 0))
  | .amoSwap g _ _ _ _ o c => guardOk g && ((o == 0) == (c == 0))
  | .amoCas g _ _ _ _ o c => guardOk g && ((o == 0) == (c == 0))
  | .amoFadd g _ _ _ _ o c => guardOk g && ((o == 0) == (c == 0))
  | .fence g k c => guardOk g && k != 0 && c != 0
  | .tkld g .. | .tkred g .. | .tkdrop g .. | .tkstat g .. | .mpost g .. | .mexp g .. | .mwait g ..
  | .mread g .. | .enq g .. | .deq g .. | .qlen g .. | .qmake g .. | .qfree g .. => guardOk g
  | .rmov g d a b _ => guardOk g && (d != a && d != b && a != b)
  | .rfill g d a b _ => guardOk g && (d != a && d != b && a != b)
  | .rcmp g d a b _ => guardOk g && (d != a && d != b && a != b)
  | .lw g _ _ x ss aq r c => guardOk g && engineOk x ss aq r c
  | .lswap g _ x ss aq r c => guardOk g && engineOk x ss aq r c
  | .lstream g _ _ x ss aq r c => guardOk g && engineOk x ss aq r c
  | .ldrain g _ x ss aq r c => guardOk g && engineOk x ss aq r c
  | .lcfg g _ _ x ss aq r c => guardOk g && engineOk x ss aq r c
  | .lrem g _ _ _ => guardOk g
  | .tadd g _ _ x ss aq r c => guardOk g && engineOk x ss aq r c
  | .tmul g _ _ x ss aq r c => guardOk g && engineOk x ss aq r c
  | .tfma g _ _ x ss aq r c => guardOk g && engineOk x ss aq r c
  | .tmax g _ _ x ss aq r c => guardOk g && engineOk x ss aq r c
  | .tmin g _ _ x ss aq r c => guardOk g && engineOk x ss aq r c
  | .texp2 g _ _ x ss aq r c => guardOk g && engineOk x ss aq r c
  | .trcp g _ _ x ss aq r c => guardOk g && engineOk x ss aq r c
  | .trsqrt g _ _ x ss aq r c => guardOk g && engineOk x ss aq r c
  | .tcvt g _ _ x ss aq r c => guardOk g && engineOk x ss aq r c
  | .tred g _ _ _ x ss aq r c => guardOk g && engineOk x ss aq r c
  | .tsel g _ _ x ss aq r c => guardOk g && engineOk x ss aq r c
  | .ttrn g _ _ x ss aq r c => guardOk g && engineOk x ss aq r c
  | .cpy g _ _ x ss aq r c => guardOk g && engineOk x ss aq r c
  | .cpyd g _ _ x ss aq r c => guardOk g && engineOk x ss aq r c
  | .cwm g d _ b x ss aq r c => guardOk g && engineOk x ss aq r c && d != b
  | .chan g _ _ x ss aq r c => guardOk g && engineOk x ss aq r c
  | .scmc g _ _ _ x ss aq r c => guardOk g && engineOk x ss aq r c
  | .sld g d _ b x ss aq r c => guardOk g && engineOk x ss aq r c && d != b
  | .swpin g _ _ x ss aq r c => guardOk g && engineOk x ss aq r c
  | .swpout g _ _ x ss aq r c => guardOk g && engineOk x ss aq r c
  | .swpq g d _ b x ss aq r c => guardOk g && engineOk x ss aq r c && d != b
  | .gslot g .. | .gset g .. | .gfree g .. | .jwait g .. | .jtest g .. | .jstat g .. | .talloc g ..
  | .tfree g .. | .tdesc g .. => guardOk g
  | .tinfo g _ _ b m => guardOk g && (m == 1 || b == 0)
  | .capmint g .. | .caprev g | .fin g | .trap g .. => guardOk g
  | .csrr g _ n => guardOk g && csrReadable n
  | .csrw g _ n => guardOk g && csrWritable n
  | .rft g .. | .cevictSelf g | .cevict g .. | .cclaim g .. | .cpark g .. | .transit g .. | .tlbinv g ..
  | .gsw g .. | .nop g | .halt g .. | .seal g .. => guardOk g
  | .hext _ => true
  | .hsched _ => true
  | .hmod _ _ r _ _ => decide (r.toNat < 5)
  | .fmodeWrite .. | .fflagsWrite .. | .fqHeadWrite .. | .ctxpoolBaseWrite .. | .ctxpoolLinesWrite .. | .map ..
  | .unmap .. | .protect .. | .grantTake .. | .grantGiveBack .. | .pushmask .. | .killjob .. | .swapallot ..
  | .counterTake .. | .counterGiveBack .. | .write .. | .read .. | .launch .. | .push .. | .post ..
  | .tenantCreate .. | .tenantTearDown .. | .tenantStartSupervisor .. | .gangmap .. | .gswitch .. | .gresume ..
  | .hostHalt .. | .hostHaltResume .. | .lineResume .. | .lineKill .. | .diemapRead .. | .diemapRemap ..
  | .diemapOffline .. | .service .. | .featuresRead .. | .featuresAccept .. | .checkpointModuleSave ..
  | .checkpointModuleRestore .. | .checkpointTenantSave .. | .checkpointTenantRestore .. | .bind .. | .attest ..
  | .boot .. | .clockReduction | .supplyFaultShutdown | .resultArrival .. | .storeAcknowledgement ..
  | .sweptStoreAck .. | .deferredMemoryError .. | .slotFill .. | .quantumExpiry .. | .cl1Eviction ..
  | .cl2Eviction .. | .cl2Promotion .. | .readyListFill .. | .readyListForcedFill .. | .fillRequest ..
  | .steal .. | .jobCompletion .. | .migrationArrival .. | .wake .. | .mailboxPost .. | .mailboxExpectation ..
  | .queuePush .. | .queuePushNack .. | .queueResidencyChange .. | .ticketFetchReturn ..
  | .ticketFetchFailure .. | .handlerCreation .. | .directoryMessage .. | .tableWalk .. | .invalidationMarker ..
  | .commandStart .. | .commandFault .. | .commandCompletion .. | .stagingDelivery .. | .stagingRowWrite ..
  | .copySegment .. | .swapOutImageWritten .. | .swapInFrameGrant .. | .pageLanding .. | .flashReadError ..
  | .packetReroute .. | .remapPhaseCompletion | .dieLost .. | .fabricDataFrame .. | .fabricAck ..
  | .transportNack .. | .deviceNack .. | .heartbeat .. | .heartbeatSend .. | .retransmission ..
  | .flowFailure .. | .switchControl .. | .meridianMarker .. | .switchPhaseCompletion ..
  | .resumePhaseCompletion .. | .transitMarker .. | .notAnInstructionWord .. | .remapAbandoned => true

end Sys2Proof
end

