-- ==== Sys2Proof/Decode.lean ====
section
/-! DEFINITION. Decode.lean: from any 32-bit word to an instruction or the fate of R68, and back. A word is read as a
natural number, so that its fields are quotients and remainders. -/

namespace Sys2Proof

/-- The two fates of a word that is not an instruction (R68). -/
inductive Reject where
  | emulation
  | illegal
  deriving DecidableEq, Repr

/-- The `n` bits of `w` from bit `lo` up, as a number. -/
def bits (w lo n : Nat) : Nat := w / 2 ^ lo % 2 ^ n

/-- The `n` bits of `w` from bit `lo` up, as a field. -/
def fld (w lo n : Nat) : BitVec n := BitVec.ofNat n (w / 2 ^ lo)

/-- A row of the table: its reserved bits are as fixed and its fields hold no reserved code, or the word is illegal
(R68 order 5). -/
def row (fixed : Bool) (i : Instr) : Except Reject Instr :=
  if fixed && i.wf then .ok i else .error .illegal

/-- Major 0x00. -/
def decode00 (w : Nat) : Except Reject Instr :=
  match bits w 8 5 with
  | 0 => row (bits w 2 4 == 0) (.add (fld w 22 4) (fld w 19 3) (fld w 16 3) (fld w 13 3) (fld w 6 2) (fld w 0 2))
  | 1 => row (bits w 2 4 == 0) (.sub (fld w 22 4) (fld w 19 3) (fld w 16 3) (fld w 13 3) (fld w 6 2) (fld w 0 2))
  | 2 => row (bits w 0 6 == 0) (.and (fld w 22 4) (fld w 19 3) (fld w 16 3) (fld w 13 3) (fld w 6 2))
  | 3 => row (bits w 0 6 == 0) (.or (fld w 22 4) (fld w 19 3) (fld w 16 3) (fld w 13 3) (fld w 6 2))
  | 4 => row (bits w 0 6 == 0) (.xor (fld w 22 4) (fld w 19 3) (fld w 16 3) (fld w 13 3) (fld w 6 2))
  | 5 => row (bits w 0 6 == 0) (.andn (fld w 22 4) (fld w 19 3) (fld w 16 3) (fld w 13 3) (fld w 6 2))
  | 6 => row (bits w 0 6 == 0) (.orn (fld w 22 4) (fld w 19 3) (fld w 16 3) (fld w 13 3) (fld w 6 2))
  | 7 => row (bits w 0 6 == 0) (.xnor (fld w 22 4) (fld w 19 3) (fld w 16 3) (fld w 13 3) (fld w 6 2))
  | 8 => row (bits w 2 4 == 0) (.shl (fld w 22 4) (fld w 19 3) (fld w 16 3) (fld w 13 3) (fld w 6 2) (fld w 0 2))
  | 9 => row (bits w 0 6 == 0) (.shr (fld w 22 4) (fld w 19 3) (fld w 16 3) (fld w 13 3) (fld w 6 2))
  | 10 => row (bits w 0 6 == 0) (.sar (fld w 22 4) (fld w 19 3) (fld w 16 3) (fld w 13 3) (fld w 6 2))
  | 11 => row (bits w 0 6 == 0) (.rol (fld w 22 4) (fld w 19 3) (fld w 16 3) (fld w 13 3) (fld w 6 2))
  | 12 => row (bits w 0 6 == 0) (.ror (fld w 22 4) (fld w 19 3) (fld w 16 3) (fld w 13 3) (fld w 6 2))
  | 13 => row (bits w 0 6 == 0) (.min (fld w 22 4) (fld w 19 3) (fld w 16 3) (fld w 13 3) (fld w 6 2))
  | 14 => row (bits w 0 6 == 0) (.max (fld w 22 4) (fld w 19 3) (fld w 16 3) (fld w 13 3) (fld w 6 2))
  | 15 => row (bits w 0 6 == 0) (.minb (fld w 22 4) (fld w 19 3) (fld w 16 3) (fld w 13 3) (fld w 6 2))
  | 16 => row (bits w 0 6 == 0) (.maxb (fld w 22 4) (fld w 19 3) (fld w 16 3) (fld w 13 3) (fld w 6 2))
  | 17 => row (bits w 2 4 == 0) (.mul (fld w 22 4) (fld w 19 3) (fld w 16 3) (fld w 13 3) (fld w 6 2) (fld w 0 2))
  | 18 => row (bits w 0 6 == 0) (.mulh (fld w 22 4) (fld w 19 3) (fld w 16 3) (fld w 13 3) (fld w 6 2))
  | 19 => row (bits w 0 6 == 0) (.mulhb (fld w 22 4) (fld w 19 3) (fld w 16 3) (fld w 13 3) (fld w 6 2))
  | 20 => row (bits w 0 6 == 0) (.div (fld w 22 4) (fld w 19 3) (fld w 16 3) (fld w 13 3) (fld w 6 2))
  | 21 => row (bits w 0 6 == 0) (.divb (fld w 22 4) (fld w 19 3) (fld w 16 3) (fld w 13 3) (fld w 6 2))
  | 22 => row (bits w 0 6 == 0) (.rem (fld w 22 4) (fld w 19 3) (fld w 16 3) (fld w 13 3) (fld w 6 2))
  | 23 => row (bits w 2 4 == 0 && bits w 13 3 == 0) (.neg (fld w 22 4) (fld w 19 3) (fld w 16 3) (fld w 6 2) (fld w 0 2))
  | 24 => row (bits w 0 6 == 0) (.remb (fld w 22 4) (fld w 19 3) (fld w 16 3) (fld w 13 3) (fld w 6 2))
  | 25 => row (bits w 0 6 == 0 && bits w 13 3 == 0) (.clz (fld w 22 4) (fld w 19 3) (fld w 16 3) (fld w 6 2))
  | 26 => row (bits w 0 6 == 0 && bits w 13 3 == 0) (.ctz (fld w 22 4) (fld w 19 3) (fld w 16 3) (fld w 6 2))
  | 27 => row (bits w 0 6 == 0 && bits w 13 3 == 0) (.popc (fld w 22 4) (fld w 19 3) (fld w 16 3) (fld w 6 2))
  | 28 => row (bits w 0 6 == 0 && bits w 13 3 == 0) (.bswap (fld w 22 4) (fld w 19 3) (fld w 16 3) (fld w 6 2))
  | 29 => row (bits w 0 8 == 0 && bits w 13 3 == 0) (.mov (fld w 22 4) (fld w 19 3) (fld w 16 3))
  | 30 => row (bits w 2 4 == 0 && bits w 13 3 == 0) (.abs (fld w 22 4) (fld w 19 3) (fld w 16 3) (fld w 6 2) (fld w 0 2))
  | 31 => row (bits w 0 6 == 0 && bits w 13 3 == 0) (.sext (fld w 22 4) (fld w 19 3) (fld w 16 3) (fld w 6 2))
  | _ => .error .emulation

/-- Major 0x01. -/
def decode01 (w : Nat) : Except Reject Instr :=
  row (true) (.addi (fld w 22 4) (fld w 19 3) (fld w 16 3) (fld w 0 16))

/-- Major 0x02. -/
def decode02 (w : Nat) : Except Reject Instr :=
  row (true) (.andi (fld w 22 4) (fld w 19 3) (fld w 16 3) (fld w 0 16))

/-- Major 0x03. -/
def decode03 (w : Nat) : Except Reject Instr :=
  row (true) (.ori (fld w 22 4) (fld w 19 3) (fld w 16 3) (fld w 0 16))

/-- Major 0x04. -/
def decode04 (w : Nat) : Except Reject Instr :=
  row (true) (.xori (fld w 22 4) (fld w 19 3) (fld w 16 3) (fld w 0 16))

/-- Major 0x05. -/
def decode05 (w : Nat) : Except Reject Instr :=
  match bits w 14 2 with
  | 0 => row (bits w 6 6 == 0) (.shli (fld w 22 4) (fld w 19 3) (fld w 16 3) (fld w 12 2) (fld w 0 6))
  | 1 => row (bits w 6 6 == 0) (.shri (fld w 22 4) (fld w 19 3) (fld w 16 3) (fld w 12 2) (fld w 0 6))
  | 2 => row (bits w 6 6 == 0) (.sari (fld w 22 4) (fld w 19 3) (fld w 16 3) (fld w 12 2) (fld w 0 6))
  | 3 => row (bits w 6 6 == 0) (.roli (fld w 22 4) (fld w 19 3) (fld w 16 3) (fld w 12 2) (fld w 0 6))
  | _ => .error .emulation

/-- Major 0x06. -/
def decode06 (w : Nat) : Except Reject Instr :=
  row (bits w 16 3 == 0) (.movi (fld w 22 4) (fld w 19 3) (fld w 0 16))

/-- Major 0x07. -/
def decode07 (w : Nat) : Except Reject Instr :=
  row (true) (.movh (fld w 22 4) (fld w 19 3) (fld w 16 3) (fld w 0 16))

/-- Major 0x08. -/
def decode08 (w : Nat) : Except Reject Instr :=
  if bits w 8 5 < 12 then row (bits w 1 5 == 0) (.cmp (fld w 22 4) (fld w 19 3) (fld w 16 3) (fld w 13 3) (fld w 8 5) (fld w 6 2) (fld w 0 1)) else .error .emulation

/-- Major 0x09. -/
def decode09 (w : Nat) : Except Reject Instr :=
  row (true) (.cmpi (fld w 22 4) (fld w 19 3) (fld w 16 3) (fld w 12 4) (fld w 0 12))

/-- Major 0x0A. -/
def decode0A (w : Nat) : Except Reject Instr :=
  match bits w 8 5 with
  | 0 => row (bits w 0 8 == 0) (.qand (fld w 22 4) (fld w 19 3) (fld w 16 3) (fld w 13 3))
  | 1 => row (bits w 0 8 == 0) (.qor (fld w 22 4) (fld w 19 3) (fld w 16 3) (fld w 13 3))
  | 2 => row (bits w 0 8 == 0) (.qxor (fld w 22 4) (fld w 19 3) (fld w 16 3) (fld w 13 3))
  | 3 => row (bits w 0 8 == 0 && bits w 13 3 == 0) (.qnot (fld w 22 4) (fld w 19 3) (fld w 16 3))
  | 4 => row (bits w 0 8 == 0 && bits w 13 3 == 0) (.qmov (fld w 22 4) (fld w 19 3) (fld w 16 3))
  | 5 => row (bits w 13 6 == 0) (.qset (fld w 22 4) (fld w 19 3) (fld w 0 8))
  | 6 => row (bits w 0 6 == 0 && bits w 13 3 == 0) (.qany (fld w 22 4) (fld w 19 3) (fld w 16 3) (fld w 6 2))
  | 7 => row (bits w 0 6 == 0 && bits w 13 3 == 0) (.qall (fld w 22 4) (fld w 19 3) (fld w 16 3) (fld w 6 2))
  | 8 => row (bits w 13 6 == 0) (.qtog (fld w 22 4) (fld w 19 3) (fld w 0 8))
  | 9 => row (bits w 0 8 == 0 && bits w 13 3 == 0) (.gtoq (fld w 22 4) (fld w 19 3) (fld w 16 3))
  | _ => .error .emulation

/-- Major 0x0B. -/
def decode0B (w : Nat) : Except Reject Instr :=
  match bits w 8 5 with
  | 0 => row (bits w 0 6 == 0) (.vadd (fld w 22 4) (fld w 19 3) (fld w 16 3) (fld w 13 3) (fld w 6 2))
  | 1 => row (bits w 0 6 == 0) (.vsub (fld w 22 4) (fld w 19 3) (fld w 16 3) (fld w 13 3) (fld w 6 2))
  | 2 => row (bits w 1 5 == 0) (.vadds (fld w 22 4) (fld w 19 3) (fld w 16 3) (fld w 13 3) (fld w 6 2) (fld w 0 1))
  | 3 => row (bits w 1 5 == 0) (.vsubs (fld w 22 4) (fld w 19 3) (fld w 16 3) (fld w 13 3) (fld w 6 2) (fld w 0 1))
  | 4 => row (bits w 1 5 == 0) (.vmul (fld w 22 4) (fld w 19 3) (fld w 16 3) (fld w 13 3) (fld w 6 2) (fld w 0 1))
  | 5 => row (bits w 1 5 == 0) (.vmin (fld w 22 4) (fld w 19 3) (fld w 16 3) (fld w 13 3) (fld w 6 2) (fld w 0 1))
  | 6 => row (bits w 1 5 == 0) (.vmax (fld w 22 4) (fld w 19 3) (fld w 16 3) (fld w 13 3) (fld w 6 2) (fld w 0 1))
  | 7 => row (bits w 1 5 == 0) (.vavg (fld w 22 4) (fld w 19 3) (fld w 16 3) (fld w 13 3) (fld w 6 2) (fld w 0 1))
  | 8 => row (bits w 0 6 == 0) (.vshl (fld w 22 4) (fld w 19 3) (fld w 16 3) (fld w 13 3) (fld w 6 2))
  | 9 => row (bits w 0 6 == 0) (.vshr (fld w 22 4) (fld w 19 3) (fld w 16 3) (fld w 13 3) (fld w 6 2))
  | 10 => row (bits w 0 6 == 0) (.vsar (fld w 22 4) (fld w 19 3) (fld w 16 3) (fld w 13 3) (fld w 6 2))
  | 11 => row (bits w 0 2 == 0 && bits w 5 1 == 0) (.vsel (fld w 22 4) (fld w 19 3) (fld w 16 3) (fld w 13 3) (fld w 6 2) (fld w 2 3))
  | 12 => row (bits w 0 6 == 0) (.vshuf (fld w 22 4) (fld w 19 3) (fld w 16 3) (fld w 13 3) (fld w 6 2))
  | 13 => row (bits w 1 5 == 0) (.vpack (fld w 22 4) (fld w 19 3) (fld w 16 3) (fld w 13 3) (fld w 6 2) (fld w 0 1))
  | 14 => row (bits w 0 1 == 0 && bits w 2 4 == 0 && bits w 13 3 == 0) (.vunpk (fld w 22 4) (fld w 19 3) (fld w 16 3) (fld w 6 2) (fld w 1 1))
  | 15 => row (bits w 1 5 == 0) (.vdot (fld w 22 4) (fld w 19 3) (fld w 16 3) (fld w 13 3) (fld w 6 2) (fld w 0 1))
  | 16 => row (bits w 1 5 == 0 && bits w 13 3 == 0) (.vsum (fld w 22 4) (fld w 19 3) (fld w 16 3) (fld w 6 2) (fld w 0 1))
  | _ => .error .emulation

/-- Major 0x0C. -/
def decode0C (w : Nat) : Except Reject Instr :=
  match bits w 8 5 with
  | 0 => row (bits w 1 5 == 0) (.fadd (fld w 22 4) (fld w 19 3) (fld w 16 3) (fld w 13 3) (fld w 6 2) (fld w 0 1))
  | 1 => row (bits w 1 5 == 0) (.fsub (fld w 22 4) (fld w 19 3) (fld w 16 3) (fld w 13 3) (fld w 6 2) (fld w 0 1))
  | 2 => row (bits w 1 5 == 0) (.fmul (fld w 22 4) (fld w 19 3) (fld w 16 3) (fld w 13 3) (fld w 6 2) (fld w 0 1))
  | 3 => row (bits w 1 5 == 0) (.fdiv (fld w 22 4) (fld w 19 3) (fld w 16 3) (fld w 13 3) (fld w 6 2) (fld w 0 1))
  | 4 => row (bits w 1 5 == 0 && bits w 13 3 == 0) (.fsqrt (fld w 22 4) (fld w 19 3) (fld w 16 3) (fld w 6 2) (fld w 0 1))
  | 5 => row (bits w 1 5 == 0) (.fmin (fld w 22 4) (fld w 19 3) (fld w 16 3) (fld w 13 3) (fld w 6 2) (fld w 0 1))
  | 6 => row (bits w 1 5 == 0) (.fmax (fld w 22 4) (fld w 19 3) (fld w 16 3) (fld w 13 3) (fld w 6 2) (fld w 0 1))
  | 7 => row (bits w 1 5 == 0) (.fma (fld w 22 4) (fld w 19 3) (fld w 16 3) (fld w 13 3) (fld w 6 2) (fld w 0 1))
  | 8 => row (bits w 5 1 == 0) (.fcmp (fld w 22 4) (fld w 19 3) (fld w 16 3) (fld w 13 3) (fld w 6 2) (fld w 1 4) (fld w 0 1))
  | _ => .error .emulation

/-- Major 0x0D. -/
def decode0D (w : Nat) : Except Reject Instr :=
  match bits w 8 5 with
  | 0 => row (bits w 13 3 == 0) (.fcvt (fld w 22 4) (fld w 19 3) (fld w 16 3) (fld w 6 2) (fld w 3 3) (fld w 0 3))
  | 1 => row (bits w 1 5 == 0 && bits w 13 3 == 0) (.fround (fld w 22 4) (fld w 19 3) (fld w 16 3) (fld w 6 2) (fld w 0 1))
  | _ => .error .emulation

/-- Major 0x0E. -/
def decode0E (w : Nat) : Except Reject Instr :=
  match bits w 14 2 with
  | 0 => row (bits w 12 2 == 0) (.bext (fld w 22 4) (fld w 19 3) (fld w 16 3) (fld w 6 6) (fld w 0 6))
  | 1 => row (bits w 12 2 == 0) (.bextb (fld w 22 4) (fld w 19 3) (fld w 16 3) (fld w 6 6) (fld w 0 6))
  | 2 => row (bits w 12 2 == 0) (.bins (fld w 22 4) (fld w 19 3) (fld w 16 3) (fld w 6 6) (fld w 0 6))
  | _ => .error .emulation

/-- Major 0x10. -/
def decode10 (w : Nat) : Except Reject Instr :=
  row (true) (.br (fld w 22 4) (fld w 0 22))

/-- Major 0x11. -/
def decode11 (w : Nat) : Except Reject Instr :=
  row (true) (.call (fld w 22 4) (fld w 0 22))

/-- Major 0x12. -/
def decode12 (w : Nat) : Except Reject Instr :=
  match bits w 8 5 with
  | 0 => row (bits w 0 8 == 0 && bits w 13 3 == 0 && bits w 19 3 == 0) (.jr (fld w 22 4) (fld w 16 3))
  | 1 => row (bits w 0 8 == 0 && bits w 13 3 == 0 && bits w 19 3 == 0) (.ret (fld w 22 4) (fld w 16 3))
  | 2 => row (bits w 0 8 == 0 && bits w 13 3 == 0 && bits w 19 3 == 0) (.callr (fld w 22 4) (fld w 16 3))
  | _ => .error .emulation

/-- Major 0x13. -/
def decode13 (w : Nat) : Except Reject Instr :=
  row (bits w 16 3 == 0) (.loop (fld w 22 4) (fld w 19 3) (fld w 0 16))

/-- Major 0x14. -/
def decode14 (w : Nat) : Except Reject Instr :=
  match bits w 8 5 with
  | 0 => row (bits w 6 2 == 0) (.spawn (fld w 22 4) (fld w 19 3) (fld w 16 3) (fld w 13 3) (fld w 2 4) (fld w 0 2))
  | _ => .error .emulation

/-- Major 0x15. -/
def decode15 (w : Nat) : Except Reject Instr :=
  match bits w 8 5 with
  | 0 => row (bits w 0 8 == 0 && bits w 13 3 == 0 && bits w 19 3 == 0) (.join (fld w 22 4) (fld w 16 3))
  | 1 => row (bits w 0 8 == 0 && bits w 13 9 == 0) (.yield (fld w 22 4))
  | 2 => if bits w 0 1 == 0 then row (bits w 1 7 == 0 && bits w 13 9 == 0) (.exit (fld w 22 4))
      else row (bits w 1 7 == 0 && bits w 13 3 == 0 && bits w 19 3 == 0) (.exitCounter (fld w 22 4) (fld w 16 3))
  | 3 => row (bits w 0 8 == 0 && bits w 13 3 == 0 && bits w 19 3 == 0) (.go (fld w 22 4) (fld w 16 3))
  | 4 => row (bits w 0 8 == 0 && bits w 13 3 == 0 && bits w 19 3 == 0) (.goc (fld w 22 4) (fld w 16 3))
  | 5 => row (bits w 0 8 == 0 && bits w 13 6 == 0) (.self (fld w 22 4) (fld w 19 3))
  | 6 => row (bits w 0 8 == 0 && bits w 13 3 == 0) (.cancel (fld w 22 4) (fld w 19 3) (fld w 16 3))
  | _ => .error .emulation

/-- Major 0x16. -/
def decode16 (w : Nat) : Except Reject Instr :=
  match bits w 8 5 with
  | 0 => row (bits w 2 4 == 0) (.waitne (fld w 22 4) (fld w 19 3) (fld w 16 3) (fld w 13 3) (fld w 6 2) (fld w 0 2))
  | 1 => row (bits w 2 4 == 0) (.waiteq (fld w 22 4) (fld w 19 3) (fld w 16 3) (fld w 13 3) (fld w 6 2) (fld w 0 2))
  | _ => .error .emulation

/-- Major 0x18. -/
def decode18 (w : Nat) : Except Reject Instr :=
  row (true) (.ld (fld w 22 4) (fld w 19 3) (fld w 16 3) (fld w 13 3) (fld w 11 2) (fld w 7 4) (fld w 0 7))

/-- Major 0x19. -/
def decode19 (w : Nat) : Except Reject Instr :=
  row (true) (.st (fld w 22 4) (fld w 19 3) (fld w 16 3) (fld w 13 3) (fld w 11 2) (fld w 7 4) (fld w 0 7))

/-- Major 0x1A. -/
def decode1A (w : Nat) : Except Reject Instr :=
  row (true) (.ldx (fld w 22 4) (fld w 19 3) (fld w 16 3) (fld w 12 4) (fld w 9 3) (fld w 7 2) (fld w 3 4) (fld w 0 3))

/-- Major 0x1B. -/
def decode1B (w : Nat) : Except Reject Instr :=
  row (true) (.stx (fld w 22 4) (fld w 19 3) (fld w 16 3) (fld w 12 4) (fld w 9 3) (fld w 7 2) (fld w 3 4) (fld w 0 3))

/-- Major 0x1C. -/
def decode1C (w : Nat) : Except Reject Instr :=
  match bits w 12 4 with
  | 0 => row (bits w 3 4 == 0) (.ldfe (fld w 22 4) (fld w 19 3) (fld w 16 3) (fld w 9 3) (fld w 7 2) (fld w 0 3))
  | 1 => row (bits w 3 4 == 0) (.ldff (fld w 22 4) (fld w 19 3) (fld w 16 3) (fld w 9 3) (fld w 7 2) (fld w 0 3))
  | _ => .error .emulation

/-- Major 0x1D. -/
def decode1D (w : Nat) : Except Reject Instr :=
  match bits w 12 4 with
  | 0 => row (bits w 3 4 == 0) (.stf (fld w 22 4) (fld w 19 3) (fld w 16 3) (fld w 9 3) (fld w 7 2) (fld w 0 3))
  | 1 => row (true) (.ste (fld w 22 4) (fld w 19 3) (fld w 16 3) (fld w 9 3) (fld w 7 2) (fld w 3 4) (fld w 0 3))
  | _ => .error .emulation

/-- Major 0x1E. -/
def decode1E (w : Nat) : Except Reject Instr :=
  match bits w 8 5 with
  | 0 => row (bits w 4 2 == 0 && bits w 7 1 == 0) (.amoAdd (fld w 22 4) (fld w 19 3) (fld w 16 3) (fld w 13 3) (fld w 6 1) (fld w 2 2) (fld w 0 2))
  | 1 => row (bits w 4 2 == 0 && bits w 7 1 == 0) (.amoAnd (fld w 22 4) (fld w 19 3) (fld w 16 3) (fld w 13 3) (fld w 6 1) (fld w 2 2) (fld w 0 2))
  | 2 => row (bits w 4 2 == 0 && bits w 7 1 == 0) (.amoOr (fld w 22 4) (fld w 19 3) (fld w 16 3) (fld w 13 3) (fld w 6 1) (fld w 2 2) (fld w 0 2))
  | 3 => row (bits w 4 2 == 0 && bits w 7 1 == 0) (.amoXor (fld w 22 4) (fld w 19 3) (fld w 16 3) (fld w 13 3) (fld w 6 1) (fld w 2 2) (fld w 0 2))
  | 4 => row (bits w 4 2 == 0 && bits w 7 1 == 0) (.amoMin (fld w 22 4) (fld w 19 3) (fld w 16 3) (fld w 13 3) (fld w 6 1) (fld w 2 2) (fld w 0 2))
  | 5 => row (bits w 4 2 == 0 && bits w 7 1 == 0) (.amoMax (fld w 22 4) (fld w 19 3) (fld w 16 3) (fld w 13 3) (fld w 6 1) (fld w 2 2) (fld w 0 2))
  | 6 => row (bits w 4 2 == 0 && bits w 7 1 == 0) (.amoMinb (fld w 22 4) (fld w 19 3) (fld w 16 3) (fld w 13 3) (fld w 6 1) (fld w 2 2) (fld w 0 2))
  | 7 => row (bits w 4 2 == 0 && bits w 7 1 == 0) (.amoMaxb (fld w 22 4) (fld w 19 3) (fld w 16 3) (fld w 13 3) (fld w 6 1) (fld w 2 2) (fld w 0 2))
  | 8 => row (bits w 4 2 == 0 && bits w 7 1 == 0) (.amoSwap (fld w 22 4) (fld w 19 3) (fld w 16 3) (fld w 13 3) (fld w 6 1) (fld w 2 2) (fld w 0 2))
  | 9 => row (bits w 4 2 == 0 && bits w 7 1 == 0) (.amoCas (fld w 22 4) (fld w 19 3) (fld w 16 3) (fld w 13 3) (fld w 6 1) (fld w 2 2) (fld w 0 2))
  | 10 => row (bits w 4 2 == 0 && bits w 7 1 == 0) (.amoFadd (fld w 22 4) (fld w 19 3) (fld w 16 3) (fld w 13 3) (fld w 6 1) (fld w 2 2) (fld w 0 2))
  | _ => .error .emulation

/-- Major 0x1F. -/
def decode1F (w : Nat) : Except Reject Instr :=
  match bits w 8 5 with
  | 0 => row (bits w 4 4 == 0 && bits w 13 9 == 0) (.fence (fld w 22 4) (fld w 2 2) (fld w 0 2))
  | _ => .error .emulation

/-- Major 0x20. -/
def decode20 (w : Nat) : Except Reject Instr :=
  match bits w 8 5 with
  | 0 => row (bits w 2 4 == 0 && bits w 13 3 == 0) (.tkld (fld w 22 4) (fld w 19 3) (fld w 16 3) (fld w 6 2) (fld w 0 2))
  | 1 => row (bits w 3 5 == 0) (.tkred (fld w 22 4) (fld w 19 3) (fld w 16 3) (fld w 13 3) (fld w 0 3))
  | 2 => row (bits w 0 8 == 0 && bits w 13 3 == 0) (.tkdrop (fld w 22 4) (fld w 19 3) (fld w 16 3))
  | 3 => row (bits w 0 8 == 0 && bits w 13 3 == 0) (.tkstat (fld w 22 4) (fld w 19 3) (fld w 16 3))
  | _ => .error .emulation

/-- Major 0x21. -/
def decode21 (w : Nat) : Except Reject Instr :=
  match bits w 8 5 with
  | 0 => row (bits w 2 6 == 0 && bits w 19 3 == 0) (.mpost (fld w 22 4) (fld w 16 3) (fld w 13 3) (fld w 0 2))
  | 1 => row (bits w 0 8 == 0 && bits w 19 3 == 0) (.mexp (fld w 22 4) (fld w 16 3) (fld w 13 3))
  | 2 => row (bits w 2 6 == 0 && bits w 19 3 == 0) (.mwait (fld w 22 4) (fld w 16 3) (fld w 13 3) (fld w 0 2))
  | 3 => row (bits w 2 6 == 0 && bits w 13 3 == 0) (.mread (fld w 22 4) (fld w 19 3) (fld w 16 3) (fld w 0 2))
  | _ => .error .emulation

/-- Major 0x22. -/
def decode22 (w : Nat) : Except Reject Instr :=
  match bits w 8 5 with
  | 0 => row (bits w 2 6 == 0 && bits w 19 3 == 0) (.enq (fld w 22 4) (fld w 16 3) (fld w 13 3) (fld w 0 2))
  | 1 => row (bits w 2 6 == 0) (.deq (fld w 22 4) (fld w 19 3) (fld w 16 3) (fld w 13 3) (fld w 0 2))
  | 2 => row (bits w 0 8 == 0 && bits w 13 3 == 0) (.qlen (fld w 22 4) (fld w 19 3) (fld w 16 3))
  | 3 => if bits w 0 1 == 0 then row (bits w 1 7 == 0) (.qmake (fld w 22 4) (fld w 19 3) (fld w 16 3) (fld w 13 3))
      else row (bits w 1 7 == 0 && bits w 13 3 == 0 && bits w 19 3 == 0) (.qfree (fld w 22 4) (fld w 16 3))
  | _ => .error .emulation

/-- Major 0x23. -/
def decode23 (w : Nat) : Except Reject Instr :=
  match bits w 8 5 with
  | 0 => row (bits w 0 6 == 0) (.rmov (fld w 22 4) (fld w 19 3) (fld w 16 3) (fld w 13 3) (fld w 6 2))
  | 1 => row (bits w 0 6 == 0) (.rfill (fld w 22 4) (fld w 19 3) (fld w 16 3) (fld w 13 3) (fld w 6 2))
  | 2 => row (bits w 0 6 == 0) (.rcmp (fld w 22 4) (fld w 19 3) (fld w 16 3) (fld w 13 3) (fld w 6 2))
  | _ => .error .emulation

/-- Major 0x24. -/
def decode24 (w : Nat) : Except Reject Instr :=
  match bits w 9 4 with
  | 0 => row (bits w 13 3 == 0) (.lw (fld w 22 4) (fld w 19 3) (fld w 16 3) (fld w 8 1) (fld w 4 4) (fld w 3 1) (fld w 2 1) (fld w 0 2))
  | 1 => row (bits w 13 6 == 0) (.lswap (fld w 22 4) (fld w 19 3) (fld w 8 1) (fld w 4 4) (fld w 3 1) (fld w 2 1) (fld w 0 2))
  | 2 => row (bits w 13 3 == 0) (.lstream (fld w 22 4) (fld w 19 3) (fld w 16 3) (fld w 8 1) (fld w 4 4) (fld w 3 1) (fld w 2 1) (fld w 0 2))
  | 3 => row (bits w 13 6 == 0) (.ldrain (fld w 22 4) (fld w 19 3) (fld w 8 1) (fld w 4 4) (fld w 3 1) (fld w 2 1) (fld w 0 2))
  | 4 => row (bits w 13 3 == 0) (.lcfg (fld w 22 4) (fld w 19 3) (fld w 16 3) (fld w 8 1) (fld w 4 4) (fld w 3 1) (fld w 2 1) (fld w 0 2))
  | 5 => row (bits w 0 9 == 0) (.lrem (fld w 22 4) (fld w 19 3) (fld w 16 3) (fld w 13 3))
  | _ => .error .emulation

/-- Major 0x25. -/
def decode25 (w : Nat) : Except Reject Instr :=
  match bits w 9 4 with
  | 0 => row (bits w 13 3 == 0) (.tadd (fld w 22 4) (fld w 19 3) (fld w 16 3) (fld w 8 1) (fld w 4 4) (fld w 3 1) (fld w 2 1) (fld w 0 2))
  | 1 => row (bits w 13 3 == 0) (.tmul (fld w 22 4) (fld w 19 3) (fld w 16 3) (fld w 8 1) (fld w 4 4) (fld w 3 1) (fld w 2 1) (fld w 0 2))
  | 2 => row (bits w 13 3 == 0) (.tfma (fld w 22 4) (fld w 19 3) (fld w 16 3) (fld w 8 1) (fld w 4 4) (fld w 3 1) (fld w 2 1) (fld w 0 2))
  | 3 => row (bits w 13 3 == 0) (.tmax (fld w 22 4) (fld w 19 3) (fld w 16 3) (fld w 8 1) (fld w 4 4) (fld w 3 1) (fld w 2 1) (fld w 0 2))
  | 4 => row (bits w 13 3 == 0) (.tmin (fld w 22 4) (fld w 19 3) (fld w 16 3) (fld w 8 1) (fld w 4 4) (fld w 3 1) (fld w 2 1) (fld w 0 2))
  | 5 => row (bits w 13 3 == 0) (.texp2 (fld w 22 4) (fld w 19 3) (fld w 16 3) (fld w 8 1) (fld w 4 4) (fld w 3 1) (fld w 2 1) (fld w 0 2))
  | 6 => row (bits w 13 3 == 0) (.trcp (fld w 22 4) (fld w 19 3) (fld w 16 3) (fld w 8 1) (fld w 4 4) (fld w 3 1) (fld w 2 1) (fld w 0 2))
  | 7 => row (bits w 13 3 == 0) (.trsqrt (fld w 22 4) (fld w 19 3) (fld w 16 3) (fld w 8 1) (fld w 4 4) (fld w 3 1) (fld w 2 1) (fld w 0 2))
  | 8 => row (bits w 13 3 == 0) (.tcvt (fld w 22 4) (fld w 19 3) (fld w 16 3) (fld w 8 1) (fld w 4 4) (fld w 3 1) (fld w 2 1) (fld w 0 2))
  | 9 => row (true) (.tred (fld w 22 4) (fld w 19 3) (fld w 16 3) (fld w 13 3) (fld w 8 1) (fld w 4 4) (fld w 3 1) (fld w 2 1) (fld w 0 2))
  | 10 => row (bits w 13 3 == 0) (.tsel (fld w 22 4) (fld w 19 3) (fld w 16 3) (fld w 8 1) (fld w 4 4) (fld w 3 1) (fld w 2 1) (fld w 0 2))
  | 11 => row (bits w 13 3 == 0) (.ttrn (fld w 22 4) (fld w 19 3) (fld w 16 3) (fld w 8 1) (fld w 4 4) (fld w 3 1) (fld w 2 1) (fld w 0 2))
  | _ => .error .emulation

/-- Major 0x26. -/
def decode26 (w : Nat) : Except Reject Instr :=
  match bits w 9 4 with
  | 0 => row (bits w 13 3 == 0) (.cpy (fld w 22 4) (fld w 19 3) (fld w 16 3) (fld w 8 1) (fld w 4 4) (fld w 3 1) (fld w 2 1) (fld w 0 2))
  | 1 => row (bits w 13 3 == 0) (.cpyd (fld w 22 4) (fld w 19 3) (fld w 16 3) (fld w 8 1) (fld w 4 4) (fld w 3 1) (fld w 2 1) (fld w 0 2))
  | 2 => row (true) (.cwm (fld w 22 4) (fld w 19 3) (fld w 16 3) (fld w 13 3) (fld w 8 1) (fld w 4 4) (fld w 3 1) (fld w 2 1) (fld w 0 2))
  | 3 => row (bits w 13 3 == 0) (.chan (fld w 22 4) (fld w 19 3) (fld w 16 3) (fld w 8 1) (fld w 4 4) (fld w 3 1) (fld w 2 1) (fld w 0 2))
  | _ => .error .emulation

/-- Major 0x27. -/
def decode27 (w : Nat) : Except Reject Instr :=
  match bits w 9 4 with
  | 0 => row (true) (.scmc (fld w 22 4) (fld w 19 3) (fld w 16 3) (fld w 13 3) (fld w 8 1) (fld w 4 4) (fld w 3 1) (fld w 2 1) (fld w 0 2))
  | 1 => row (true) (.sld (fld w 22 4) (fld w 19 3) (fld w 16 3) (fld w 13 3) (fld w 8 1) (fld w 4 4) (fld w 3 1) (fld w 2 1) (fld w 0 2))
  | _ => .error .emulation

/-- Major 0x2B. -/
def decode2B (w : Nat) : Except Reject Instr :=
  match bits w 9 4 with
  | 0 => row (bits w 13 3 == 0) (.swpin (fld w 22 4) (fld w 19 3) (fld w 16 3) (fld w 8 1) (fld w 4 4) (fld w 3 1) (fld w 2 1) (fld w 0 2))
  | 1 => row (bits w 13 3 == 0) (.swpout (fld w 22 4) (fld w 19 3) (fld w 16 3) (fld w 8 1) (fld w 4 4) (fld w 3 1) (fld w 2 1) (fld w 0 2))
  | 2 => row (true) (.swpq (fld w 22 4) (fld w 19 3) (fld w 16 3) (fld w 13 3) (fld w 8 1) (fld w 4 4) (fld w 3 1) (fld w 2 1) (fld w 0 2))
  | _ => .error .emulation

/-- Major 0x28. -/
def decode28 (w : Nat) : Except Reject Instr :=
  match bits w 8 5 with
  | 0 => row (bits w 0 8 == 0 && bits w 13 3 == 0) (.gslot (fld w 22 4) (fld w 19 3) (fld w 16 3))
  | 1 => row (bits w 0 8 == 0) (.gset (fld w 22 4) (fld w 19 3) (fld w 16 3) (fld w 13 3))
  | 2 => row (bits w 0 8 == 0 && bits w 13 3 == 0 && bits w 19 3 == 0) (.gfree (fld w 22 4) (fld w 16 3))
  | _ => .error .emulation

/-- Major 0x29. -/
def decode29 (w : Nat) : Except Reject Instr :=
  match bits w 8 5 with
  | 0 => row (bits w 0 8 == 0 && bits w 13 3 == 0 && bits w 19 3 == 0) (.jwait (fld w 22 4) (fld w 16 3))
  | 1 => row (bits w 0 8 == 0 && bits w 13 3 == 0) (.jtest (fld w 22 4) (fld w 19 3) (fld w 16 3))
  | 2 => row (bits w 0 8 == 0 && bits w 13 3 == 0) (.jstat (fld w 22 4) (fld w 19 3) (fld w 16 3))
  | _ => .error .emulation

/-- Major 0x2A. -/
def decode2A (w : Nat) : Except Reject Instr :=
  match bits w 8 5 with
  | 0 => row (bits w 0 8 == 0) (.talloc (fld w 22 4) (fld w 19 3) (fld w 16 3) (fld w 13 3))
  | 1 => row (bits w 0 8 == 0 && bits w 13 3 == 0 && bits w 19 3 == 0) (.tfree (fld w 22 4) (fld w 16 3))
  | 2 => row (bits w 0 8 == 0) (.tdesc (fld w 22 4) (fld w 19 3) (fld w 16 3) (fld w 13 3))
  | 3 => row (bits w 1 7 == 0) (.tinfo (fld w 22 4) (fld w 19 3) (fld w 16 3) (fld w 13 3) (fld w 0 1))
  | _ => .error .emulation

/-- Major 0x2C. -/
def decode2C (w : Nat) : Except Reject Instr :=
  match bits w 8 5 with
  | 0 => row (bits w 0 8 == 0 && bits w 13 3 == 0) (.capmint (fld w 22 4) (fld w 19 3) (fld w 16 3))
  | 1 => row (bits w 0 8 == 0 && bits w 13 9 == 0) (.caprev (fld w 22 4))
  | _ => .error .emulation

/-- Major 0x2D. -/
def decode2D (w : Nat) : Except Reject Instr :=
  match bits w 8 5 with
  | 0 => row (bits w 0 8 == 0 && bits w 13 9 == 0) (.fin (fld w 22 4))
  | _ => .error .emulation

/-- Major 0x30. -/
def decode30 (w : Nat) : Except Reject Instr :=
  row (bits w 16 6 == 0) (.trap (fld w 22 4) (fld w 0 16))

/-- Major 0x31. -/
def decode31 (w : Nat) : Except Reject Instr :=
  if csrReadable (fld w 0 16) then row (bits w 16 3 == 0) (.csrr (fld w 22 4) (fld w 19 3) (fld w 0 16)) else .error .emulation

/-- Major 0x32. -/
def decode32 (w : Nat) : Except Reject Instr :=
  if csrReadable (fld w 0 16) then row (bits w 19 3 == 0) (.csrw (fld w 22 4) (fld w 16 3) (fld w 0 16)) else .error .emulation

/-- Major 0x33. -/
def decode33 (w : Nat) : Except Reject Instr :=
  match bits w 8 5 with
  | 0 => row (bits w 3 5 == 0 && bits w 13 3 == 0 && bits w 19 3 == 0) (.rft (fld w 22 4) (fld w 16 3) (fld w 0 3))
  | _ => .error .emulation

/-- Major 0x34. -/
def decode34 (w : Nat) : Except Reject Instr :=
  match bits w 8 5 with
  | 0 => if bits w 0 1 == 0 then row (bits w 1 7 == 0 && bits w 13 3 == 0 && bits w 19 3 == 0) (.cevict (fld w 22 4) (fld w 16 3))
      else row (bits w 1 7 == 0 && bits w 13 9 == 0) (.cevictSelf (fld w 22 4))
  | 1 => row (bits w 0 8 == 0 && bits w 13 3 == 0) (.cclaim (fld w 22 4) (fld w 19 3) (fld w 16 3))
  | 2 => row (bits w 0 8 == 0 && bits w 19 3 == 0) (.cpark (fld w 22 4) (fld w 16 3) (fld w 13 3))
  | _ => .error .emulation

/-- Major 0x35. -/
def decode35 (w : Nat) : Except Reject Instr :=
  match bits w 8 5 with
  | 0 => row (bits w 0 8 == 0 && bits w 13 3 == 0 && bits w 19 3 == 0) (.transit (fld w 22 4) (fld w 16 3))
  | 1 => row (bits w 0 8 == 0 && bits w 19 3 == 0) (.tlbinv (fld w 22 4) (fld w 16 3) (fld w 13 3))
  | 2 => row (bits w 0 8 == 0) (.gsw (fld w 22 4) (fld w 19 3) (fld w 16 3) (fld w 13 3))
  | _ => .error .emulation

/-- Major 0x36. -/
def decode36 (w : Nat) : Except Reject Instr :=
  match bits w 8 5 with
  | 0 => row (bits w 0 8 == 0 && bits w 13 9 == 0) (.nop (fld w 22 4))
  | 1 => row (bits w 0 8 == 0 && bits w 19 3 == 0) (.halt (fld w 22 4) (fld w 16 3) (fld w 13 3))
  | 2 => row (bits w 0 8 == 0 && bits w 13 3 == 0 && bits w 19 3 == 0) (.seal (fld w 22 4) (fld w 16 3))
  | _ => .error .emulation

/-- Major 0x3F. -/
def decode3F (w : Nat) : Except Reject Instr :=
  match bits w 24 2 with
  | 0 => row (true) (.hext (fld w 0 24))
  | 1 => row (true) (.hsched (fld w 0 24))
  | 2 => row (bits w 10 14 == 0) (.hmod (fld w 6 4) (fld w 5 1) (fld w 2 3) (fld w 1 1) (fld w 0 1))
  | _ => .error .illegal

/-- The allocated majors (R69). -/
def decodeMajor (w : Nat) : Except Reject Instr :=
  match bits w 26 6 with
  | 0x00 => decode00 w
  | 0x01 => decode01 w
  | 0x02 => decode02 w
  | 0x03 => decode03 w
  | 0x04 => decode04 w
  | 0x05 => decode05 w
  | 0x06 => decode06 w
  | 0x07 => decode07 w
  | 0x08 => decode08 w
  | 0x09 => decode09 w
  | 0x0A => decode0A w
  | 0x0B => decode0B w
  | 0x0C => decode0C w
  | 0x0D => decode0D w
  | 0x0E => decode0E w
  | 0x10 => decode10 w
  | 0x11 => decode11 w
  | 0x12 => decode12 w
  | 0x13 => decode13 w
  | 0x14 => decode14 w
  | 0x15 => decode15 w
  | 0x16 => decode16 w
  | 0x18 => decode18 w
  | 0x19 => decode19 w
  | 0x1A => decode1A w
  | 0x1B => decode1B w
  | 0x1C => decode1C w
  | 0x1D => decode1D w
  | 0x1E => decode1E w
  | 0x1F => decode1F w
  | 0x20 => decode20 w
  | 0x21 => decode21 w
  | 0x22 => decode22 w
  | 0x23 => decode23 w
  | 0x24 => decode24 w
  | 0x25 => decode25 w
  | 0x26 => decode26 w
  | 0x27 => decode27 w
  | 0x2B => decode2B w
  | 0x28 => decode28 w
  | 0x29 => decode29 w
  | 0x2A => decode2A w
  | 0x2C => decode2C w
  | 0x2D => decode2D w
  | 0x30 => decode30 w
  | 0x31 => decode31 w
  | 0x32 => decode32 w
  | 0x33 => decode33 w
  | 0x34 => decode34 w
  | 0x35 => decode35 w
  | 0x36 => decode36 w
  | 0x3F => decode3F w
  | _ => .error .emulation

/-- Majors 0x0F, 0x17, 0x2E, 0x2F and 0x37 to 0x3E are unallocated (R68 order 1). -/
def unallocated (m : Nat) : Bool :=
  m == 0x0F || m == 0x17 || m == 0x2E || m == 0x2F || (decide (0x37 ≤ m) && decide (m ≤ 0x3E))

/-- R68, in its order: an unallocated major, the guard `!q0`, an unassigned selector, then reserved fields and codes. -/
def decodeNat (w : Nat) : Except Reject Instr :=
  if unallocated (bits w 26 6) then .error .emulation
  else if bits w 26 6 != 0x3F && bits w 22 4 == 8 then .error .illegal
  else decodeMajor w

/-- The decoder. -/
def decodeWord (w : BitVec 32) : Except Reject Instr := decodeNat w.toNat

/-- The instruction the decoder reads from a word of the opcode table's numbering: every instruction is one word. -/
def decodeTableWord (_nbits w : Nat) : Option Instr :=
  match decodeWord (BitVec.ofNat 32 w) with
  | .ok i => some i
  | .error _ => none

/-- A field put at bit `lo`. -/
def put {n : Nat} (x : BitVec n) (lo : Nat) : Nat := x.toNat * 2 ^ lo

/-- The fixed bits of a row and its fields. -/
def word (fixed : Nat) : List Nat → Nat
  | [] => fixed
  | x :: xs => x + word fixed xs

/-- The word of an instruction as a number, from the encoding tables: a sum of its major, selector and fields. An event
has none. -/
def encodeNat : Instr → Option Nat
  | .add g d a b w r => some (word 0x00000000 [put g 22, put d 19, put a 16, put b 13, put w 6, put r 0])
  | .sub g d a b w r => some (word 0x00000100 [put g 22, put d 19, put a 16, put b 13, put w 6, put r 0])
  | .and g d a b w => some (word 0x00000200 [put g 22, put d 19, put a 16, put b 13, put w 6])
  | .or g d a b w => some (word 0x00000300 [put g 22, put d 19, put a 16, put b 13, put w 6])
  | .xor g d a b w => some (word 0x00000400 [put g 22, put d 19, put a 16, put b 13, put w 6])
  | .andn g d a b w => some (word 0x00000500 [put g 22, put d 19, put a 16, put b 13, put w 6])
  | .orn g d a b w => some (word 0x00000600 [put g 22, put d 19, put a 16, put b 13, put w 6])
  | .xnor g d a b w => some (word 0x00000700 [put g 22, put d 19, put a 16, put b 13, put w 6])
  | .shl g d a b w r => some (word 0x00000800 [put g 22, put d 19, put a 16, put b 13, put w 6, put r 0])
  | .shr g d a b w => some (word 0x00000900 [put g 22, put d 19, put a 16, put b 13, put w 6])
  | .sar g d a b w => some (word 0x00000A00 [put g 22, put d 19, put a 16, put b 13, put w 6])
  | .rol g d a b w => some (word 0x00000B00 [put g 22, put d 19, put a 16, put b 13, put w 6])
  | .ror g d a b w => some (word 0x00000C00 [put g 22, put d 19, put a 16, put b 13, put w 6])
  | .min g d a b w => some (word 0x00000D00 [put g 22, put d 19, put a 16, put b 13, put w 6])
  | .max g d a b w => some (word 0x00000E00 [put g 22, put d 19, put a 16, put b 13, put w 6])
  | .minb g d a b w => some (word 0x00000F00 [put g 22, put d 19, put a 16, put b 13, put w 6])
  | .maxb g d a b w => some (word 0x00001000 [put g 22, put d 19, put a 16, put b 13, put w 6])
  | .mul g d a b w r => some (word 0x00001100 [put g 22, put d 19, put a 16, put b 13, put w 6, put r 0])
  | .mulh g d a b w => some (word 0x00001200 [put g 22, put d 19, put a 16, put b 13, put w 6])
  | .mulhb g d a b w => some (word 0x00001300 [put g 22, put d 19, put a 16, put b 13, put w 6])
  | .div g d a b w => some (word 0x00001400 [put g 22, put d 19, put a 16, put b 13, put w 6])
  | .divb g d a b w => some (word 0x00001500 [put g 22, put d 19, put a 16, put b 13, put w 6])
  | .rem g d a b w => some (word 0x00001600 [put g 22, put d 19, put a 16, put b 13, put w 6])
  | .neg g d a w r => some (word 0x00001700 [put g 22, put d 19, put a 16, put w 6, put r 0])
  | .remb g d a b w => some (word 0x00001800 [put g 22, put d 19, put a 16, put b 13, put w 6])
  | .clz g d a w => some (word 0x00001900 [put g 22, put d 19, put a 16, put w 6])
  | .ctz g d a w => some (word 0x00001A00 [put g 22, put d 19, put a 16, put w 6])
  | .popc g d a w => some (word 0x00001B00 [put g 22, put d 19, put a 16, put w 6])
  | .bswap g d a w => some (word 0x00001C00 [put g 22, put d 19, put a 16, put w 6])
  | .mov g d a => some (word 0x00001D00 [put g 22, put d 19, put a 16])
  | .abs g d a w r => some (word 0x00001E00 [put g 22, put d 19, put a 16, put w 6, put r 0])
  | .sext g d a w => some (word 0x00001F00 [put g 22, put d 19, put a 16, put w 6])
  | .addi g d a i => some (word 0x04000000 [put g 22, put d 19, put a 16, put i 0])
  | .andi g d a i => some (word 0x08000000 [put g 22, put d 19, put a 16, put i 0])
  | .ori g d a i => some (word 0x0C000000 [put g 22, put d 19, put a 16, put i 0])
  | .xori g d a i => some (word 0x10000000 [put g 22, put d 19, put a 16, put i 0])
  | .shli g d a w k => some (word 0x14000000 [put g 22, put d 19, put a 16, put w 12, put k 0])
  | .shri g d a w k => some (word 0x14004000 [put g 22, put d 19, put a 16, put w 12, put k 0])
  | .sari g d a w k => some (word 0x14008000 [put g 22, put d 19, put a 16, put w 12, put k 0])
  | .roli g d a w k => some (word 0x1400C000 [put g 22, put d 19, put a 16, put w 12, put k 0])
  | .movi g d i => some (word 0x18000000 [put g 22, put d 19, put i 0])
  | .movh g d p i => some (word 0x1C000000 [put g 22, put d 19, put p 16, put i 0])
  | .cmp g d a b c w l => some (word 0x20000000 [put g 22, put d 19, put a 16, put b 13, put c 8, put w 6, put l 0])
  | .cmpi g d a c i => some (word 0x24000000 [put g 22, put d 19, put a 16, put c 12, put i 0])
  | .qand g d a b => some (word 0x28000000 [put g 22, put d 19, put a 16, put b 13])
  | .qor g d a b => some (word 0x28000100 [put g 22, put d 19, put a 16, put b 13])
  | .qxor g d a b => some (word 0x28000200 [put g 22, put d 19, put a 16, put b 13])
  | .qnot g d a => some (word 0x28000300 [put g 22, put d 19, put a 16])
  | .qmov g d a => some (word 0x28000400 [put g 22, put d 19, put a 16])
  | .qset g d i => some (word 0x28000500 [put g 22, put d 19, put i 0])
  | .qany g d a w => some (word 0x28000600 [put g 22, put d 19, put a 16, put w 6])
  | .qall g d a w => some (word 0x28000700 [put g 22, put d 19, put a 16, put w 6])
  | .qtog g d i => some (word 0x28000800 [put g 22, put d 19, put i 0])
  | .gtoq g d a => some (word 0x28000900 [put g 22, put d 19, put a 16])
  | .vadd g d a b w => some (word 0x2C000000 [put g 22, put d 19, put a 16, put b 13, put w 6])
  | .vsub g d a b w => some (word 0x2C000100 [put g 22, put d 19, put a 16, put b 13, put w 6])
  | .vadds g d a b w u => some (word 0x2C000200 [put g 22, put d 19, put a 16, put b 13, put w 6, put u 0])
  | .vsubs g d a b w u => some (word 0x2C000300 [put g 22, put d 19, put a 16, put b 13, put w 6, put u 0])
  | .vmul g d a b w u => some (word 0x2C000400 [put g 22, put d 19, put a 16, put b 13, put w 6, put u 0])
  | .vmin g d a b w u => some (word 0x2C000500 [put g 22, put d 19, put a 16, put b 13, put w 6, put u 0])
  | .vmax g d a b w u => some (word 0x2C000600 [put g 22, put d 19, put a 16, put b 13, put w 6, put u 0])
  | .vavg g d a b w u => some (word 0x2C000700 [put g 22, put d 19, put a 16, put b 13, put w 6, put u 0])
  | .vshl g d a b w => some (word 0x2C000800 [put g 22, put d 19, put a 16, put b 13, put w 6])
  | .vshr g d a b w => some (word 0x2C000900 [put g 22, put d 19, put a 16, put b 13, put w 6])
  | .vsar g d a b w => some (word 0x2C000A00 [put g 22, put d 19, put a 16, put b 13, put w 6])
  | .vsel g d a b w ss => some (word 0x2C000B00 [put g 22, put d 19, put a 16, put b 13, put w 6, put ss 2])
  | .vshuf g d a b w => some (word 0x2C000C00 [put g 22, put d 19, put a 16, put b 13, put w 6])
  | .vpack g d a b w u => some (word 0x2C000D00 [put g 22, put d 19, put a 16, put b 13, put w 6, put u 0])
  | .vunpk g d a w h => some (word 0x2C000E00 [put g 22, put d 19, put a 16, put w 6, put h 1])
  | .vdot g d a b w u => some (word 0x2C000F00 [put g 22, put d 19, put a 16, put b 13, put w 6, put u 0])
  | .vsum g d a w u => some (word 0x2C001000 [put g 22, put d 19, put a 16, put w 6, put u 0])
  | .fadd g d a b w x => some (word 0x30000000 [put g 22, put d 19, put a 16, put b 13, put w 6, put x 0])
  | .fsub g d a b w x => some (word 0x30000100 [put g 22, put d 19, put a 16, put b 13, put w 6, put x 0])
  | .fmul g d a b w x => some (word 0x30000200 [put g 22, put d 19, put a 16, put b 13, put w 6, put x 0])
  | .fdiv g d a b w x => some (word 0x30000300 [put g 22, put d 19, put a 16, put b 13, put w 6, put x 0])
  | .fsqrt g d a w x => some (word 0x30000400 [put g 22, put d 19, put a 16, put w 6, put x 0])
  | .fmin g d a b w x => some (word 0x30000500 [put g 22, put d 19, put a 16, put b 13, put w 6, put x 0])
  | .fmax g d a b w x => some (word 0x30000600 [put g 22, put d 19, put a 16, put b 13, put w 6, put x 0])
  | .fma g d a b w x => some (word 0x30000700 [put g 22, put d 19, put a 16, put b 13, put w 6, put x 0])
  | .fcmp g d a b w c x => some (word 0x30000800 [put g 22, put d 19, put a 16, put b 13, put w 6, put c 1, put x 0])
  | .fcvt g d a l ss t => some (word 0x34000000 [put g 22, put d 19, put a 16, put l 6, put ss 3, put t 0])
  | .fround g d a w x => some (word 0x34000100 [put g 22, put d 19, put a 16, put w 6, put x 0])
  | .bext g d a p n => some (word 0x38000000 [put g 22, put d 19, put a 16, put p 6, put n 0])
  | .bextb g d a p n => some (word 0x38004000 [put g 22, put d 19, put a 16, put p 6, put n 0])
  | .bins g d a p n => some (word 0x38008000 [put g 22, put d 19, put a 16, put p 6, put n 0])
  | .br g o => some (word 0x40000000 [put g 22, put o 0])
  | .call g o => some (word 0x44000000 [put g 22, put o 0])
  | .jr g a => some (word 0x48000000 [put g 22, put a 16])
  | .ret g a => some (word 0x48000100 [put g 22, put a 16])
  | .callr g a => some (word 0x48000200 [put g 22, put a 16])
  | .loop g d o => some (word 0x4C000000 [put g 22, put d 19, put o 0])
  | .spawn g d a b p ss => some (word 0x50000000 [put g 22, put d 19, put a 16, put b 13, put p 2, put ss 0])
  | .join g a => some (word 0x54000000 [put g 22, put a 16])
  | .yield g => some (word 0x54000100 [put g 22])
  | .exit g => some (word 0x54000200 [put g 22])
  | .exitCounter g a => some (word 0x54000201 [put g 22, put a 16])
  | .go g a => some (word 0x54000300 [put g 22, put a 16])
  | .goc g a => some (word 0x54000400 [put g 22, put a 16])
  | .self g d => some (word 0x54000500 [put g 22, put d 19])
  | .cancel g d a => some (word 0x54000600 [put g 22, put d 19, put a 16])
  | .waitne g d a b w c => some (word 0x58000000 [put g 22, put d 19, put a 16, put b 13, put w 6, put c 0])
  | .waiteq g d a b w c => some (word 0x58000100 [put g 22, put d 19, put a 16, put b 13, put w 6, put c 0])
  | .ld g d a z c l o => some (word 0x60000000 [put g 22, put d 19, put a 16, put z 13, put c 11, put l 7, put o 0])
  | .st g d a z c l o => some (word 0x64000000 [put g 22, put d 19, put a 16, put z 13, put c 11, put l 7, put o 0])
  | .ldx g d a t z c l o => some (word 0x68000000 [put g 22, put d 19, put a 16, put t 12, put z 9, put c 7, put l 3, put o 0])
  | .stx g d a t z c l o => some (word 0x6C000000 [put g 22, put d 19, put a 16, put t 12, put z 9, put c 7, put l 3, put o 0])
  | .ldfe g d a z c o => some (word 0x70000000 [put g 22, put d 19, put a 16, put z 9, put c 7, put o 0])
  | .ldff g d a z c o => some (word 0x70001000 [put g 22, put d 19, put a 16, put z 9, put c 7, put o 0])
  | .stf g d a z c o => some (word 0x74000000 [put g 22, put d 19, put a 16, put z 9, put c 7, put o 0])
  | .ste g d a z c l o => some (word 0x74001000 [put g 22, put d 19, put a 16, put z 9, put c 7, put l 3, put o 0])
  | .amoAdd g d a b w o c => some (word 0x78000000 [put g 22, put d 19, put a 16, put b 13, put w 6, put o 2, put c 0])
  | .amoAnd g d a b w o c => some (word 0x78000100 [put g 22, put d 19, put a 16, put b 13, put w 6, put o 2, put c 0])
  | .amoOr g d a b w o c => some (word 0x78000200 [put g 22, put d 19, put a 16, put b 13, put w 6, put o 2, put c 0])
  | .amoXor g d a b w o c => some (word 0x78000300 [put g 22, put d 19, put a 16, put b 13, put w 6, put o 2, put c 0])
  | .amoMin g d a b w o c => some (word 0x78000400 [put g 22, put d 19, put a 16, put b 13, put w 6, put o 2, put c 0])
  | .amoMax g d a b w o c => some (word 0x78000500 [put g 22, put d 19, put a 16, put b 13, put w 6, put o 2, put c 0])
  | .amoMinb g d a b w o c => some (word 0x78000600 [put g 22, put d 19, put a 16, put b 13, put w 6, put o 2, put c 0])
  | .amoMaxb g d a b w o c => some (word 0x78000700 [put g 22, put d 19, put a 16, put b 13, put w 6, put o 2, put c 0])
  | .amoSwap g d a b w o c => some (word 0x78000800 [put g 22, put d 19, put a 16, put b 13, put w 6, put o 2, put c 0])
  | .amoCas g d a b w o c => some (word 0x78000900 [put g 22, put d 19, put a 16, put b 13, put w 6, put o 2, put c 0])
  | .amoFadd g d a b w o c => some (word 0x78000A00 [put g 22, put d 19, put a 16, put b 13, put w 6, put o 2, put c 0])
  | .fence g k c => some (word 0x7C000000 [put g 22, put k 2, put c 0])
  | .tkld g d a w c => some (word 0x80000000 [put g 22, put d 19, put a 16, put w 6, put c 0])
  | .tkred g d a b p => some (word 0x80000100 [put g 22, put d 19, put a 16, put b 13, put p 0])
  | .tkdrop g d a => some (word 0x80000200 [put g 22, put d 19, put a 16])
  | .tkstat g d a => some (word 0x80000300 [put g 22, put d 19, put a 16])
  | .mpost g a b c => some (word 0x84000000 [put g 22, put a 16, put b 13, put c 0])
  | .mexp g a b => some (word 0x84000100 [put g 22, put a 16, put b 13])
  | .mwait g a b c => some (word 0x84000200 [put g 22, put a 16, put b 13, put c 0])
  | .mread g d a c => some (word 0x84000300 [put g 22, put d 19, put a 16, put c 0])
  | .enq g a b c => some (word 0x88000000 [put g 22, put a 16, put b 13, put c 0])
  | .deq g d a aq c => some (word 0x88000100 [put g 22, put d 19, put a 16, put aq 13, put c 0])
  | .qlen g d a => some (word 0x88000200 [put g 22, put d 19, put a 16])
  | .qmake g d a b => some (word 0x88000300 [put g 22, put d 19, put a 16, put b 13])
  | .qfree g a => some (word 0x88000301 [put g 22, put a 16])
  | .rmov g d a b w => some (word 0x8C000000 [put g 22, put d 19, put a 16, put b 13, put w 6])
  | .rfill g d a b w => some (word 0x8C000100 [put g 22, put d 19, put a 16, put b 13, put w 6])
  | .rcmp g d a b w => some (word 0x8C000200 [put g 22, put d 19, put a 16, put b 13, put w 6])
  | .lw g d a x ss aq r c => some (word 0x90000000 [put g 22, put d 19, put a 16, put x 8, put ss 4, put aq 3, put r 2, put c 0])
  | .lswap g d x ss aq r c => some (word 0x90000200 [put g 22, put d 19, put x 8, put ss 4, put aq 3, put r 2, put c 0])
  | .lstream g d a x ss aq r c => some (word 0x90000400 [put g 22, put d 19, put a 16, put x 8, put ss 4, put aq 3, put r 2, put c 0])
  | .ldrain g d x ss aq r c => some (word 0x90000600 [put g 22, put d 19, put x 8, put ss 4, put aq 3, put r 2, put c 0])
  | .lcfg g d a x ss aq r c => some (word 0x90000800 [put g 22, put d 19, put a 16, put x 8, put ss 4, put aq 3, put r 2, put c 0])
  | .lrem g d a b => some (word 0x90000A00 [put g 22, put d 19, put a 16, put b 13])
  | .tadd g d a x ss aq r c => some (word 0x94000000 [put g 22, put d 19, put a 16, put x 8, put ss 4, put aq 3, put r 2, put c 0])
  | .tmul g d a x ss aq r c => some (word 0x94000200 [put g 22, put d 19, put a 16, put x 8, put ss 4, put aq 3, put r 2, put c 0])
  | .tfma g d a x ss aq r c => some (word 0x94000400 [put g 22, put d 19, put a 16, put x 8, put ss 4, put aq 3, put r 2, put c 0])
  | .tmax g d a x ss aq r c => some (word 0x94000600 [put g 22, put d 19, put a 16, put x 8, put ss 4, put aq 3, put r 2, put c 0])
  | .tmin g d a x ss aq r c => some (word 0x94000800 [put g 22, put d 19, put a 16, put x 8, put ss 4, put aq 3, put r 2, put c 0])
  | .texp2 g d a x ss aq r c => some (word 0x94000A00 [put g 22, put d 19, put a 16, put x 8, put ss 4, put aq 3, put r 2, put c 0])
  | .trcp g d a x ss aq r c => some (word 0x94000C00 [put g 22, put d 19, put a 16, put x 8, put ss 4, put aq 3, put r 2, put c 0])
  | .trsqrt g d a x ss aq r c => some (word 0x94000E00 [put g 22, put d 19, put a 16, put x 8, put ss 4, put aq 3, put r 2, put c 0])
  | .tcvt g d a x ss aq r c => some (word 0x94001000 [put g 22, put d 19, put a 16, put x 8, put ss 4, put aq 3, put r 2, put c 0])
  | .tred g d a b x ss aq r c => some (word 0x94001200 [put g 22, put d 19, put a 16, put b 13, put x 8, put ss 4, put aq 3, put r 2, put c 0])
  | .tsel g d a x ss aq r c => some (word 0x94001400 [put g 22, put d 19, put a 16, put x 8, put ss 4, put aq 3, put r 2, put c 0])
  | .ttrn g d a x ss aq r c => some (word 0x94001600 [put g 22, put d 19, put a 16, put x 8, put ss 4, put aq 3, put r 2, put c 0])
  | .cpy g d a x ss aq r c => some (word 0x98000000 [put g 22, put d 19, put a 16, put x 8, put ss 4, put aq 3, put r 2, put c 0])
  | .cpyd g d a x ss aq r c => some (word 0x98000200 [put g 22, put d 19, put a 16, put x 8, put ss 4, put aq 3, put r 2, put c 0])
  | .cwm g d a b x ss aq r c => some (word 0x98000400 [put g 22, put d 19, put a 16, put b 13, put x 8, put ss 4, put aq 3, put r 2, put c 0])
  | .chan g d a x ss aq r c => some (word 0x98000600 [put g 22, put d 19, put a 16, put x 8, put ss 4, put aq 3, put r 2, put c 0])
  | .scmc g d a b x ss aq r c => some (word 0x9C000000 [put g 22, put d 19, put a 16, put b 13, put x 8, put ss 4, put aq 3, put r 2, put c 0])
  | .sld g d a b x ss aq r c => some (word 0x9C000200 [put g 22, put d 19, put a 16, put b 13, put x 8, put ss 4, put aq 3, put r 2, put c 0])
  | .swpin g d a x ss aq r c => some (word 0xAC000000 [put g 22, put d 19, put a 16, put x 8, put ss 4, put aq 3, put r 2, put c 0])
  | .swpout g d a x ss aq r c => some (word 0xAC000200 [put g 22, put d 19, put a 16, put x 8, put ss 4, put aq 3, put r 2, put c 0])
  | .swpq g d a b x ss aq r c => some (word 0xAC000400 [put g 22, put d 19, put a 16, put b 13, put x 8, put ss 4, put aq 3, put r 2, put c 0])
  | .gslot g d a => some (word 0xA0000000 [put g 22, put d 19, put a 16])
  | .gset g d a b => some (word 0xA0000100 [put g 22, put d 19, put a 16, put b 13])
  | .gfree g a => some (word 0xA0000200 [put g 22, put a 16])
  | .jwait g a => some (word 0xA4000000 [put g 22, put a 16])
  | .jtest g d a => some (word 0xA4000100 [put g 22, put d 19, put a 16])
  | .jstat g d a => some (word 0xA4000200 [put g 22, put d 19, put a 16])
  | .talloc g d a b => some (word 0xA8000000 [put g 22, put d 19, put a 16, put b 13])
  | .tfree g a => some (word 0xA8000100 [put g 22, put a 16])
  | .tdesc g d a b => some (word 0xA8000200 [put g 22, put d 19, put a 16, put b 13])
  | .tinfo g d a b m => some (word 0xA8000300 [put g 22, put d 19, put a 16, put b 13, put m 0])
  | .capmint g d a => some (word 0xB0000000 [put g 22, put d 19, put a 16])
  | .caprev g => some (word 0xB0000100 [put g 22])
  | .fin g => some (word 0xB4000000 [put g 22])
  | .trap g i => some (word 0xC0000000 [put g 22, put i 0])
  | .csrr g d n => some (word 0xC4000000 [put g 22, put d 19, put n 0])
  | .csrw g a n => some (word 0xC8000000 [put g 22, put a 16, put n 0])
  | .rft g a f => some (word 0xCC000000 [put g 22, put a 16, put f 0])
  | .cevictSelf g => some (word 0xD0000001 [put g 22])
  | .cevict g a => some (word 0xD0000000 [put g 22, put a 16])
  | .cclaim g d a => some (word 0xD0000100 [put g 22, put d 19, put a 16])
  | .cpark g a b => some (word 0xD0000200 [put g 22, put a 16, put b 13])
  | .transit g a => some (word 0xD4000000 [put g 22, put a 16])
  | .tlbinv g a b => some (word 0xD4000100 [put g 22, put a 16, put b 13])
  | .gsw g d a b => some (word 0xD4000200 [put g 22, put d 19, put a 16, put b 13])
  | .nop g => some (word 0xD8000000 [put g 22])
  | .halt g a b => some (word 0xD8000100 [put g 22, put a 16, put b 13])
  | .seal g a => some (word 0xD8000200 [put g 22, put a 16])
  | .hext p => some (word 0xFC000000 [put p 0])
  | .hsched c => some (word 0xFD000000 [put c 0])
  | .hmod l v r k n => some (word 0xFE000000 [put l 6, put v 5, put r 2, put k 1, put n 0])
  | .fmodeWrite .. | .fflagsWrite .. | .fqHeadWrite .. | .ctxpoolBaseWrite .. | .ctxpoolLinesWrite .. | .map ..
  | .unmap .. | .protect .. | .grantTake .. | .grantGiveBack .. | .pushmask .. | .killjob .. | .swapallot ..
  | .counterTake .. | .counterGiveBack .. | .write .. | .read .. | .launch .. | .push .. | .post ..
  | .tenantCreate .. | .tenantTearDown .. | .tenantStartSupervisor .. | .gangmap .. | .gswitch .. | .gresume ..
  | .hostHalt .. | .hostHaltResume .. | .lineResume .. | .lineKill .. | .diemapRead .. | .diemapRemap ..
  | .diemapOffline .. | .service .. | .featuresRead .. | .featuresAccept .. | .checkpointModuleSave ..
  | .checkpointModuleRestore .. | .checkpointTenantSave .. | .checkpointTenantRestore .. | .bind .. | .attest ..
  | .boot .. | .clockReduction | .supplyFaultShutdown | .resultArrival .. | .storeAcknowledgement ..
  | .sweptStoreAck .. | .deferredMemoryError .. | .slotFill .. | .quantumExpiry .. | .cl1Eviction ..
  | .cl2Eviction .. | .cl2Promotion .. | .readyListFill .. | .readyListForcedFill .. | .fillRequest ..
  | .steal .. | .jobCompletion .. | .migrationArrival .. | .wake .. | .mailboxPost .. | .mailboxExpectation ..
  | .queuePush .. | .queuePushNack .. | .queueResidencyChange .. | .ticketFetchReturn ..
  | .ticketFetchFailure .. | .handlerCreation .. | .directoryMessage .. | .tableWalk .. | .invalidationMarker ..
  | .commandStart .. | .commandFault .. | .commandCompletion .. | .stagingDelivery .. | .stagingRowWrite ..
  | .copySegment .. | .swapOutImageWritten .. | .swapInFrameGrant .. | .pageLanding .. | .flashReadError ..
  | .packetReroute .. | .remapPhaseCompletion | .dieLost .. | .fabricDataFrame .. | .fabricAck ..
  | .transportNack .. | .deviceNack .. | .heartbeat .. | .heartbeatSend .. | .retransmission ..
  | .flowFailure .. | .switchControl .. | .meridianMarker .. | .switchPhaseCompletion ..
  | .resumePhaseCompletion .. | .transitMarker .. | .notAnInstructionWord .. | .remapAbandoned => none

/-- The encoder. -/
def encode (i : Instr) : Option (BitVec 32) := (encodeNat i).map (BitVec.ofNat 32)

end Sys2Proof
end

