-- ==== Sys2Proof/Config.lean ====
section
/-! DEFINITION. Config.lean: who moves in a step, and the free values: what the spec leaves to the device, to the order
of independent agents, or open. None has a body, so no proof can see a value. -/

namespace Sys2Proof

/-- One turn of the machine: an issue cycle of a core (R120), or an event of the opcode table. -/
inductive Turn where
  | cycle (core : Nat)
  | event (i : Instr)
  deriving DecidableEq, Repr, Inhabited

namespace Config

/-- The turn that comes next where the agenda names none: any agent of the module or outside it. -/
opaque turn : Nat → Turn

/-- A choice the spec leaves to the device (R6), where the tape names none; each use reduces it to its closed set. -/
opaque choice : Nat → Nat

/-- A value the spec does not state. -/
opaque freeWord : Nat → Word

/-- The ML-DSA-44 public key of the key pair that a seed generates (R487, FIPS 204). -/
opaque identityKey : BitVec 256 → List (BitVec 8)

/-- The ML-DSA-44 signature, under the key pair of a seed, over the SHA3-256 digest of some bytes (R487, FIPS 204). -/
opaque signature : BitVec 256 → List (BitVec 8) → List (BitVec 8)

end Config

end Sys2Proof
end

