-- ==== Sys2Proof/Machine/State.lean ====
section
/-! DEFINITION. Machine/State.lean: the state of one GX8 module, all plain data, and the state after reset. Threads'
context lines, cores, clusters, slices, dies, tenants, memory, packets in flight, the host port and the fabric. -/

namespace Sys2Proof.Machine

/-- A sparse table: keys rising, and no entry equal to the default its reader names. -/
abbrev Tab (α : Type) := List (Nat × α)

/-! ### The context line (R8) -/

/-- The architectural state of a thread (R8 to R36); reserved bits read as zero and are not held. -/
structure Line where
  g      : Vector Word 8
  pc     : BitVec 48
  rmode  : BitVec 2
  tlvl   : BitVec 2
  tfb    : Bool
  fen    : BitVec 5
  q      : Vector Byte 8
  wait   : Word
  tag    : Vector Byte 8
  tenant : BitVec 8
  job    : BitVec 16
  prio   : BitVec 4
  sdom   : BitVec 2
  hnd    : Bool
  fin    : Bool
  root   : Bool
  pend   : Byte
  lacnt  : BitVec 4
  laopen : Bool
  hcnt   : BitVec 2
  hpay   : BitVec 48
  fcode  : Byte
  fflg   : BitVec 5
  tdata  : BitVec 48
  lver   : BitVec 32
  hwin   : BitVec 32
  deriving DecidableEq, Repr

/-- A new line before its creator supplies fields: every field zero, q0 = 0xFF (R8, R9). -/
def Line.zero : Line where
  g := Vector.replicate 8 0
  pc := 0
  rmode := 0
  tlvl := 0
  tfb := false
  fen := 0
  q := (Vector.replicate 8 0).set 0 0xFF
  wait := 0
  tag := Vector.replicate 8 0
  tenant := 0
  job := 0
  prio := 0
  sdom := 0
  hnd := false
  fin := false
  root := false
  pend := 0
  lacnt := 0
  laopen := false
  hcnt := 0
  hpay := 0
  fcode := 0
  fflg := 0
  tdata := 0
  lver := 0
  hwin := 0

/-- Where the one live copy of a line is (R124). The home directory's STATE is this place (R433). -/
inductive Place where
  | slot (core slot : Nat)
  | cl1 (core : Nat)
  | cl2 (cl : Nat)
  | dram
  | flight (core : Nat)
  | saved (core : Nat)
  /-- on its way to, or on, another member (R447); `saved` when a gang switch has swept its packet (R462). -/
  | away (vmod : Nat) (saved : Bool)
  deriving DecidableEq, Repr

/-- An error found after issue (R404): the register of a failed read, the address, and the virtual die when the access met a lost die
(R443). -/
structure LateError where
  reg  : Option Reg
  va   : Nat
  lost : Option Nat
  deriving DecidableEq, Repr

/-- What an instruction that waits with kind 11 waits for (R32): every PEND bit clear and every store performed (R24, R221, R143,
R165, R389); every store performed (R162, R419); every earlier access performed (R240); every earlier read performed (R252). -/
inductive Drain where
  | all
  | stores
  | accesses
  | reads
  deriving DecidableEq, Repr

/-- A live line: its content, its place, its directory entry and the core state that goes with it. While `place` is
`dram` the content is the image in memory, and of `line` only what no image can change is read: the trap level (R395). -/
structure LiveLine where
  tenant  : Nat
  addr    : Nat
  place   : Place
  line    : Line
  /-- CLM and HOLDER of the directory entry (R433). -/
  clm     : Bool
  holder  : Nat
  /-- A `cevict` or claim wants the line in its DRAM image (R407, R420). -/
  pull    : Bool
  /-- The claim's VER increment is due once STATE is 1 (R434). -/
  verDue  : Bool
  /-- Stores not yet performed, and what a kind-11 wait of the line waits for (R32). -/
  stores  : Nat
  drain   : Drain
  /-- Errors the line still has to take, oldest first (R404). -/
  derr    : List LateError
  /-- Turns still to forfeit, and the line's use of the normaliser (R45). -/
  forfeit : Nat
  norm    : Bool
  normWait : Bool
  /-- Words issued since the line entered its slot (R123). -/
  count   : Nat
  /-- Cycles of its core still to pass before it may issue again (R120). -/
  cool    : Nat
  /-- The tick of its last issue (R126). -/
  last    : Nat
  /-- Slot fills that passed it over in its core and in its cluster (R128). -/
  passed  : Nat
  passedCl : Nat
  /-- The cluster whose CL2 last held it (R129). -/
  lastCl  : Nat
  /-- An hmod whose target has not issued: bits [9:0] of the hmod (R67). -/
  md      : Option (BitVec 10)
  /-- The staging row of a finishing line: cluster and row (R328), none once released. -/
  staging : Option (Nat × Nat)
  /-- The slot a yield vacated (R164). -/
  yieldOf : Option (Nat × Nat)
  /-- The line came from the tenant's context pool (R138). -/
  pool    : Bool
  /-- Parked by firmware (R403). -/
  fw      : Bool
  /-- An operation of the instruction being issued that is under way, and the answers so far. -/
  req     : Option Nat
  replies : List Word
  /-- The word being issued, while its instruction keeps its slot and tries again (R156, R305, R340). -/
  word    : Option Nat
  /-- The register of an acquiring scale read that may still be out: the line's later accesses come after it (R344, R378). -/
  await   : Option Reg
  /-- The DMGEN under which the packet of a line in flight was routed (R439). -/
  route   : BitVec 32
  deriving DecidableEq, Repr

/-- A live line just created at `addr` (R9). -/
def LiveLine.new (tenant addr : Nat) (place : Place) (line : Line) : LiveLine where
  tenant := tenant
  addr := addr
  place := place
  line := line
  clm := false
  holder := 0
  pull := false
  verDue := false
  stores := 0
  drain := .all
  derr := []
  forfeit := 0
  norm := false
  normWait := false
  count := 0
  cool := 0
  last := 0
  passed := 0
  passedCl := 0
  lastCl := 0
  md := none
  staging := none
  yieldOf := none
  pool := false
  fw := false
  req := none
  replies := []
  word := none
  await := none
  route := 0

/-! ### Cores -/

/-- A task record (R136), and whether a gang switch holds it in its ring (R464). -/
structure TaskRec where
  pc     : BitVec 48
  g0     : Word
  g1     : Word
  g2     : Word
  g3     : Word
  jaddr  : BitVec 56
  tenant : Nat
  job    : Nat
  prio   : BitVec 4
  sdom   : BitVec 2
  cont   : Bool
  tags   : BitVec 32
  origin : Nat
  serial : BitVec 32
  held   : Bool
  deriving DecidableEq, Repr

/-- A mailbox counter (R148). -/
structure Counter where
  cnt    : BitVec 32
  exp    : BitVec 32
  tenant : Nat
  valid  : Bool
  ovf    : Bool
  deriving DecidableEq, Repr

/-- A translation held by a TLB: a leaf entry with V = 1, its level and page (R410). -/
structure TlbEntry where
  tenant : Nat
  level  : Nat
  page   : Nat
  leaf   : Word
  deriving DecidableEq, Repr

/-- A queue resident in a core's queue buffer (R151). -/
structure ResQueue where
  tenant : Nat
  qnum   : Nat
  elems  : List Word
  head   : BitVec 32
  deriving DecidableEq, Repr

/-- A core (R119 to R123, R140, R148). -/
structure Core where
  lastSlot : Nat
  deque    : List TaskRec
  ring     : List TaskRec
  spillLog : Nat
  serial   : BitVec 32
  mail     : Tab Counter
  tlb      : List TlbEntry
  queues   : List ResQueue
  issued   : Nat
  deriving DecidableEq, Repr

/-- A core after reset: slot 15 issued last, so that scanning begins at slot 0 (log entry 3). -/
def Core.zero : Core := ⟨15, [], [], 12, 0, [], [], [], 0⟩

/-! ### Clusters and engines -/

/-- A TDT entry (R191). -/
structure TdtEntry where
  base   : BitVec 24
  rowsm1 : BitVec 12
  colsm1 : BitVec 12
  fmt    : BitVec 4
  swz    : BitVec 3
  axis   : Bool
  stride : BitVec 24
  bexp   : BitVec 24
  gen    : BitVec 12
  state  : BitVec 2
  tenant : BitVec 8
  scv    : Bool
  sglog  : BitVec 4
  scidx  : BitVec 16
  deriving DecidableEq, Repr

/-- A free TDT entry with GEN 0. -/
def TdtEntry.zero : TdtEntry := ⟨0, 0, 0, 0, 0, false, 0, 0, 0, 0, 0, false, 0, 0⟩

/-- A guard slot (R319, R380): STATE 0 free, 1 open, 2 true, 3 false. -/
structure GuardSlot where
  state  : Nat
  tenant : Nat
  job    : Nat
  gen    : BitVec 8
  deriving DecidableEq, Repr

/-- A free guard slot with GEN 0. -/
def GuardSlot.zero : GuardSlot := ⟨0, 0, 0, 0⟩

/-- A weight plane of the Last (R324, R360): K = 0 is an empty plane. Rows of element bits, rows of block exponents, and
scale bits, as `lw` read them. -/
structure Plane where
  k      : Nat
  n      : Nat
  fmt    : Nat
  tenant : Nat
  job    : Nat
  elems  : List (List Nat)
  exps   : List (List Nat)
  scv    : Bool
  sglog  : Nat
  scales : List Nat
  deriving DecidableEq, Repr

/-- An empty plane. -/
def Plane.zero : Plane := ⟨0, 0, 0, 0, 0, [], [], false, 0, []⟩

/-- A tile as a command captured it: its cluster, its handle and a snapshot of its TDT entry (R306). -/
structure Tile where
  cl     : Nat
  handle : BitVec 32
  desc   : TdtEntry
  deriving DecidableEq, Repr

/-- The work a captured command asks for (R352). -/
inductive CmdOp where
  | lw (w : Tile)
  | lswap
  | lstream (act dst : Tile) (stg : Option Tile) (hentry : BitVec 48) (acc spz rtz : Bool) (arg : Word)
  | ldrain
  | lcfg (clrs clra : Bool)
  | tread (fn : Nat) (dst src1 src2 src3 : Option Tile) (red : Nat) (rtz : Bool)
  | copy (src dst len ch : Nat) (setf dist : Bool) (dpat : Word)
  | cwm (ch : Nat)
  | chan (ch : Nat)
  | scmc (idx : Nat) (v : BitVec 32)
  | sld (idx : Nat)
  | swpin (va : Nat)
  | swpout (va : Nat)
  | swpq (va : Nat)
  | restore (active : Bool) (p : Plane)
  deriving DecidableEq, Repr

/-- A row of an lstream that stands in staging (R327 to R329): 0 delivered, 1 held by its finishing thread, 2 released. -/
structure StgRow where
  srow  : Nat
  row   : Nat
  state : Nat
  line  : Nat
  deriving DecidableEq, Repr

/-- A captured command (R306): who issued it, its guard with the slot's GEN, its flags, its work, and how far it is. -/
structure Cmd where
  entry  : Nat
  tenant : Nat
  job    : Nat
  prio   : BitVec 4
  level  : Nat
  line   : Nat
  /-- The cluster whose guard slot guards it, the slot and its GEN (R384). -/
  guard  : Option (Nat × Nat × BitVec 8)
  acq    : Bool
  rel    : Bool
  scope  : BitVec 2
  op     : CmdOp
  /-- The result register (R314). -/
  res    : Option Reg
  /-- The completion counter: core and index (R357). -/
  post   : Option (Nat × Nat)
  /-- Next row to stream, or the watermark of a copy. -/
  at_    : Nat
  stg    : List StgRow
  exc    : BitVec 5
  /-- A segment of a copy on its way to another member: the writes not yet acknowledged. -/
  sent   : Option Nat
  deriving DecidableEq, Repr

/-- An entry of a job table (R311, R312). -/
structure JobEntry where
  seq       : BitVec 24
  tenant    : Nat
  job       : Nat
  state     : Nat
  exc       : BitVec 5
  rowdrop   : Bool
  abort     : Bool
  fcode     : Byte
  detail    : BitVec 40
  withdrawn : Bool
  deriving DecidableEq, Repr

/-- An engine: its queue (head first), the commands under way, its job table and its grants (R304, R305, R311, R313). -/
structure Engine where
  queue   : List Cmd
  running : List Cmd
  jobs    : Tab JobEntry
  next    : Nat
  seq     : BitVec 24
  /-- Requesters with a reservation, the last one granted, and those that a freed entry has been granted to (R305). -/
  reserve : List Nat
  granted : Nat
  grants  : List Nat
  /-- Swap commands held at their cluster by a guard, or that wait there for an entry (R390). -/
  held    : List Cmd
  /-- The parked-command store (R313). -/
  parked  : List Cmd
  deriving DecidableEq, Repr

/-- An idle engine. -/
def Engine.zero : Engine := ⟨[], [], [], 0, 0, [], 0, [], [], []⟩

/-- A copy channel (R339) with its current copy and the copies queued on it (R317). -/
structure Channel where
  wm     : Nat
  cst    : Nat
  cseq   : BitVec 16
  tenant : Nat
  cur    : Option Cmd
  queue  : List Cmd
  deriving DecidableEq, Repr

/-- An idle channel. -/
def Channel.zero : Channel := ⟨0, 0, 0, 0, none, []⟩

/-- A cluster (R125, R129, R190, R304, R319, R324, R343). -/
structure Cluster where
  cl2Mib  : Nat
  ready   : List (Nat × Nat)      -- DRAM ready list, oldest first: tenant and address
  headLine : Option (Nat × Nat)   -- the head the next two counts are for
  aging   : Nat                   -- CL2 evictions since the head reached the head
  headPassed : Nat                -- slot fills in the cluster that passed the head over
  tdt     : Tab TdtEntry
  guards  : Tab GuardSlot
  helio   : Nat
  tlb     : List TlbEntry
  last    : Engine
  tread   : Engine
  copy    : Engine
  scale   : Engine
  shadow  : Plane
  active  : Plane
  chans   : Tab Channel
  deriving DecidableEq, Repr

/-- A cluster after reset: a CL2 of 2 MiB (R125), heliostat core 0 (log entry 3). -/
def Cluster.zero : Cluster where
  cl2Mib := 2
  ready := []
  headLine := none
  aging := 0
  headPassed := 0
  tdt := []
  guards := []
  helio := 0
  tlb := []
  last := Engine.zero
  tread := Engine.zero
  copy := Engine.zero
  scale := Engine.zero
  shadow := Plane.zero
  active := Plane.zero
  chans := []

/-! ### Slices, dies -/

/-- A ticket table entry (R255): STATE 0 free, 1 pending, 2 complete, 3 failed; the location of a pending fetch, what the fetch
has read there (none while a copy holds the read back, no byte when the bytes cannot be read), and the line whose ticket it
is. -/
structure TicketEntry where
  state  : Nat
  drop   : Bool
  age    : Nat
  gen    : BitVec 16
  tenant : Nat
  job    : Nat
  size   : Nat
  acqs   : Nat
  data   : List Byte
  key    : Nat
  got    : Option (List Byte)
  line   : Nat
  deriving DecidableEq, Repr

/-- A free ticket entry with GEN 0. -/
def TicketEntry.zero : TicketEntry := ⟨0, false, 0, 0, 0, 0, 0, 0, [], 0, none, 0⟩

/-- A job's window of a ticket table (R254). -/
structure Window where
  tenant : Nat
  job    : Nat
  base   : Nat
  len    : Nat
  deriving DecidableEq, Repr

/-- A memory slice's agent (R202). -/
structure Slice where
  entries : Tab TicketEntry
  windows : List Window
  deriving DecidableEq, Repr

/-- A slice that no job has used. -/
def Slice.zero : Slice := ⟨[], []⟩

/-- A virtual die: its die-map entry (R437) and its page swap engine (R346). -/
structure Die where
  phys  : Nat
  state : Nat        -- 0 online, 1 moving, 2 offline, 3 lost
  swap  : Engine
  /-- Of a lost die: the tenants that held something on it and are not yet torn down (R444). -/
  holders : List Nat
  deriving DecidableEq, Repr

/-! ### Tenants -/

/-- A fault record (R398) before it is written. -/
structure FaultRec where
  line   : Nat
  pc     : BitVec 48
  fcode  : Byte
  level  : BitVec 2
  source : Nat
  hnd    : Bool
  addr   : Word
  tdata  : BitVec 48
  job    : Nat
  deriving DecidableEq, Repr

/-- A page between states (R349): the page's level; outbound or inbound; its frame; its flash location. -/
structure PageMove where
  level    : Nat
  outbound : Bool
  frame    : Option Nat
  floc     : Nat
  inval    : Option Nat
  deriving DecidableEq, Repr

/-- A tenant: its T registers (R413) and what the device keeps for it. -/
structure Tenant where
  live     : Bool
  halted   : Bool
  trapvec  : Word
  fqBase   : Word
  fqLog2   : Nat
  fqHead   : BitVec 32
  fqTail   : BitVec 32
  fqLost   : BitVec 32
  fqMbx    : BitVec 18
  ctxBase  : Word
  ctxLines : Nat
  qtabBase : Word
  qtabLen  : Nat
  tkQuota  : Nat
  qbounce  : BitVec 32
  tkNull   : BitVec 32
  /-- Lines of the context pool in use, by index (R138), and the notices of R138 and R350 already given. -/
  pool     : List Nat
  poolNote : Bool
  frameNote : Bool
  /-- Records held until their page lands (R399), and the last bytes of retired roots whose page is swapped, by address (R134). -/
  heldRecs : List FaultRec
  heldRoots : List (Nat × List Byte)
  /-- Queues to be freed when the page of their table entry lands, and the lost die (R443). -/
  lostQueues : List (Nat × Nat)
  capGen   : BitVec 12
  /-- Swap allotment and use in 4 KiB blocks (R348). -/
  allot    : Nat
  flashUse : Nat
  /-- Page tables (R203): the key is level × 2^56 + page number. `ptab` holds the leaves; `nodes` the non-leaf entries above them
  that are not as firmware makes them: an absent one is valid and well-formed (R204). -/
  ptab     : Tab Word
  nodes    : Tab Word
  /-- Frames returned by swap-outs (R349), each as base × 4 + level. -/
  frames   : List Nat
  moves    : Tab PageMove
  /-- Push masks by destination cluster; absent is all ones (R337). -/
  push     : Tab (BitVec 256)
  deriving DecidableEq, Repr

/-- A tenant number that is free; TENANT create gives the T registers these values (R473, R413). -/
def Tenant.zero : Tenant where
  live := false
  halted := false
  trapvec := 0
  fqBase := 0
  fqLog2 := 4
  fqHead := 0
  fqTail := 0
  fqLost := 0
  fqMbx := 0
  ctxBase := 0
  ctxLines := 0
  qtabBase := 0
  qtabLen := 0
  tkQuota := 16
  qbounce := 0
  tkNull := 0
  pool := []
  poolNote := false
  frameNote := false
  heldRecs := []
  heldRoots := []
  lostQueues := []
  capGen := 0
  allot := 0
  flashUse := 0
  ptab := []
  nodes := []
  frames := []
  moves := []
  push := []

/-! ### The module -/

/-- A line whose trap awaits its handler (R400, R401): its record, the record's address and the handler's entry, or `unread` while the
vector entry could not be read. -/
structure PendHandler where
  tenant : Nat
  addr   : Nat
  core   : Nat
  fault  : FaultRec
  record : Word
  entry  : BitVec 48
  unread : Bool
  deriving DecidableEq, Repr

/-- A launched job's completion (R130, R135). -/
structure Launched where
  tenant : Nat
  job    : Nat
  cscope : BitVec 2
  post   : Option (Nat × Nat)
  host   : Bool
  tag    : BitVec 32
  deriving DecidableEq, Repr

/-- An invalidation under way (R411): what it matches and the units whose markers have returned. -/
structure Inval where
  id     : Nat
  all    : Bool
  global : Bool
  tenant : Nat
  page   : Nat
  done   : List Nat
  deriving DecidableEq, Repr

/-- A message for a line, on its way (R436). -/
inductive MsgBody where
  /-- a wake of a line that waits with this tag (R146). -/
  | wake (tag : Word)
  /-- a result for a pending register (R23). -/
  | result (reg : Reg) (v : Word) (fflg : BitVec 5)
  /-- the end of a claim whose holder is gone (R407); `keep`: the line stays parked (R403). -/
  | release (keep : Bool)
  deriving DecidableEq, Repr

/-- A message and the line it is for. -/
structure Msg where
  tenant : Nat
  addr   : Nat
  body   : MsgBody
  /-- The holding cluster to which the home directory has forwarded it, and the VER it is stamped with (R436). -/
  fwd    : Option (Nat × BitVec 32)
  /-- The DMGEN under which it was routed (R439). -/
  dmgen  : BitVec 32
  deriving DecidableEq, Repr

/-- A ticket record of a save area (R463). -/
structure TicketRec where
  slice : Nat
  index : Nat
  len   : Nat
  entry : TicketEntry
  deriving DecidableEq, Repr

/-- A saved engine command and its engine (R464). -/
structure SavedCmd where
  eng : Nat
  cmd : Cmd
  deriving DecidableEq, Repr

/-- A saved Last plane: its cluster and position (R464). -/
structure SavedPlane where
  cl     : Nat
  active : Bool
  plane  : Plane
  deriving DecidableEq, Repr

/-- A gang switch of one job on this member (R460, R465, R467, R468). `resume` false: 0 while a die remap makes its start wait (R442),
phases 1 to 6, then 7 saved; `resume` true: phases 1 to 3. -/
structure Switch where
  tenant  : Nat
  job     : Nat
  resume  : Bool
  phase   : Nat
  keep    : Bool                   -- resume switch control came while switching out
  markers : List (Nat × Nat)       -- (member, class) of the meridian markers that have arrived
  pkts    : List Pkt
  /-- Swept messages for lines (R436, R459). -/
  msgs    : List Msg
  tickets : List TicketRec
  cmds    : List SavedCmd
  planes  : List SavedPlane
  /-- Lines of the job on each cluster's DRAM ready list, and its records in each core's ring (R460, R464). -/
  ready   : Tab Nat
  records : Tab Nat
  late    : List Pkt
  lcount  : Nat
  ldrop   : Nat
  vmod    : Nat
  deriving DecidableEq, Repr

/-- A flow end of this member (R451, R452): the sender keeps `seq` and `unacked`, the receiver `expect`. -/
structure Flow where
  id      : FlowId
  port    : Nat                          -- the port its frames leave by
  seq     : BitVec 32                    -- next SEQ to send
  expect  : BitVec 32                    -- next SEQ expected
  unacked : List (Frame × Nat × Nat)     -- frame, frames sent by the port since, times sent
  failed  : Bool
  deriving DecidableEq, Repr

/-- A remap under way (R440). -/
structure Remap where
  die   : Nat
  src   : Nat
  dst   : Nat
  phase : Nat
  inval : Option Nat
  deriving DecidableEq, Repr

/-- A snapshot record (R478). -/
structure Snap where
  id    : Nat
  bkind : Nat
  block : Nat
  link  : Nat
  sent  : Nat
  rcvd  : Nat
  inch  : Nat
  deriving DecidableEq, Repr

/-- A transit under way (R477): its records, and the links whose markers have arrived. -/
structure Transit where
  id      : Nat
  records : List Snap
  markers : List (Nat × Nat × Nat)
  deriving DecidableEq, Repr

/-- A message to the host (R457, R479, R485, R487). -/
inductive HostMsg where
  | ack (tag : BitVec 32) (status : Nat)
  | readData (tag : BitVec 32) (status : Nat) (data : List Byte)
  | completion (tenant job : Nat) (tag : BitVec 32) (status : Nat)
  | faultNote (tenant : Nat) (tail : BitVec 32)
  | deviceFault (tenant : Nat) (rec : FaultRec)
  | switched (tenant job vmod : Nat) (resumed : Bool) (late : Nat)
  | snapshot (id : Nat) (rec : List Byte)
  | bootFail (step : Nat)
  | features (tag : BitVec 32) (offered : BitVec 256) (microcode : BitVec 32)
  /-- the ACK of a DIEMAP read, with the entry. -/
  | dieMap (tag : BitVec 32) (status entry : Nat)
  /-- the attestation report, its signature, and the certificate (R487). -/
  | report (tag : BitVec 32) (words : List Nat) (sig cert : List Byte)
  deriving DecidableEq, Repr

/-- A swap image on flash (R348): the owner, the units' images. -/
structure FlashImage where
  tenant : Nat
  blocks : Nat
  units  : List (List Byte)
  deriving DecidableEq, Repr

/-- The memory of the module: bytes at keys (`Loc.cell`), keys rising, no zero byte listed; the full words; the poisoned
bytes (R147, R210, R404). -/
structure Memory where
  bytes  : List Host.Cell
  full   : List Nat
  poison : List Nat
  deriving DecidableEq, Repr

/-- What a module checkpoint holds (R488). -/
structure ModuleImage where
  memory   : Memory
  lines    : List LiveLine
  cores    : Tab Core
  clusters : Tab Cluster
  slices   : Tab Slice
  dies     : Tab Die
  tenants  : Tab Tenant
  owner    : Tab Nat
  used     : Tab (Nat × Nat)
  launched : List Launched
  switches : List Switch
  gangs    : Tab GangMap
  flash    : Tab FlashImage
  accepted : BitVec 256
  deriving DecidableEq, Repr

/-- What a tenant checkpoint holds (R489). -/
structure TenantImage where
  tenant   : Nat
  regs     : Tenant
  pages    : List (Nat × Nat × Word × FlashImage)    -- level, address, leaf, swap image
  granules : List (Nat × Memory)                     -- granule, its bytes and full words from 0 up
  tdt      : List (Nat × Nat × TdtEntry)
  counters : List (Nat × Nat × Counter)
  guards   : List (Nat × Nat × GuardSlot)
  switches : List Switch
  jobs     : List (Nat × Nat × JobEntry)             -- withdrawn entries: engine, entry
  recs     : List (Nat × List TaskRec)
  ready    : List (Nat × List Nat)
  lines    : List LiveLine
  queues   : List (Nat × ResQueue)
  accepted : BitVec 256
  deriving DecidableEq, Repr

/-- The host port and boot (R455, R485 to R487, R491). -/
structure HostPort where
  /-- 0 before boot, 1 running, 2 stopped by a failed boot, 3 shut down. -/
  phase     : Nat
  bound     : Option (BitVec 48)
  hostKey   : BitVec 256
  bodyDigest : BitVec 256
  version   : BitVec 32
  microcode : BitVec 32
  /-- Requests that wait for a page, oldest first (R456). -/
  waiting   : List Instr
  out       : List HostMsg
  /-- How many of them have left in frames (R455). -/
  sent      : Nat
  slowed    : Bool
  faultCkpt : Bool
  /-- Fused in the device: the vendor key digest, the minimum security version, the identity seed (R485, R487). -/
  vendorKey : BitVec 256
  minVersion : BitVec 32
  seed      : BitVec 256
  /-- The device nonce that BIND signs (R486), the identity public key, and Nergecy's certificate of it (R487). -/
  nonce     : BitVec 256
  identity  : List Byte
  cert      : List Byte
  deriving DecidableEq, Repr

/-- The state of one module. -/
structure State where
  /-- The model's own: the turns to come, the device choices to come, the counter free values are applied to, and the
  line that is issuing. -/
  agenda   : List Turn
  tape     : List Nat
  tick     : Nat
  thr      : Option LiveLine
  /-- Every live line but the issuing one. -/
  lines    : List LiveLine
  cores    : Tab Core
  clusters : Tab Cluster
  slices   : Tab Slice
  dies     : Tab Die
  dmgen    : BitVec 32
  /-- Die pairs that have failed: no map may name them again (R440, R444). -/
  failed   : List Nat
  tenants  : Tab Tenant
  /-- Granule owners (R185): by granule key, the tenant. -/
  owner    : Tab Nat
  /-- Frames in use: by base, tenant and level. -/
  used     : Tab (Nat × Nat)
  memory   : Memory
  net      : List Pkt
  nextId   : Nat
  msgs     : List Msg
  /-- Reads from other members that registered a wait here (R447, R146). -/
  watch    : List Pkt
  pending  : List PendHandler
  launched : List Launched
  invals   : List Inval
  remap    : Option Remap
  /-- The last result of a firmware service (R415). -/
  svc      : Word
  gangs    : Tab GangMap
  switches : List Switch
  flows    : List Flow
  /-- Frames sent to the fabric by port, as bytes, and frames each port has sent (R450, R452). -/
  egress   : List (Nat × List Byte)
  portSent : Tab Nat
  /-- The EtherType of fabric frames, and the frames discarded for another one (R449). -/
  etherType : BitVec 16
  strange  : Nat
  transit  : Option Transit
  /-- What has left by each link end since reset (R478). -/
  links    : Tab Nat
  offered  : BitVec 256
  accepted : BitVec 256
  host     : HostPort
  flash    : Tab FlashImage
  moduleCkpt : Option ModuleImage
  tenantCkpts : List TenantImage
  deriving DecidableEq, Repr

/-- A virtual die after reset: PHYS its own number, online (R437). -/
def Die.zero (v : Nat) : Die := ⟨v, 0, Engine.zero, []⟩

/-- Nothing in memory: every byte zero, every full/empty bit 0, nothing poisoned (R210). -/
def Memory.zero : Memory := ⟨[], [], []⟩

/-- Right after reset: no tenant, no line, nothing in memory, boot not yet run, the offered set of R481. -/
def State.reset : State where
  agenda := []
  tape := []
  tick := 0
  thr := none
  lines := []
  cores := []
  clusters := []
  slices := []
  dies := []
  dmgen := 0
  failed := []
  tenants := []
  owner := []
  used := []
  memory := Memory.zero
  net := []
  nextId := 0
  msgs := []
  watch := []
  pending := []
  launched := []
  invals := []
  remap := none
  svc := 0
  gangs := []
  switches := []
  flows := []
  egress := []
  portSent := []
  etherType := 0x88B5
  strange := 0
  transit := none
  links := []
  offered := 0x3F
  accepted := 0
  host :=
    { phase := 0, bound := none, hostKey := 0, bodyDigest := 0, version := 0, microcode := 0, waiting := [], out := [], sent := 0,
      slowed := false, faultCkpt := false, vendorKey := 0, minVersion := 0, seed := 0, nonce := 0, identity := [], cert := [] }
  flash := []
  moduleCkpt := none
  tenantCkpts := []

/-- Why the machine stops with a fault. -/
inductive Fault where
  /-- Raised by the meaning of an instruction word that is executed while no line is issuing; `step` never does so. Safe:
  the hardware has no such case. -/
  | noIssuingLine
  deriving DecidableEq, Repr

/-- Why an instruction has no meaning. -/
inductive Refusal where
  /-- Raised by the arm of an instruction that is not modelled yet. Safe: nothing is claimed of it. -/
  | notModelled (mnemonic : String)
  deriving DecidableEq, Repr

end Sys2Proof.Machine
end

