-- ==== Sys2Proof/Machine/Sparse.lean ====
section
/-! DEFINITION. Machine/Sparse.lean: sparse tables and the bytes of memory, kept in canonical form: keys rising, no entry
equal to what an absent key reads as. -/

namespace Sys2Proof.Machine

/-! ### Tables -/

/-- The entry at `k`, or the default. -/
def tabGet {α : Type} (d : α) (k : Nat) : Tab α → α
  | [] => d
  | e :: t => if e.1 = k then e.2 else tabGet d k t

/-- The entry at `k`, if it is listed. -/
def tabFind {α : Type} (k : Nat) : Tab α → Option α
  | [] => none
  | e :: t => if e.1 = k then some e.2 else tabFind k t

/-- Without the entry at `k`. -/
def tabDel {α : Type} (k : Nat) : Tab α → Tab α
  | [] => []
  | e :: t => if e.1 = k then t else e :: tabDel k t

/-- With `v` listed at `k`, keys rising. -/
def tabIns {α : Type} (k : Nat) (v : α) : Tab α → Tab α
  | [] => [(k, v)]
  | e :: t => if k < e.1 then (k, v) :: e :: t else if k = e.1 then (k, v) :: t else e :: tabIns k v t

/-- The table with `v` at `k`, where an absent key reads as `d`. -/
def tabPut {α : Type} [DecidableEq α] (d : α) (k : Nat) (v : α) (t : Tab α) : Tab α :=
  if v = d then tabDel k t else tabIns k v t

/-! ### Sets of numbers -/

/-- With `k` in a rising list of numbers. -/
def setIns (k : Nat) : List Nat → List Nat
  | [] => [k]
  | x :: t => if k < x then k :: x :: t else if k = x then x :: t else x :: setIns k t

/-- Without `k`. -/
def setDel (k : Nat) : List Nat → List Nat
  | [] => []
  | x :: t => if x = k then t else x :: setDel k t

/-! ### Bytes of memory -/

/-- The byte at `k`: an unlisted byte reads as zero (R210). -/
def byteAt (k : Nat) : List Host.Cell → Byte
  | [] => 0
  | e :: t => if e.1 = k then e.2 else byteAt k t

/-- The cells with byte `v` at `k`. -/
def byteDel (k : Nat) : List Host.Cell → List Host.Cell
  | [] => []
  | e :: t => if e.1 = k then t else e :: byteDel k t

/-- The cells with the nonzero byte `v` listed at `k`, keys rising. -/
def byteIns (k : Nat) (v : Byte) : List Host.Cell → List Host.Cell
  | [] => [(k, v)]
  | e :: t => if k < e.1 then (k, v) :: e :: t else if k = e.1 then (k, v) :: t else e :: byteIns k v t

/-- Write one byte; a zero is not listed. -/
def bytePut (k : Nat) (v : Byte) (m : List Host.Cell) : List Host.Cell :=
  if v = 0 then byteDel k m else byteIns k v m

/-- Keys strictly rising. -/
def rising : List Nat → Bool
  | [] => true
  | [_] => true
  | a :: b :: t => decide (a < b) && rising (b :: t)

/-- The canonical form of the memory: keys strictly rising, no zero byte listed, the full words and the poisoned blocks
each strictly rising. -/
def memWf (m : Memory) : Bool :=
  rising (m.bytes.map (·.1)) && m.bytes.all (fun e => e.2 != 0) && rising m.full && rising m.poison

/-- The `n` bytes from `k` up. -/
def memBytes (m : Memory) (k : Nat) : Nat → List Byte
  | 0 => []
  | n + 1 => byteAt k m.bytes :: memBytes m (k + 1) n

/-- Little-endian bytes as a number (R3). -/
def leNat : List Byte → Nat
  | [] => 0
  | b :: t => b.toNat + 256 * leNat t

/-- A number as `n` little-endian bytes (R3). -/
def natLe (v : Nat) : Nat → List Byte
  | 0 => []
  | n + 1 => BitVec.ofNat 8 v :: natLe (v / 256) n

/-- Write bytes from `k` up; full/empty bits and poison stay (R147, R404). -/
def cellsPut (k : Nat) : List Byte → List Host.Cell → List Host.Cell
  | [], m => m
  | b :: t, m => cellsPut (k + 1) t (bytePut k b m)

/-- Write bytes from `k` up. -/
def memPut (m : Memory) (k : Nat) (bs : List Byte) : Memory := { m with bytes := cellsPut k bs m.bytes }

/-- The `n` bytes from `k` up as a number. -/
def memRead (m : Memory) (k n : Nat) : Nat := leNat (memBytes m k n)

/-- Write the low `n` bytes of `v` from `k` up. -/
def memWrite (m : Memory) (k n v : Nat) : Memory := memPut m k (natLe v n)

/-- The 8 bytes from `k` up as a word. -/
def memWord (m : Memory) (k : Nat) : Word := BitVec.ofNat 64 (memRead m k 8)

/-- The key of the 8-byte word that holds `k`. -/
def wordKey (k : Nat) : Nat := k / 8 * 8

/-- The full/empty bit of the word that holds `k` (R147). -/
def feAt (m : Memory) (k : Nat) : Bool := m.full.contains (wordKey k)

/-- Set the full/empty bit of the word that holds `k`. -/
def fePut (m : Memory) (k : Nat) (b : Bool) : Memory :=
  { m with full := if b then setIns (wordKey k) m.full else setDel (wordKey k) m.full }

/-- Some byte of the `n` from `k` up is poisoned (R404): poison is kept by 64-byte block. -/
def poisoned (m : Memory) (k n : Nat) : Bool :=
  m.poison.contains (k / 64 * 64) || m.poison.contains ((k + n - 1) / 64 * 64)

/-- Poison the 64 bytes that hold `k` (R404). -/
def poisonAt (m : Memory) (k : Nat) : Memory := { m with poison := setIns (k / 64 * 64) m.poison }

/-- Every byte of the `n` from `k` up zero, every full/empty bit there 0, no poison there (R210). -/
def memScrub (m : Memory) (k n : Nat) : Memory where
  bytes := m.bytes.filter fun e => decide (e.1 < k) || decide (k + n ≤ e.1)
  full := m.full.filter fun x => decide (x < k) || decide (k + n ≤ x)
  poison := m.poison.filter fun x => decide (x < k) || decide (k + n ≤ x)

/-- Move every byte, full/empty bit and poison mark of the `n` bytes from `k` up to `k'` up, in place of what was there. -/
def memMove (m : Memory) (k k' n : Nat) : Memory :=
  let inside := fun x => decide (k ≤ x) && decide (x < k + n)
  let bs := m.bytes.filter fun e => inside e.1
  let fs := m.full.filter inside
  let ps := m.poison.filter inside
  let m := memScrub (memScrub m k n) k' n
  { bytes := bs.foldl (fun c e => bytePut (e.1 - k + k') e.2 c) m.bytes
    full := fs.foldl (fun l x => setIns (x - k + k') l) m.full
    poison := ps.foldl (fun l x => setIns (x - k + k') l) m.poison }

end Sys2Proof.Machine
end

