-- ==== Sys2Proof/Machine/Access.lean ====
section
/-! DEFINITION. Machine/Access.lean: the accessors of the state: the one home of every register, the line image of R8,
the parts of the module by number, and the lines by tenant and address. -/

namespace Sys2Proof.Machine

/-! ### Registers of a line -/

/-- General register `gi` (R10). -/
def getG (l : Line) (i : Reg) : Word := l.g[i.toNat]'(i.isLt)

/-- The format tag of `gi` (R17). -/
def getTag (l : Line) (i : Reg) : Byte := l.tag[i.toNat]'(i.isLt)

/-- Write `gi` and its tag (R18). -/
def setG (l : Line) (i : Reg) (v : Word) (t : Byte) : Line :=
  { l with g := l.g.set i.toNat v i.isLt, tag := l.tag.set i.toNat t i.isLt }

/-- Write the tag of `gi` alone, at the issue of an instruction whose result comes later (R21). -/
def setTag (l : Line) (i : Reg) (t : Byte) : Line := { l with tag := l.tag.set i.toNat t i.isLt }

/-- Predicate field `qi`; q0 reads as 0xFF (R13). -/
def getQ (l : Line) (i : Reg) : Byte := if i = 0 then 0xFF else l.q[i.toNat]'(i.isLt)

/-- Write `qi`; a write to q0 is discarded (R13). -/
def setQ (l : Line) (i : Reg) (v : Byte) : Line :=
  if i = 0 then l else { l with q := l.q.set i.toNat v i.isLt }

/-- The PEND bit of `gi` (R20). -/
def isPending (l : Line) (i : Reg) : Bool := l.pend.getLsbD i.toNat

/-- Set the PEND bit of `gi` (R21). -/
def setPending (l : Line) (i : Reg) : Line := { l with pend := l.pend ||| (1#8 <<< i.toNat) }

/-- Clear the PEND bit of `gi`. -/
def clearPending (l : Line) (i : Reg) : Line := { l with pend := l.pend &&& ~~~(1#8 <<< i.toNat) }

/-- A flag as a number. -/
def b2n (b : Bool) : Nat := if b then 1 else 0

/-! ### The image of a line (R8) -/

/-- The eight bytes of a vector as a word. -/
def packBytes (v : Vector Byte 8) : Word := BitVec.ofNat 64 (leNat v.toList)

/-- The eight bytes of a word. -/
def unpackBytes (w : Word) : Vector Byte 8 := Vector.ofFn fun i => w.extractLsb' (8 * i.val) 8

/-- The pc word (R28). -/
def pcWord (l : Line) : Word :=
  BitVec.ofNat 64 (l.pc.toNat + l.rmode.toNat * 2 ^ 48 + l.tlvl.toNat * 2 ^ 50 + b2n l.tfb * 2 ^ 52 + l.fen.toNat * 2 ^ 56)

/-- The identity word (R34). -/
def identityWord (l : Line) : Word :=
  BitVec.ofNat 64 (l.tenant.toNat + l.job.toNat * 2 ^ 8 + l.prio.toNat * 2 ^ 24 + l.sdom.toNat * 2 ^ 28 + b2n l.hnd * 2 ^ 30
    + b2n l.fin * 2 ^ 31 + b2n l.root * 2 ^ 32)

/-- The pending and lookahead word (R20). -/
def pendWord (l : Line) : Word :=
  BitVec.ofNat 64 (l.pend.toNat + l.lacnt.toNat * 2 ^ 8 + b2n l.laopen * 2 ^ 12 + l.hcnt.toNat * 2 ^ 13 + l.hpay.toNat * 2 ^ 16)

/-- The status word (R35). -/
def statusWord (l : Line) : Word :=
  BitVec.ofNat 64 (l.fcode.toNat + l.fflg.toNat * 2 ^ 8 + l.tdata.toNat * 2 ^ 16)

/-- The ownership word (R36). -/
def ownerWord (l : Line) : Word := BitVec.ofNat 64 (l.lver.toNat + l.hwin.toNat * 2 ^ 32)

/-- The 16 words of the image, lowest address first; byte 72 holds 0xFF (R13). -/
def lineWords (l : Line) : List Word :=
  l.g.toList ++ [pcWord l, packBytes (l.q.set 0 0xFF), l.wait, packBytes l.tag, identityWord l, pendWord l, statusWord l,
    ownerWord l]

/-- Bit `i` of a word. -/
def wbit (w : Word) (i : Nat) : Bool := w.getLsbD i

/-- The line an image holds; byte 72 is not read (R13) and reserved bits are dropped (R5). -/
def lineOf (w : Nat → Word) : Line where
  g := Vector.ofFn fun i => w i.val
  pc := (w 8).extractLsb' 0 48
  rmode := (w 8).extractLsb' 48 2
  tlvl := (w 8).extractLsb' 50 2
  tfb := wbit (w 8) 52
  fen := (w 8).extractLsb' 56 5
  q := (unpackBytes (w 9)).set 0 0xFF
  wait := w 10
  tag := unpackBytes (w 11)
  tenant := (w 12).extractLsb' 0 8
  job := (w 12).extractLsb' 8 16
  prio := (w 12).extractLsb' 24 4
  sdom := (w 12).extractLsb' 28 2
  hnd := wbit (w 12) 30
  fin := wbit (w 12) 31
  root := wbit (w 12) 32
  pend := (w 13).extractLsb' 0 8
  lacnt := (w 13).extractLsb' 8 4
  laopen := wbit (w 13) 12
  hcnt := (w 13).extractLsb' 13 2
  hpay := (w 13).extractLsb' 16 48
  fcode := (w 14).extractLsb' 0 8
  fflg := (w 14).extractLsb' 8 5
  tdata := (w 14).extractLsb' 16 48
  lver := (w 15).extractLsb' 0 32
  hwin := (w 15).extractLsb' 32 32

/-- The 128 bytes of a line. -/
def lineBytes (l : Line) : List Byte := (lineWords l).flatMap fun w => natLe w.toNat 8

/-- The line at key `k` of memory. -/
def memLine (m : Memory) (k : Nat) : Line := lineOf fun i => memWord m (k + 8 * i)

/-! ### Parts of the module -/

/-- Core `c`, by coordinate (R119). -/
def getCore (s : State) (c : Nat) : Core := tabGet Core.zero c s.cores

/-- Replace core `c`. -/
def setCore (s : State) (c : Nat) (v : Core) : State := { s with cores := tabPut Core.zero c v s.cores }

/-- Cluster `k`, numbered die × 32 + cluster. -/
def getCluster (s : State) (k : Nat) : Cluster := tabGet Cluster.zero k s.clusters

/-- Replace cluster `k`. -/
def setCluster (s : State) (k : Nat) (v : Cluster) : State := { s with clusters := tabPut Cluster.zero k v s.clusters }

/-- Slice `n`, by virtual slice number (R201). -/
def getSlice (s : State) (n : Nat) : Slice := tabGet Slice.zero n s.slices

/-- Replace slice `n`. -/
def setSlice (s : State) (n : Nat) (v : Slice) : State := { s with slices := tabPut Slice.zero n v s.slices }

/-- Virtual die `v`. -/
def getDie (s : State) (v : Nat) : Die := tabGet (Die.zero v) v s.dies

/-- Replace virtual die `v`. -/
def setDie (s : State) (v : Nat) (d : Die) : State := { s with dies := tabPut (Die.zero v) v d s.dies }

/-- Tenant `t`. -/
def getTenant (s : State) (t : Nat) : Tenant := tabGet Tenant.zero t s.tenants

/-- Replace tenant `t`. -/
def setTenant (s : State) (t : Nat) (v : Tenant) : State := { s with tenants := tabPut Tenant.zero t v s.tenants }

/-- Change tenant `t`. -/
def modTenant (s : State) (t : Nat) (f : Tenant → Tenant) : State := setTenant s t (f (getTenant s t))

/-- The cluster of a core coordinate, numbered die × 32 + cluster (R119). -/
def clusterOf (core : Nat) : Nat := core / 8

/-- The virtual die of a core coordinate. -/
def dieOf (core : Nat) : Nat := core / 256

/-- The virtual die of a cluster number. -/
def dieOfCluster (cl : Nat) : Nat := cl / 32

/-- Mailbox counter `i` of core `c` at reset (R148). -/
def Counter0 : Counter := ⟨0, 0, 0, false, false⟩

/-- Mailbox counter `i` of core `c`. -/
def getCounter (s : State) (c i : Nat) : Counter := tabGet Counter0 i (getCore s c).mail

/-- Replace mailbox counter `i` of core `c`. -/
def setCounter (s : State) (c i : Nat) (v : Counter) : State :=
  let k := getCore s c
  setCore s c { k with mail := tabPut Counter0 i v k.mail }

/-- TDT entry `i` of cluster `cl` (R190). -/
def getTdt (s : State) (cl i : Nat) : TdtEntry := tabGet TdtEntry.zero i (getCluster s cl).tdt

/-- Replace TDT entry `i` of cluster `cl`. -/
def setTdt (s : State) (cl i : Nat) (e : TdtEntry) : State :=
  let k := getCluster s cl
  setCluster s cl { k with tdt := tabPut TdtEntry.zero i e k.tdt }

/-- Guard slot `i` of cluster `cl` (R319). -/
def getGuard (s : State) (cl i : Nat) : GuardSlot := tabGet GuardSlot.zero i (getCluster s cl).guards

/-- Replace guard slot `i` of cluster `cl`. -/
def setGuard (s : State) (cl i : Nat) (v : GuardSlot) : State :=
  let k := getCluster s cl
  setCluster s cl { k with guards := tabPut GuardSlot.zero i v k.guards }

/-- Channel `i` of cluster `cl` (R339). -/
def getChan (s : State) (cl i : Nat) : Channel := tabGet Channel.zero i (getCluster s cl).chans

/-- Replace channel `i` of cluster `cl`. -/
def setChan (s : State) (cl i : Nat) (v : Channel) : State :=
  let k := getCluster s cl
  setCluster s cl { k with chans := tabPut Channel.zero i v k.chans }

/-- The engines by number: cluster × 4 + (0 Last, 1 tread, 2 copy, 3 heliostat), then 1024 + die for the page swap
engines (R304, R310). -/
def getEngine (s : State) (e : Nat) : Engine :=
  if e < 1024 then
    let c := getCluster s (e / 4)
    match e % 4 with
    | 0 => c.last
    | 1 => c.tread
    | 2 => c.copy
    | _ => c.scale
  else (getDie s (e - 1024)).swap

/-- Replace an engine. -/
def setEngine (s : State) (e : Nat) (v : Engine) : State :=
  if e < 1024 then
    let c := getCluster s (e / 4)
    setCluster s (e / 4) (match e % 4 with
      | 0 => { c with last := v }
      | 1 => { c with tread := v }
      | 2 => { c with copy := v }
      | _ => { c with scale := v })
  else
    let d := getDie s (e - 1024)
    setDie s (e - 1024) { d with swap := v }

/-- Every command an engine holds. -/
def engineCmds (e : Engine) : List Cmd := e.queue ++ e.running ++ e.held ++ e.parked

/-- Change every command an engine holds. -/
def mapEngine (f : Cmd → Cmd) (e : Engine) : Engine :=
  { e with queue := e.queue.map f, running := e.running.map f, held := e.held.map f, parked := e.parked.map f }

/-- Change every command a channel holds. -/
def mapChannel (f : Cmd → Cmd) (c : Channel) : Channel := { c with cur := c.cur.map f, queue := c.queue.map f }

/-- An engine without the command of a job-table entry. -/
def withoutCmd (entry : Nat) (e : Engine) : Engine :=
  let keep := fun (l : List Cmd) => l.filter fun c => c.entry != entry
  { e with queue := keep e.queue, running := keep e.running, held := keep e.held, parked := keep e.parked }

/-- The cluster of a cluster engine. -/
def engineCluster (e : Nat) : Nat := e / 4

/-! ### Lines -/

/-- This is the line of tenant `t` at `a`. -/
def isLine (t a : Nat) (x : LiveLine) : Bool := x.tenant == t && x.addr == a

/-- The live line of tenant `t` at `a`, if it is not the one that is issuing. -/
def findLine (s : State) (t a : Nat) : Option LiveLine := s.lines.find? (isLine t a)

/-- Put a line back: replaces the line of the same tenant and address. -/
def putLine (s : State) (x : LiveLine) : State :=
  if s.lines.any (isLine x.tenant x.addr) then
    { s with lines := s.lines.map fun y => if isLine x.tenant x.addr y then x else y }
  else { s with lines := s.lines ++ [x] }

/-- Take a line away. -/
def dropLine (s : State) (t a : Nat) : State := { s with lines := s.lines.filter fun y => !(isLine t a y) }

/-- Change every line that meets a test. -/
def mapLines (s : State) (p : LiveLine → Bool) (f : LiveLine → LiveLine) : State :=
  { s with lines := s.lines.map fun y => if p y then f y else y }

/-- Every live line, the issuing one included. -/
def allLines (s : State) : List LiveLine := s.thr.toList ++ s.lines

/-- The next free packet name, and the state past it. -/
def freshId (s : State) : Nat × State := (s.nextId, { s with nextId := s.nextId + 1 })

/-- A device choice among `n` outcomes (R6): the tape's head, else the free value of this tick, reduced to 0 .. n − 1. -/
def choose (s : State) (n : Nat) : Nat × State :=
  match s.tape with
  | x :: t => (x % n, { s with tape := t })
  | [] => (Config.choice s.tick % n, { s with tick := s.tick + 1 })

/-- A value the spec does not state (log entry 5). -/
def freeValue (s : State) : Word × State := (Config.freeWord s.tick, { s with tick := s.tick + 1 })

/-- Send a message to the host. -/
def toHost (s : State) (m : HostMsg) : State := { s with host := { s.host with out := s.host.out ++ [m] } }

end Sys2Proof.Machine
end

