-- ==== Sys2Proof/Machine/Links.lean ====
section
/-! DEFINITION. Machine/Links.lean: the blocks of the module, the links between them, the packets counted on each link (R477, R478),
and the time between the first and the last latch of a transit (R479). -/

namespace Sys2Proof.Machine

/-! ### Blocks and links (log entry 27)

A block is its BKIND and BLOCK of R478: 0 a core, 1 the engines of a cluster, and for each virtual die 2 its slice agents, 3 its
router, 4 its fabric ports, 5 its page swap engine. Every block but a router has one link, to its die's router. -/

/-- The die takes part: it is online or in a remap (R480). -/
def dieCounts (s : State) (v : Nat) : Bool := decide (v < 8) && decide ((getDie s v).state < 2)

/-- The link of its router at which a block stands. -/
def routerLink (kind block : Nat) : Nat :=
  match kind with
  | 0 => block % 256
  | 1 => 256 + block % 256 / 8
  | 2 => 288
  | 4 => 289
  | _ => 290

/-- The block exists. -/
def isBlock (s : State) (kind block : Nat) : Bool :=
  dieCounts s (block / 256) && decide (kind < 6)
    && (match kind with
      | 0 => true
      | 1 => block % 8 == 0
      | _ => block % 256 == 0)

/-- Every block of the module: kind, block. -/
def allBlocks (s : State) : List (Nat × Nat) :=
  ((List.range 8).filter (dieCounts s)).flatMap fun v =>
    ((List.range 256).map fun c => (0, v * 256 + c)) ++ ((List.range 32).map fun i => (1, v * 256 + 8 * i))
      ++ [(2, v * 256), (3, v * 256), (4, v * 256), (5, v * 256)]

/-- The links of a block. -/
def blockLinks (s : State) (kind block : Nat) : List Nat :=
  if kind = 3 then List.range 291 ++ ((List.range 8).filter fun u => dieCounts s u && u != block / 256).map (291 + ·) else [0]

/-- The other end of a block's link: kind, block, link. -/
def linkPeer (kind block link : Nat) : Nat × Nat × Nat :=
  if kind ≠ 3 then (3, block / 256 * 256, routerLink kind block)
  else if link < 256 then (0, block + link, 0)
  else if link < 288 then (1, block + (link - 256) * 8, 0)
  else if link = 288 then (2, block, 0)
  else if link = 289 then (4, block, 0)
  else if link = 290 then (5, block, 0)
  else (3, (link - 291) * 256, 291 + block / 256)

/-- The link exists, with both its ends. -/
def isLink (s : State) (kind block link : Nat) : Bool :=
  isBlock s kind block && (if kind = 3 then decide (link < 299) && isBlock s (linkPeer kind block link).1 (linkPeer kind block link).2.1
    && (linkPeer kind block link != (kind, block, link)) else link == 0)

/-- The number of link ends. -/
def linkEnds (s : State) : Nat :=
  let n := (List.range 8).countP (dieCounts s)
  n * (582 + (n - 1))

/-! ### Packets on links (R478) -/

/-- The link ends by which a packet leaves on its way from one block to another: its block's, its router's, the other router's. -/
def linkPath (a b : Nat × Nat) : List (Nat × Nat × Nat) :=
  let ra := a.2 / 256
  let rb := b.2 / 256
  if a = b then []
  else (a.1, a.2, 0) :: ((if ra = rb then [] else [(3, ra * 256, 291 + rb)]) ++ [(3, rb * 256, routerLink b.1 b.2)])

/-- The number of a link end. -/
def linkKey (e : Nat × Nat × Nat) : Nat := (e.1 * 2048 + e.2.1) * 512 + e.2.2

/-- One more packet has left by each of these link ends. -/
def countLinks (l : Tab Nat) (path : List (Nat × Nat × Nat)) : Tab Nat :=
  path.foldl (fun l e => tabPut 0 (linkKey e) (tabGet 0 (linkKey e) l + 1) l) l

/-- What has left by a link end: packets; of a core, the instructions it has issued (R478). -/
def emitted (s : State) (e : Nat × Nat × Nat) : Nat :=
  if e.1 = 0 then (getCore s e.2.1).issued else tabGet 0 (linkKey e) s.links

/-! ### The cut (R479) -/

/-- The block has latched. -/
def hasLatched (t : Transit) (kind block : Nat) : Bool := t.records.any fun r => r.bkind == kind && r.block == block

/-- Some block has latched and some has not: what one block does meanwhile reaches no other, so that nothing after a latch enters the cut
(R479; log entry 27). -/
def cutOpen (s : State) : Bool :=
  match s.transit with
  | some t => !((allBlocks s).all fun b => hasLatched t b.1 b.2)
  | none => false

end Sys2Proof.Machine
end

