-- ==== Sys2Proof/Machine/Translate.lean ====
section
/-! DEFINITION. Machine/Translate.lean: from a virtual address to storage: the regions of R180 and R181, the page checks
of R206, granules (R185), dies (R438), the remote form (R446) and swizzle (R187). -/

namespace Sys2Proof.Machine

/-- A precise trap: FCODE, TDATA and the ADDR of its record (R397). -/
structure Trap where
  code  : Byte
  tdata : BitVec 48
  addr  : Word
  deriving DecidableEq, Repr

/-- Why an access does not go on: a trap; a swapped page, to be waited for with kind 5; a die that is being remapped,
whose port holds the access (R440). -/
inductive Stop where
  | trap (t : Trap)
  | page (va : Nat)
  | hold
  deriving DecidableEq, Repr

/-- The kinds of access of R206. -/
inductive Access where
  | load
  | store
  | fetch
  deriving DecidableEq, Repr

/-- Which TLBs an access goes through (R410): a core's and its cluster's, a cluster's (engines), none. -/
inductive Via where
  | core (c : Nat)
  | cluster (cl : Nat)
  | walk
  deriving DecidableEq, Repr

/-- On whose behalf: tenant, job, trap level. -/
structure Who where
  tenant : Nat
  job    : Nat
  level  : Nat
  via    : Via
  deriving DecidableEq, Repr

/-- A store or atomic. -/
def Access.writes : Access → Bool
  | .store => true
  | _ => false

/-! ### Traps by name (R397) -/

/-- A trap with its code, TDATA and ADDR as numbers. -/
def mkTrap (code tdata addr : Nat) : Trap := ⟨BitVec.ofNat 8 code, BitVec.ofNat 48 tdata, BitVec.ofNat 64 addr⟩

def trapIllegal (w : Nat) : Trap := mkTrap 1 w 0
def trapEmulation (w : Nat) : Trap := mkTrap 2 w 0
def trapFormat (r : Reg) (tag : Byte) : Trap := mkTrap 3 (r.toNat + tag.toNat * 256) 0
def trapCodeAlign (target : Nat) : Trap := mkTrap 4 0 target
def trapAlign (size addr : Nat) : Trap := mkTrap 5 size addr
def trapPageFault (write : Bool) (addr : Nat) : Trap := mkTrap 6 (b2n write) addr
def trapFetch (unmapped : Bool) (addr : Nat) : Trap := mkTrap 7 (b2n unmapped) addr
def trapPermission (write ctx granule : Bool) (addr : Nat) : Trap :=
  mkTrap 8 (b2n write + b2n ctx * 4 + b2n granule * 8) addr
def trapPageTable (level addr : Nat) : Trap := mkTrap 9 level addr
def trapFloat (f : BitVec 5) : Trap := mkTrap 10 f.toNat 0
def trapRange (r : Reg) : Trap := mkTrap 11 r.toNat 0
def trapPrivileged (w : Nat) : Trap := mkTrap 12 w 0
def trapTileLost (die addr : Nat) : Trap := mkTrap 29 die addr

/-! ### Constants of the address space -/

/-- The base of the device window (R181). -/
def windowBase : Nat := 0xFF000000000000

/-- Mappable bytes of one base die: 238 GiB (R200). -/
def dieBytes : Nat := 238 * 2 ^ 30

/-- log2 of the bytes a leaf at `level` maps (R203). -/
def levelShift (level : Nat) : Nat :=
  match level with
  | 0 => 16
  | 1 => 21
  | 2 => 30
  | _ => 43

/-- The key of the table entry at `level` that covers `va`. -/
def pteKey (level va : Nat) : Nat := level * 2 ^ 56 + va / 2 ^ levelShift level

/-- The part of a number from bit `lo`, `n` bits. -/
def nbits (w lo n : Nat) : Nat := w / 2 ^ lo % 2 ^ n

/-! ### Leaf entries (R204) -/

def leafV (w : Word) : Bool := wbit w 0
/-- LEAF: the entry ends the walk with a translation. -/
def isLeaf (w : Word) : Bool := wbit w 1
def leafR (w : Word) : Bool := wbit w 2
def leafW (w : Word) : Bool := wbit w 3
def leafX (w : Word) : Bool := wbit w 4
def leafCtx (w : Word) : Bool := wbit w 5
def leafSwp (w : Word) : Bool := wbit w 6
def leafSwd (w : Word) : Bool := wbit w 7
def leafHome (w : Word) : Bool := wbit w 8
def leafZe (w : Word) : Bool := wbit w 9
def leafRc (w : Word) : Nat := nbits w.toNat 10 2
/-- ADDR: physical address bits [55:16], or the flash location (R347). -/
def leafAddr (w : Word) : Nat := nbits w.toNat 16 40
/-- The remote form (R446): RM is bit 55 of the physical address. -/
def leafRemote (w : Word) : Bool := !(leafSwd w) && wbit w 55

/-- The gang of a job (R445). -/
def gangOf (s : State) (tenant job : Nat) : Option GangMap := tabFind (tenant * 65536 + job) s.gangs

/-- The gang test of R446 for a remote form that names `vmod`. -/
def gangTest (s : State) (tenant job vmod : Nat) : Bool :=
  match gangOf s tenant job with
  | none => false
  | some g => vmod != g.vmod && g.members.any (fun m => m.1 == vmod)

/-- A frame at `phys` for a page of `level` is aligned and in mappable DRAM (R205, R200). -/
def frameOk (level phys : Nat) : Bool :=
  phys % 2 ^ levelShift level == 0 && decide (phys / 2 ^ 38 < 8) && decide (phys % 2 ^ 38 + 2 ^ levelShift level ≤ dieBytes)

/-- log2 of the size of the table a non-leaf entry at `level` points to (R203). -/
def tableShift (level : Nat) : Nat :=
  match level with
  | 1 => 8
  | 2 => 12
  | _ => 16

/-- A non-leaf entry with a nonzero reserved field or a next table that is not aligned to its size (R204, R205); at level 0 there
is no next table. -/
def nodeBad (level : Nat) (w : Word) : Bool :=
  level == 0 || nbits w.toNat 2 6 != 0 || nbits w.toNat 56 8 != 0 || nbits w.toNat 8 48 * 256 % 2 ^ tableShift level != 0

/-- The reserved combinations of R205 that do not depend on the job, of an entry that ends a walk. -/
def leafShapeBad (level : Nat) (w : Word) : Bool :=
  !(isLeaf w) || decide (3 ≤ level) || nbits w.toNat 12 4 != 0 || nbits w.toNat 56 8 != 0 || (leafW w && !(leafR w)) || (leafX w && leafW w)
    || (leafX w && leafCtx w) || (!(leafSwp w) && (leafSwd w || leafZe w || leafRc w != 0))
    || (leafRemote w && (leafX w || leafSwp w || nbits w.toNat 41 4 != 0
        || !(frameOk level (nbits w.toNat 16 25 * 65536))))
    || (!(leafRemote w) && !(leafSwd w) && !(frameOk level (leafAddr w * 65536)))

/-- The reserved combinations of R205 and R446, for an access of this tenant and job. -/
def leafBad (s : State) (tenant job level : Nat) (w : Word) : Bool :=
  leafShapeBad level w || (leafRemote w && (!(wbit s.accepted.toNat 4) || !(gangTest s tenant job (nbits w.toNat 45 10))))
where wbit (n i : Nat) : Bool := n / 2 ^ i % 2 == 1

/-! ### Walks (R203, R410) -/

/-- The leaf for `va`: the highest level that has one. -/
def leafAt (pt : Tab Word) (va : Nat) : Option (Nat × Word) :=
  [3, 2, 1, 0].findSome? fun level => (tabFind (pteKey level va) pt).map fun w => (level, w)

/-- The non-leaf entries that are not as firmware makes them on the walk for `va` down to a leaf at `leaf`, from the root on. -/
def nodesAbove (nodes : Tab Word) (va leaf : Nat) : List (Nat × Word) :=
  [3, 2, 1].filterMap fun level =>
    if leaf < level then (tabFind (pteKey level va) nodes).map fun w => (level, w) else none

/-- The table entry that decides the walk for `va`: an entry with V = 0 (R206 order 1), else a bad non-leaf entry (order 2), else
the leaf. None where no leaf is reached. -/
def walkTable (x : Tenant) (va : Nat) : Option (Nat × Word) :=
  match leafAt x.ptab va with
  | none => none
  | some (level, w) =>
    let above := nodesAbove x.nodes va level
    match above.find? fun e => !(leafV e.2) with
    | some e => some e
    | none => if leafV w then (match above.find? fun e => isLeaf e.2 || nodeBad e.1 e.2 with
        | some e => some e
        | none => some (level, w)) else some (level, w)

/-- A TLB entry serves this tenant's address. -/
def tlbHits (t va : Nat) (e : TlbEntry) : Bool := e.tenant == t && e.page == va / 2 ^ levelShift e.level

/-- The leaf that translates `va`: the core's TLB, its cluster's, then a walk (R410). -/
def findLeaf (s : State) (who : Who) (va : Nat) : Option (Nat × Word) :=
  let hit := fun (l : List TlbEntry) => (l.find? (tlbHits who.tenant va)).map fun e => (e.level, e.leaf)
  let table := walkTable (getTenant s who.tenant) va
  match who.via with
  | .walk => table
  | .cluster cl => (hit (getCluster s cl).tlb).or table
  | .core c => ((hit (getCore s c).tlb).or (hit (getCluster s (clusterOf c)).tlb)).or table

/-! ### Dies -/

/-- The virtual die that a remap in phase 5 has just moved from physical die `p`: old translations still name `p` (R440). -/
def movedFrom (s : State) (p : Nat) : Option Nat :=
  match s.remap with
  | some r => if r.phase = 5 ∧ r.src = p then some r.die else none
  | none => none

/-- The virtual die that the die map gives for physical die `p`, if any (R201, R437). -/
def virtOf (s : State) (p : Nat) : Option Nat :=
  (movedFrom s p).or <| ((List.range 8).find? fun v => (getDie s v).phys == p && decide ((getDie s v).state < 2)).or
    ((List.range 8).find? fun v => (getDie s v).phys == p && (getDie s v).state == 3)

/-- Accesses to virtual die `v` wait: a remap holds them, phases 3 to 5 (R440), or the cut of a transit is being taken (R479). -/
def dieHeld (s : State) (v : Nat) : Bool :=
  cutOpen s || (match s.remap with
    | some r => r.die == v && decide (3 ≤ r.phase) && decide (r.phase ≤ 5)
    | none => false)

/-- What the state of virtual die `v` makes of an access to `va` (R438, R186). The cut of a transit holds no fetch of an instruction. -/
def dieStop (s : State) (v va : Nat) (a : Access) : Option Stop :=
  match (getDie s v).state with
  | 0 => if cutOpen s && a != .fetch then some .hold else none
  | 1 => if dieHeld s v then some .hold else none
  | 2 => some (.trap (trapPageFault a.writes va))
  | _ => some (.trap (trapTileLost v va))

/-! ### Swizzle (R187) -/

/-- K(p) for offset `o`. -/
def swizzleK (p : BitVec 3) (o : Nat) : Nat :=
  match p.toNat with
  | 0 => 0
  | 7 => Nat.xor (nbits o 8 5) (nbits o 13 5)
  | n => nbits o (7 + n) 5

/-- The physical offset in a vault. -/
def swizzleVault (p : BitVec 3) (o : Nat) : Nat :=
  o / 256 * 256 + Nat.xor (nbits o 3 5) (swizzleK p o) * 8 + o % 8

/-- The physical offset in a local store. -/
def swizzleLocal (p : BitVec 3) (o : Nat) : Nat :=
  o / 128 * 128 + Nat.xor (nbits o 3 4) (swizzleK p o % 16) * 8 + o % 8

/-! ### Regions -/

/-- The parts of the device window (R181), with offsets. -/
inductive Region where
  | paged
  | vault (cl off : Nat)
  | localStore (core off : Nat)
  | mailbox (core off : Nat)
  | tdt (cl off : Nat)
  | reserved
  deriving DecidableEq, Repr

/-- The region of a 56-bit address (R180, R181). -/
def regionOf (va : Nat) : Region :=
  if va < windowBase then .paged
  else
    let o := va - windowBase
    if o < 2 ^ 32 then .vault (o / 2 ^ 24) (o % 2 ^ 24)
    else if o < 2 ^ 32 + 2 ^ 28 then .localStore ((o - 2 ^ 32) / 2 ^ 17) ((o - 2 ^ 32) % 2 ^ 17)
    else if 0x110000000 ≤ o ∧ o < 0x110000000 + 2 ^ 21 then .mailbox ((o - 0x110000000) / 1024) ((o - 0x110000000) % 1024)
    else if 0x120000000 ≤ o ∧ o < 0x120000000 + 2 ^ 25 then .tdt ((o - 0x120000000) / 2 ^ 17) ((o - 0x120000000) % 2 ^ 17)
    else .reserved

/-- The key of byte `off` of the vault of cluster `cl`. -/
def vaultKey (cl off : Nat) : Nat := windowBase + cl * 2 ^ 24 + off

/-- The key of byte `off` of the local store of core `c`. -/
def localKey (c off : Nat) : Nat := windowBase + 2 ^ 32 + c * 2 ^ 17 + off

/-- VAULT_DATA of cluster `cl` (R184). -/
def vaultData (s : State) (cl : Nat) : Nat := 2 ^ 24 - (getCluster s cl).cl2Mib * 2 ^ 20

/-- The granule of a vault offset, and of a local-store offset, as keys of the ownership table (R185). -/
def vaultGranule (cl off : Nat) : Nat := cl * 256 + off / 65536

/-- The granule of a local-store offset. -/
def localGranule (c off : Nat) : Nat := 2 ^ 20 + c * 32 + off / 4096

/-- Tenant `t` owns granule `gr` (R185). -/
def owns (s : State) (t gr : Nat) : Bool := tabFind gr s.owner == some t

/-- The offset lies in the scale table of the heliostat (R343). -/
def inScaleTable (s : State) (core off : Nat) : Bool :=
  (getCluster s (clusterOf core)).helio == core % 8 && decide (0x10000 ≤ off)

/-- The check of R206 on a leaf, in its order. -/
def checkLeaf (s : State) (who : Who) (a : Access) (va : Nat) : Option (Nat × Word) → Except Stop (Nat × Word)
  | none => .error (.trap (if a = .fetch then trapFetch true va else trapPageFault a.writes va))
  | some (level, w) =>
    if !(leafV w) then .error (.trap (if a = .fetch then trapFetch true va else trapPageFault a.writes va))
    else if leafBad s who.tenant who.job level w then .error (.trap (trapPageTable level va))
    else if a = .fetch ∧ !(leafX w) then .error (.trap (trapFetch false va))
    else if a ≠ .fetch ∧ (!(leafR w) || (a.writes && !(leafW w)) || (who.level == 0 && leafCtx w)) then
      .error (.trap (trapPermission a.writes (leafCtx w) false va))
    else if leafSwd w then .error (.page va)
    else .ok (level, w)

/-- Where an access to the paged region lands. -/
def locatePaged (s : State) (who : Who) (a : Access) (va : Nat) : Except Stop Loc :=
  match checkLeaf s who a va (findLeaf s who va) with
  | .error e => .error e
  | .ok (level, w) =>
    let off := va % 2 ^ levelShift level
    if leafRemote w then .ok (.remote (nbits w.toNat 45 10) (nbits w.toNat 16 25 * 65536 + off))
    else
      let phys := leafAddr w * 65536 + off
      match virtOf s (phys / 2 ^ 38) with
      | none => .error (.trap (trapPageFault a.writes va))
      | some v => match dieStop s v va a with
        | some e => .error e
        | none => .ok (.cell phys)

/-- Where a thread's access to `va` lands (R206, R182, R184 to R188, R343, R438), with its swizzle. -/
def locate (s : State) (who : Who) (a : Access) (va : Nat) (swz : BitVec 3) : Except Stop Loc :=
  let wr := a.writes
  let guardDie (die : Nat) (k : Except Stop Loc) : Except Stop Loc :=
    match dieStop s die va a with
    | some e => .error e
    | none => k
  if 2 ^ 56 ≤ va then .error (.trap (trapPageFault wr va))
  else match regionOf va with
    | .paged => locatePaged s who a va
    | .reserved => .error (.trap (trapPageFault wr va))
    | .vault cl off => guardDie (dieOfCluster cl) (
        if vaultData s cl ≤ off then .error (.trap (trapPermission wr false false va))
        else if !(owns s who.tenant (vaultGranule cl off)) then .error (.trap (trapPermission wr false true va))
        else .ok (.cell (vaultKey cl (swizzleVault swz off))))
    | .localStore c off => guardDie (dieOf c) (
        if inScaleTable s c off then .error (.trap (trapPermission wr false false va))
        else if !(owns s who.tenant (localGranule c off)) then .error (.trap (trapPermission wr false true va))
        else .ok (.cell (localKey c (swizzleLocal swz off))))
    | .mailbox c off => guardDie (dieOf c) (.ok (.mbox c off))
    | .tdt cl off => guardDie (dieOfCluster cl) (
        if wr then .error (.trap (trapPermission true false false va)) else .ok (.tdt cl off))

/-- The address lies in the device window or above. -/
def isWindow (va : Nat) : Bool := decide (windowBase ≤ va)

/-- The virtual die whose DRAM holds physical address `phys` (R209). -/
def homeDie (s : State) (phys : Nat) : Option Nat := virtOf s (phys / 2 ^ 38)

/-- The virtual slice of a cell (R201): DRAM or vault; local stores belong to no slice. -/
def sliceOf (s : State) (key : Nat) : Option Nat :=
  if key < windowBase then
    (virtOf s (key / 2 ^ 38)).map fun v => v * 64 + nbits key 16 2 * 16 + nbits key 12 4
  else if key - windowBase < 2 ^ 32 then some (512 + (key - windowBase) / 2 ^ 24)
  else none

end Sys2Proof.Machine
end

