-- ==== Sys2Proof/Machine/Ops.lean ====
section
/-! DEFINITION. Machine/Ops.lean: the named operations the meanings share: storage at a location, wakes, posts, the page
state table's first moves, fault records, taking a trap, and the return from one. -/

namespace Sys2Proof.Machine

/-! ### Wait tags (R31) -/

/-- A wait tag of a kind and a target. -/
def waitTag (kind target : Nat) : Word := BitVec.ofNat 64 (kind * 2 ^ 60 + target)

/-- The kind of a wait tag. -/
def waitKind (w : Word) : Nat := w.toNat / 2 ^ 60

/-- The target of a wait tag. -/
def waitTarget (w : Word) : Nat := w.toNat % 2 ^ 60

/-- The tag's kind is reserved, or its target has bits outside the fields of its kind (R33). -/
def tagCorrupt (w : Word) : Bool :=
  let t := waitTarget w
  match waitKind w with
  | 0 => t != 0
  | 1 => decide (2 ^ 3 ≤ t)
  | 2 | 3 | 5 | 7 => decide (2 ^ 56 ≤ t)
  | 4 => decide (2 ^ 49 ≤ t)
  | 6 => decide (2 ^ 42 ≤ t)
  | 8 => decide (2 ^ 56 ≤ t)
  | 9 | 10 | 11 => t != 0
  | _ => true

/-! ### Storage at a location -/

/-- A counter's entry of the mailbox file as a number (R148). -/
def counterEntry (c : Counter) : Nat :=
  c.cnt.toNat + c.exp.toNat * 2 ^ 32 + c.tenant * 2 ^ 64 + b2n c.valid * 2 ^ 72 + b2n c.ovf * 2 ^ 73

/-- A TDT entry as a number (R191). -/
def tdtNat (e : TdtEntry) : Nat :=
  e.base.toNat + e.rowsm1.toNat * 2 ^ 32 + e.colsm1.toNat * 2 ^ 44 + e.fmt.toNat * 2 ^ 56 + e.swz.toNat * 2 ^ 60
    + b2n e.axis * 2 ^ 63 + e.stride.toNat * 2 ^ 64 + e.bexp.toNat * 2 ^ 96 + e.gen.toNat * 2 ^ 128 + e.state.toNat * 2 ^ 140
    + e.tenant.toNat * 2 ^ 142 + b2n e.scv * 2 ^ 150 + e.sglog.toNat * 2 ^ 151 + e.scidx.toNat * 2 ^ 160

/-- The TDT entry a 256-bit number lays out (R191). -/
def tdtOf (n : Nat) : TdtEntry where
  base := BitVec.ofNat 24 n
  rowsm1 := BitVec.ofNat 12 (n / 2 ^ 32)
  colsm1 := BitVec.ofNat 12 (n / 2 ^ 44)
  fmt := BitVec.ofNat 4 (n / 2 ^ 56)
  swz := BitVec.ofNat 3 (n / 2 ^ 60)
  axis := nbits n 63 1 == 1
  stride := BitVec.ofNat 24 (n / 2 ^ 64)
  bexp := BitVec.ofNat 24 (n / 2 ^ 96)
  gen := BitVec.ofNat 12 (n / 2 ^ 128)
  state := BitVec.ofNat 2 (n / 2 ^ 140)
  tenant := BitVec.ofNat 8 (n / 2 ^ 142)
  scv := nbits n 150 1 == 1
  sglog := BitVec.ofNat 4 (n / 2 ^ 151)
  scidx := BitVec.ofNat 16 (n / 2 ^ 160)

/-- The `n` bytes a read by tenant `t` finds at a location (R148, R190). A remote location is not read here. -/
def readLoc (s : State) (t : Nat) (l : Loc) (n : Nat) : Nat :=
  match l with
  | .cell k => memRead s.memory k n
  | .mbox c off =>
    let e := getCounter s c (off / 16)
    if e.valid && e.tenant == t then nbits (counterEntry e) (8 * (off % 16)) (8 * n) else 0
  | .tdt cl off =>
    let e := getTdt s cl (off / 32)
    if (e.state == 1 || e.state == 2) && e.tenant.toNat == t then nbits (tdtNat e) (8 * (off % 32)) (8 * n) else 0
  | .remote _ _ => 0
  | .virt _ => 0

/-- The cell a waiter's address names now, without checks: window bytes unswizzled, or DRAM. -/
def cellOf (s : State) (t va : Nat) : Option Nat :=
  match regionOf va with
  | .paged => match walkTable (getTenant s t) va with
    | some (lv, w) =>
      if leafV w && isLeaf w && !(leafSwd w) && !(leafRemote w) then some (leafAddr w * 65536 + va % 2 ^ levelShift lv) else none
    | none => none
  | .vault cl off => some (vaultKey cl off)
  | .localStore c off => some (localKey c off)
  | _ => none

/-- The VMOD and the physical address of the DRAM of another member in which the image at `va` lies (R446, R447). -/
def remoteImage (s : State) (t va : Nat) : Option (Nat × Nat) :=
  match regionOf va with
  | .paged => match walkTable (getTenant s t) va with
    | some (lv, w) =>
      if leafV w && isLeaf w && leafRemote w then some (nbits w.toNat 45 10, nbits w.toNat 16 25 * 65536 + va % 2 ^ levelShift lv) else none
    | none => none
  | _ => none

/-- This module's member number for a job (R445). -/
def vmodOf (s : State) (tenant job : Nat) : Nat :=
  match gangOf s tenant job with
  | some g => g.vmod
  | none => 0

/-- The home directory of the line at an address is held with its die by a remap (R440). -/
def addrHeld (s : State) (t a : Nat) : Bool :=
  match cellOf s t a with
  | some k => (homeDie s k).any (dieHeld s)
  | none => false

/-- The home directory of a line is held. -/
def dirHeld (s : State) (x : LiveLine) : Bool := addrHeld s x.tenant x.addr

/-- A gang switch of this job is under way or has it saved (R129, R460). -/
def jobFrozen (s : State) (tenant job : Nat) : Bool :=
  s.switches.any fun w => w.tenant == tenant && w.job == job && w.phase != 0

/-- The block at which the bytes of a location are (R423). -/
def blockOfLoc (s : State) (t : Nat) (l : Loc) : Option (Nat × Nat) :=
  match l with
  | .cell k =>
    if k < windowBase then (homeDie s k).map fun v => (2, v * 256)
    else if k - windowBase < 2 ^ 32 then some (2, (k - windowBase) / 2 ^ 29 * 256)
    else some (0, (k - windowBase - 2 ^ 32) / 2 ^ 17)
  | .mbox c _ => some (0, c)
  | .tdt cl _ => some (1, cl * 8)
  | .remote _ _ => none
  | .virt va => ((cellOf s t va).bind (homeDie s)).map fun v => (2, v * 256)

/-- The block that sends a packet: the core that issued it, what answers another member, or the fabric ports by which it came (log
entry 27). -/
def sourceOf (s : State) (p : Pkt) : Nat × Nat :=
  if p.src = vmodOf s p.tenant p.job then
    if p.dst = p.src then (0, p.core) else (blockOfLoc s p.tenant p.loc).getD (0, p.core)
  else (4, p.bufId / 2 * 256)

/-- The block for which a packet is: that of its bytes, of a queue's table entry, or the fabric ports of the die it comes from. -/
def goalOf (s : State) (p : Pkt) : Nat × Nat :=
  if p.dst ≠ vmodOf s p.tenant p.job then (4, (sourceOf s p).2 / 256 * 256)
  else (match p.body with
    | .push _ _ => blockOfLoc s p.tenant (.virt p.target)
    | _ => blockOfLoc s p.tenant p.loc).getD (sourceOf s p)

/-- Send a packet; it is counted on the links of its way (R478). -/
def sendPkt (s : State) (p : Pkt) : State :=
  { s with net := s.net ++ [p], nextId := s.nextId + 1, links := countLinks s.links (linkPath (sourceOf s p) (goalOf s p)) }

/-- Write the 128 bytes of the image of line `x` in the DRAM of another member: job packets (R459), but for the write-backs of phase 6 of
a gang switch, which the other member has to serve (R460, log entry 23). -/
def sendBytes (s : State) (x : LiveLine) (bytes : List Byte) (v p : Nat) : State :=
  (List.range 16).foldl (fun s i => sendPkt s
    { id := s.nextId, name := s.nextId, body := .write 8 (BitVec.ofNat 64 (leNat ((bytes.drop (8 * i)).take 8))) none,
      ans := jobFrozen s x.tenant x.line.job.toNat, src := vmodOf s x.tenant x.line.job.toNat, dst := v,
      tenant := x.tenant, job := x.line.job.toNat, line := x.addr + 1, core := 0, target := x.addr + 8 * i,
      loc := .remote v (p + 8 * i), dmgen := s.dmgen, bufClass := 0, bufId := 0, vc := 0 }) s

/-- Write the image of line `x`, with content `l`, in the DRAM of another member. -/
def sendImage (s : State) (x : LiveLine) (l : Line) (v p : Nat) : State := sendBytes s x (lineBytes l) v p

/-- The line stands in its image with content `l`, written where the image lies; a line whose image lies on another member keeps
its content beside it. None while the image's page is swapped. -/
def intoImage (s : State) (x : LiveLine) (l : Line) : Option State :=
  match cellOf s x.tenant x.addr with
  | some k => some (putLine { s with memory := memPut s.memory k (lineBytes l) } { x with place := .dram, line := l })
  | none => (remoteImage s x.tenant x.addr).map fun r =>
    putLine (sendImage s x l r.1 r.2) { x with place := .dram, line := l }

/-- A line has an image that can be written: its page is in memory, here or on another member. -/
def hasImage (s : State) (x : LiveLine) : Bool :=
  (cellOf s x.tenant x.addr).isSome || (remoteImage s x.tenant x.addr).isSome

/-- The wait tag of a line: of the image when the line is in DRAM. -/
def tagOf (s : State) (x : LiveLine) : Word :=
  match x.place with
  | .dram => match cellOf s x.tenant x.addr with
    | some k => memWord s.memory (k + 80)
    | none => x.line.wait
  | _ => x.line.wait

/-- Send a wake to every waiting line whose wait tag meets a test (R146). -/
def sendWakes (s : State) (p : LiveLine → Word → Bool) : State :=
  let hits := s.lines.filterMap fun x =>
    let w := tagOf s x
    if w ≠ 0 ∧ p x w then some ⟨x.tenant, x.addr, .wake w, none, s.dmgen⟩ else none
  { s with msgs := s.msgs ++ hits }

/-- A line goes to the end of the DRAM ready list of the cluster whose CL2 last held it (R129). -/
def enterReady (s : State) (x : LiveLine) : State :=
  let cl := getCluster s x.lastCl
  if cl.ready.contains (x.tenant, x.addr) then s
  else setCluster s x.lastCl { cl with ready := cl.ready ++ [(x.tenant, x.addr)] }

/-- A store to the `n` bytes from `k` up has left a corrupt wait tag in the image of this line, which nobody holds (R33). -/
def leftCorrupt (s : State) (k n : Nat) (x : LiveLine) : Bool :=
  x.place == .dram && !(x.clm) && !(x.fw) && (match cellOf s x.tenant x.addr with
    | some i => decide (i + 80 < k + n) && decide (k < i + 88) && tagCorrupt (memWord s.memory (i + 80))
    | none => false)

/-- Lines whose image a store has left corrupt enter a DRAM ready list, whose fill parks and reports them (R33). -/
def noteCorrupt (s : State) (k n : Nat) : State := (s.lines.filter (leftCorrupt s k n)).foldl enterReady s

/-- A watched cell lies in the 64-byte line of `k`. -/
def sameLine (k k' : Nat) : Bool := k / 64 == k' / 64

/-- A store was performed to the cells from `k` up: it wakes the value waits and join waits on the 64-byte line, on this
member and from other members (R146, R447). -/
def wakeStored (s : State) (k : Nat) : State :=
  let s := sendWakes s fun x w =>
    (waitKind w == 3 || waitKind w == 7) && (match cellOf s x.tenant (waitTarget w) with
      | some k' => sameLine k k'
      | none => false)
  let hit := fun (p : Pkt) => match p.loc with
    | .cell k' => sameLine k k'
    | _ => false
  let outs := (s.watch.filter hit).flatMap fun p =>
    [3, 7].map fun kind => { p with body := .wake (waitTag kind p.target), ans := false, src := p.dst, dst := p.src }
  outs.foldl (fun s p => sendPkt s { p with id := s.nextId }) { s with watch := s.watch.filter fun p => !(hit p) }

/-- The full/empty bit of the word at `k` changed: it wakes the waits of kind 2 on it. The tag holds the address before
swizzle, so every wait in the word's 256 bytes tries again (log entry 12). -/
def wakeFullEmpty (s : State) (k : Nat) : State :=
  sendWakes s fun x w => waitKind w == 2 && (match cellOf s x.tenant (waitTarget w) with
    | some k' => k / 256 == k' / 256
    | none => false)

/-- A store to a 64-byte line of a mailbox window wakes the value waits and join waits on it (R31, R171). -/
def wakeMailbox (s : State) (c off : Nat) : State :=
  sendWakes s fun _ w => (waitKind w == 3 || waitKind w == 7) && (match regionOf (waitTarget w) with
    | .mailbox c' off' => c' == c && off' / 64 == off / 64
    | _ => false)

/-- Perform a store of the low `n` bytes of `v` at a location (R113, R148). -/
def writeLoc (s : State) (l : Loc) (n v : Nat) : State :=
  match l with
  | .cell k => noteCorrupt (wakeStored { s with memory := memWrite s.memory k n v } k) k n
  | .mbox c off =>
    let i := off / 16
    let byte9 := v / 256 ^ (9 - off % 16)
    let s := wakeMailbox s c off
    if off % 16 ≤ 9 ∧ 9 < off % 16 + n ∧ nbits byte9 1 1 = 1 then
      setCounter s c i { getCounter s c i with ovf := false }
    else s
  | .tdt _ _ => s
  | .remote _ _ => s
  | .virt _ => s

/-- A plain store to the mailbox window is allowed when its bytes include byte 9 of a valid counter of the tenant (R148). -/
def mailboxStoreOk (s : State) (t c off n : Nat) : Bool :=
  let e := getCounter s c (off / 16)
  decide (off % 16 ≤ 9) && decide (9 < off % 16 + n) && e.valid && e.tenant == t

/-- Where a plain store of `n` bytes lands (R113, R148). -/
def locateStore (s : State) (who : Who) (va n : Nat) (swz : BitVec 3) : Except Stop Loc :=
  match locate s who .store va swz with
  | .ok (.mbox c off) =>
    if mailboxStoreOk s who.tenant c off n then .ok (.mbox c off) else .error (.trap (trapPermission true false false va))
  | r => r

/-- Where a store that R148's exception does not cover lands. -/
def locateWrite (s : State) (who : Who) (va : Nat) (swz : BitVec 3) : Except Stop Loc :=
  match locate s who .store va swz with
  | .ok (.mbox _ _) => .error (.trap (trapPermission true false false va))
  | r => r

/-! ### Mailbox counters (R149) -/

/-- The counter a name names: core in [16:6], index in [5:0] (R173). -/
def counterCore (name : Nat) : Nat := nbits name 6 11

/-- The index of a counter name. -/
def counterIndex (name : Nat) : Nat := nbits name 0 6

/-- The counter is valid for tenant `t`, on a die that is not lost (R149, R443). -/
def counterOk (s : State) (t name : Nat) : Bool :=
  let e := getCounter s (counterCore name) (counterIndex name)
  e.valid && e.tenant == t && (getDie s (dieOf (counterCore name))).state != 3

/-- Wake every waiter of a counter (R146). -/
def wakeCounter (s : State) (name : Nat) : State :=
  sendWakes s fun _ w => waitKind w == 4 && nbits (waitTarget w) 32 6 == counterIndex name
    && nbits (waitTarget w) 38 11 == counterCore name

/-- A dropped post or push raises the tenant's bounce count (R149, R151). -/
def bounce (s : State) (t : Nat) : State := modTenant s t fun x => { x with qbounce := x.qbounce + 1 }

/-- A post of `inc` by an agent of tenant `t`: applied, or none when it is dropped (R149). -/
def applyPost (s : State) (t name inc : Nat) : Option State :=
  if counterOk s t name then
    let e := getCounter s (counterCore name) (counterIndex name)
    some (wakeCounter (setCounter s (counterCore name) (counterIndex name) { e with cnt := e.cnt + BitVec.ofNat 32 inc }) name)
  else none

/-- A post whose drop raises the bounce count. -/
def postOrBounce (s : State) (t name inc : Nat) : State := (applyPost s t name inc).getD (bounce s t)

/-! ### The page state table: what an access to a swapped page starts (R349, R350) -/

/-- The page of `level` that holds `va`. -/
def pageBase (level va : Nat) : Nat := va / 2 ^ levelShift level * 2 ^ levelShift level

/-- Set the table entry of `level` for `va` (firmware, R203). -/
def setLeaf (s : State) (t level va : Nat) (w : Word) : State :=
  modTenant s t fun x => { x with ptab := tabIns (pteKey level va) w x.ptab }

/-- A leaf with ADDR and SWD replaced. -/
def leafWith (w : Word) (swd : Bool) (addr : Nat) : Word :=
  BitVec.ofNat 64 (nbits w.toNat 0 7 + b2n swd * 128 + nbits w.toNat 8 8 * 256 + addr * 65536)

/-- Threads that wait for any address of the page become ready (R350). -/
def wakePage (s : State) (t level va : Nat) : State :=
  sendWakes s fun x w => x.tenant == t && waitKind w == 5 && pageBase level (waitTarget w) == pageBase level va

/-- The swap engine and the running swap-out of this page, if any. -/
def swapOutJob (s : State) (t level va : Nat) : Option (Nat × Cmd) :=
  (List.range 8).findSome? fun v =>
    ((getDie s v).swap.running.find? fun c => match c.op with
      | .swpout a => c.tenant == t && pageBase level a == pageBase level va
      | _ => false).map fun c => (1024 + v, c)

/-- Wake the waiters of a job that has become final (R386): kind 8 with its job number. -/
def wakeJob (s : State) (eng : Nat) (entry : Nat) : State :=
  let ecoord := if eng < 1024 then eng / 4 * 8 else (eng - 1024) * 256
  let engno := if eng < 1024 then eng % 4 else 4
  sendWakes s fun _ w => waitKind w == 8 && nbits (waitTarget w) 0 4 == engno && nbits (waitTarget w) 4 11 == ecoord
    && nbits (waitTarget w) 15 9 == entry

/-- Give a job its final status and wake its waiters (R312, R313). -/
def finishJob (s : State) (eng entry : Nat) (f : JobEntry → JobEntry) : State :=
  let e := getEngine s eng
  let s := match tabFind entry e.jobs with
    | some j => setEngine s eng { e with jobs := tabIns entry (f j) e.jobs }
    | none => s
  wakeJob s eng entry

/-- The completion post of a command (R357). -/
def completionPost (s : State) (c : Cmd) : State :=
  match c.post with
  | some (core, i) => postOrBounce s c.tenant (core * 64 + i) 1
  | none => s

/-- Undo a swap-out: the page is resident again with its frame, its waiters are woken, its job is done with ABORT (R349). -/
def swapAbort (s : State) (t level va : Nat) (w : Word) (m : PageMove) : State :=
  let frame := m.frame.getD 0
  let s := setLeaf s t level va (leafWith w false (frame / 65536))
  let s := modTenant s t fun x =>
    { x with moves := tabDel (pteKey level va) x.moves, flashUse := x.flashUse - 17 * 2 ^ (levelShift level - 16) }
  let s := match swapOutJob s t level va with
    | some (eng, c) =>
      let e := getEngine s eng
      let s := setEngine s eng { e with running := e.running.filter fun d => d.entry != c.entry }
      finishJob (completionPost s c) eng c.entry fun j => { j with state := 4, abort := true }
    | none => s
  wakePage s t level va

/-- Start the swap-in of the page that holds `va`: undo a swap-out under way, or take a frame (R349, R350). Answers whether
the first wait on an empty frame pool must be reported. -/
def swapInCore (s : State) (t va : Nat) : State × Bool :=
  match walkTable (getTenant s t) va with
  | some (level, w) =>
    if leafV w && isLeaf w && leafSwd w then
      match tabFind (pteKey level va) (getTenant s t).moves with
      | some m => if m.outbound then (swapAbort s t level va w m, false) else (s, false)
      | none =>
        let x := getTenant s t
        match x.frames.find? fun f => f % 4 == level with
        | some f =>
          (setTenant s t { x with frames := x.frames.filter (· != f),
                                  moves := tabIns (pteKey level va) ⟨level, false, some (f / 4), leafAddr w, none⟩ x.moves }, false)
        | none =>
          (setTenant s t { x with frameNote := true,
                                  moves := tabIns (pteKey level va) ⟨level, false, none, leafAddr w, none⟩ x.moves },
            !(x.frameNote))
    else (s, false)
  | none => (s, false)

/-! ### Fault records (R398, R399) -/

/-- The words of a fault record (R398). -/
def faultWords (r : FaultRec) : List Nat :=
  [r.line, r.pc.toNat + r.fcode.toNat * 2 ^ 48 + r.level.toNat * 2 ^ 56 + r.source * 2 ^ 58 + b2n r.hnd * 2 ^ 61,
    r.addr.toNat, r.tdata.toNat + r.job * 2 ^ 48]

/-- What the fault queue does with the next record: written at a key (with its address), held, or lost. -/
inductive RecPlace where
  | at_ (key va : Nat)
  | held (va : Nat)
  | lost
  deriving DecidableEq, Repr

/-- The place of the next record of tenant `t` (R399 items 1 and 2). A record whose place lies on a die that is being remapped waits
with the accesses to that die (R440). -/
def recordPlace (s : State) (t : Nat) : RecPlace :=
  let x := getTenant s t
  let h := x.heldRecs.length
  if x.fqBase = 0 ∨ (x.fqTail + BitVec.ofNat 32 h - x.fqHead).toNat = 2 ^ x.fqLog2 then .lost
  else
    let va := x.fqBase.toNat + 32 * ((x.fqTail.toNat + h) % 2 ^ x.fqLog2)
    match locate s ⟨t, 0, 1, .walk⟩ .store va 0 with
    | .ok (.cell k) => if h = 0 then .at_ k va else .held va
    | .ok _ => .lost
    | .error (.page va) => .held va
    | .error .hold => .held va
    | .error (.trap _) => .lost

/-- Write a record at its place and advance FQ_TAIL; then the post of FQ_MBX, or a FAULTNOTE (R399 items 3 and 4, R457). -/
def recordWrite (s : State) (t key : Nat) (r : FaultRec) : State :=
  let ws := faultWords r
  let s := writeLoc s (.cell key) 8 (ws.getD 0 0)
  let s := writeLoc s (.cell (key + 8)) 8 (ws.getD 1 0)
  let s := writeLoc s (.cell (key + 16)) 8 (ws.getD 2 0)
  let s := writeLoc s (.cell (key + 24)) 8 (ws.getD 3 0)
  let s := modTenant s t fun x => { x with fqTail := x.fqTail + 1 }
  let x := getTenant s t
  if x.fqMbx.getLsbD 17 then postOrBounce s t (nbits x.fqMbx.toNat 0 17) 1
  else toHost s (.faultNote t x.fqTail)

/-- A record that follows held ones is held behind them, or lost (R399 items 1 and 2). -/
def holdRecord (s : State) (t : Nat) (r : FaultRec) : State :=
  match recordPlace s t with
  | .lost => modTenant s t fun x => { x with fqLost := x.fqLost + 1 }
  | _ => modTenant s t fun x => { x with heldRecs := x.heldRecs ++ [r] }

/-- The address of the page that holds `va`. -/
def pageAddr (s : State) (t va : Nat) : Nat :=
  match walkTable (getTenant s t) va with
  | some (level, _) => pageBase level va
  | none => va

/-- The record of a swap-in that waits for a frame (R350, R397): ADDR is the page's address. -/
def frameRecord (s : State) (t va : Nat) : FaultRec := ⟨0, 0, 71, 0, 3, false, BitVec.ofNat 64 (pageAddr s t va), 0, 0⟩

/-- Start the swap-in of the page a record is held for; the record of an empty frame pool is held with it (R350, R399). -/
def swapInHeld (s : State) (t va : Nat) : State :=
  let r := swapInCore s t va
  if r.2 then holdRecord r.1 t (frameRecord r.1 t va) else r.1

/-- Write the held records whose page has landed, in order (R399 item 3); a swap-out that a record ends makes its page resident at once. -/
def flushHeld (s : State) (t : Nat) : Nat → State
  | 0 => s
  | n + 1 =>
    match (getTenant s t).heldRecs with
    | [] => s
    | r :: rest =>
      let s0 := modTenant s t fun x => { x with heldRecs := [] }
      match recordPlace s0 t with
      | .at_ k _ =>
        let s1 := recordWrite s0 t k r
        flushHeld (modTenant s1 t fun x => { x with heldRecs := rest ++ x.heldRecs }) t n
      | .held va => flushHeld (swapInHeld s t va) t n
      | .lost => flushHeld (modTenant s t fun x => { x with heldRecs := rest, fqLost := x.fqLost + 1 }) t n

/-- Write the last bytes of a retired root, or keep them until its page lands or a remap lets its die go (R134, R440). -/
def putRoot (s : State) (t : Nat) (r : Nat × List Byte) : State :=
  match if addrHeld s t r.1 then none else cellOf s t r.1 with
  | some k => { s with memory := memPut s.memory k r.2 }
  | none => modTenant s t fun x => { x with heldRoots := x.heldRoots ++ [r] }

/-- Write every held record and every retired root of the tenant that can be written now. -/
def flushAll (s : State) (t : Nat) : State :=
  let roots := (getTenant s t).heldRoots
  let s := roots.foldl (fun s r => putRoot s t r) (modTenant s t fun x => { x with heldRoots := [] })
  flushHeld s t (2 * (getTenant s t).heldRecs.length + 2)

/-- Report a fault of tenant `t`; answers the record's address when it was written at once (R399). A swap-out under way ends when
a record needs its page, and the record is then written. -/
def writeRecord (s : State) (t : Nat) (r : FaultRec) : State × Nat :=
  match recordPlace s t with
  | .at_ k va => (recordWrite s t k r, va)
  | .held va =>
    let s := flushAll (swapInHeld (modTenant s t fun x => { x with heldRecs := x.heldRecs ++ [r] }) t va) t
    (s, if (getTenant s t).heldRecs.isEmpty then va else 0)
  | .lost => (modTenant s t fun x => { x with fqLost := x.fqLost + 1 }, 0)

/-- Report a fault whose record's address nobody uses. -/
def report (s : State) (t : Nat) (r : FaultRec) : State := (writeRecord s t r).1

/-- An access found a swapped page: start its swap-in (R206 order 4), report an empty frame pool (R350), and write the records that
an ended swap-out lets through (R399). -/
def startSwapIn (s : State) (t va : Nat) : State :=
  let r := swapInCore s t va
  flushAll (if r.2 then report r.1 t (frameRecord r.1 t va) else r.1) t

/-! ### Taking a trap (R46, R396, R401, R403) -/

/-- The line with a trap taken: parked with kind 10, FCODE and TDATA set; PC keeps the trapping instruction's address. -/
def parkLine (l : Line) (t : Trap) : Line :=
  { l with wait := waitTag 10 0, fcode := t.code, tdata := t.tdata }

/-- The fault record of a line's trap (R398). -/
def lineRecord (x : LiveLine) (t : Trap) (hnd : Bool) : FaultRec :=
  ⟨x.addr, x.line.pc, t.code, x.line.tlvl, 0, hnd, t.addr, t.tdata, x.line.job.toNat⟩

/-- What the vector table says for a code: no handler, a handler's entry, or a page to wait for (R400). -/
inductive Vector_ where
  | none_
  | entry (pc : BitVec 48)
  | wait (va : Nat)
  deriving DecidableEq, Repr

/-- Read entry `code` of tenant `t`'s vector table (R400); an entry on a swapped page, or on a die that is being remapped, is waited
for (R440). -/
def readVector (s : State) (t : Nat) (code : Byte) : Vector_ :=
  let va := (getTenant s t).trapvec.toNat + 8 * code.toNat
  match locate s ⟨t, 0, 1, .walk⟩ .load va 0 with
  | .ok (.cell k) =>
    let w := memWord s.memory k
    if wbit w 63 && nbits w.toNat 48 15 == 0 && nbits w.toNat 0 2 == 0 then .entry (w.extractLsb' 0 48) else .none_
  | .ok _ => .none_
  | .error (.page va) => .wait va
  | .error .hold => .wait va
  | .error (.trap _) => .none_

/-- The core on which a line is. -/
def coreOfPlace : Place → Nat
  | .slot c _ => c
  | .cl1 c => c
  | .cl2 cl => cl * 8
  | .dram => 0
  | .flight c => c
  | .saved c => c
  | .away _ _ => 0

/-- Dispatch a level-0 trap whose line is parked: the vector entry, the record, and a handler to be created (R401). -/
def dispatchTrap (s : State) (x : LiveLine) (t : Trap) (core : Nat) : State :=
  match readVector s x.tenant t.code with
  | .none_ => report s x.tenant (lineRecord x t false)
  | .entry pc =>
    let (s, va) := writeRecord s x.tenant (lineRecord x t true)
    { s with pending := s.pending ++ [⟨x.tenant, x.addr, core, lineRecord x t true, BitVec.ofNat 64 va, pc, false⟩] }
  | .wait va =>
    let s := startSwapIn s x.tenant va
    { s with pending := s.pending ++ [⟨x.tenant, x.addr, core, lineRecord x t false, 0, 0, true⟩] }

/-- A line as it stands when its claim ends by release (R407): kind 10 stays parked and a corrupt tag stays for the device to
find (R33); another wait is cleared. -/
def releasedTag (w : Word) : Word := if waitKind w == 10 || tagCorrupt w then w else 0

/-- A claimed line, in its DRAM image, is claimed no more, with wait tag `w`; a ready one, and one whose tag is corrupt, enters a
DRAM ready list (R407, R33). -/
def releaseLine (s : State) (y : LiveLine) (w : Word) : State :=
  let s := match cellOf s y.tenant y.addr with
    | some k => { s with memory := memWrite s.memory (k + 80) 8 w.toNat }
    | none => match remoteImage s y.tenant y.addr with
      | some r => sendImage s y { y.line with wait := w } r.1 r.2
      | none => s
  let s := putLine s { y with clm := false, holder := 0, pull := false, line := { y.line with wait := w } }
  if (w = 0 ∨ tagCorrupt w = true) ∧ y.fw = false then
    let cl := getCluster s y.lastCl
    setCluster s y.lastCl { cl with ready := cl.ready ++ [(y.tenant, y.addr)] }
  else s

/-- Word that the line's claim has ended is on its way to its home directory. -/
def releasing (s : State) (y : LiveLine) : Bool :=
  s.msgs.any fun m => m.tenant == y.tenant && m.addr == y.addr && (match m.body with
    | .release _ => true
    | _ => false)

/-- The lines that the line of tenant `t` at `holder` holds. -/
def heldLines (s : State) (t holder : Nat) : List LiveLine :=
  s.lines.filter fun y => y.tenant == t && y.clm && y.holder == holder && !(releasing s y)

/-- The claim of a line ends, its holder being gone: one that a handler served stays parked when firmware parks the holder (R403);
otherwise by R407. -/
def endClaim (s : State) (y : LiveLine) (keepParked : Bool) : State :=
  releaseLine s { y with fw := y.fw || keepParked } (if keepParked then waitTag 10 0 else releasedTag (tagOf s y))

/-- Release every line that a line holds (R402, R403, R408); a home directory that a remap holds is sent word (R436, R440). -/
def releaseHeld (s : State) (t holder : Nat) (keepParked : Bool) : State :=
  (heldLines s t holder).foldl (fun s y =>
    if dirHeld s y then { s with msgs := s.msgs ++ [⟨y.tenant, y.addr, .release keepParked, none, s.dmgen⟩] }
    else endClaim s y keepParked) s

/-- Take a trap of line `x`, which stands on `core` (R396): a level-0 trap other than PageTable is dispatched to the tenant;
PageTable and every trap above level 0 go to firmware, which parks the line, releases what a handler held, writes the record and
tells the host (R403; R46 for level 2). Answers the state and the parked line. -/
def takeTrap (s : State) (x : LiveLine) (t : Trap) (core : Nat) : State × LiveLine :=
  let y := { x with line := parkLine x.line t, md := none, req := none, replies := [], word := none }
  if x.line.tlvl = 0 ∧ t.code ≠ 9 then (dispatchTrap s y t core, y)
  else
    let s := if x.line.hnd then releaseHeld s x.tenant x.addr true else s
    let s := report s x.tenant (lineRecord y t false)
    (toHost s (.deviceFault x.tenant (lineRecord y t false)), { y with fw := true })

/-- The return from a trap (R419): the image of a held line with PC advanced past its instruction when ADV, TFB written
when TFBW, and a kind-10 wait cleared. `hmodWord` says the word at PC is an hmod. -/
def returnLine (l : Line) (f : BitVec 3) (hmodWord : Bool) : Line :=
  let l := if f.getLsbD 0 then { l with pc := l.pc + (if hmodWord then 8 else 4), hcnt := 0, hpay := 0 } else l
  let l := if f.getLsbD 1 then { l with tfb := f.getLsbD 2 } else l
  if waitKind l.wait == 10 then { l with wait := 0 } else l

end Sys2Proof.Machine
end

