-- ==== Sys2Proof/Machine/Issue.lean ====
section
/-! DEFINITION. Machine/Issue.lean: the issue of one instruction word: the order of conditions of R47, the guard (R16, R49),
the waits of R22 and R24, the lookahead window, the hint extension (R60 to R62), the modifier pair (R67), and what each
result of a meaning makes of the issuing line. -/

namespace Sys2Proof.Machine

/-- What a meaning answers once its instruction may issue. -/
inductive Res where
  /-- done: PC goes past the word. -/
  | ok (s : State) (t : LiveLine)
  /-- done, and control goes to `pc`. -/
  | jump (s : State) (t : LiveLine) (pc : BitVec 48)
  /-- a precise trap: nothing is changed (R46). -/
  | trap (t : Trap)
  /-- a precise trap after a change the rule allows (R260). -/
  | trapIn (s : State) (t : Trap)
  /-- the line waits with this tag at its own address (R157). -/
  | wait (s : State) (tag : Word)
  /-- the line waits with kind 11 for its own earlier instructions (R32). -/
  | drain (s : State) (d : Drain)
  /-- an access is still in flight: the line keeps its slot and tries again (R156, R305, R340). -/
  | retry (s : State) (req : Option Nat) (replies : List Word)
  /-- the line leaves its slot, ready, and issues the same word again. -/
  | bounce (s : State)
  /-- the line is no longer on this core: retired or gone (R165, R143). -/
  | leave (s : State)

/-- What an encoding tells the issue: its guard, the general registers it reads or writes (R22), whether it is
long-latency and with what L (R24, R56), the lowest trap level allowed with the word for the Privileged trap (R416), and
whether it drains the line before it issues (R221). -/
structure Hdr where
  guard : BitVec 4
  named : List Reg
  /-- none: not long-latency; `some none`: L comes from a modifier; `some L`: its field. -/
  look  : Option (Option (BitVec 4))
  level : Nat
  word  : Option Instr
  drain : Bool

/-- A header without window and privilege. -/
def hdr (g : BitVec 4) (named : List Reg) : Hdr := ⟨g, named, none, 0, none, false⟩

/-- A header of a long-latency instruction with its own lookahead field. -/
def hdrLook (g : BitVec 4) (named : List Reg) (l : BitVec 4) (drain : Bool) : Hdr := ⟨g, named, some (some l), 0, none, drain⟩

/-- A header of a long-latency instruction whose lookahead comes from a modifier (R56). -/
def hdrMod (g : BitVec 4) (named : List Reg) (drain : Bool) : Hdr := ⟨g, named, some none, 0, none, drain⟩

/-- A header of a register-form instruction that drains at release scopes (R221). -/
def hdrRel (g : BitVec 4) (named : List Reg) (drain : Bool) : Hdr := ⟨g, named, none, 0, none, drain⟩

/-- A header of a privileged instruction (R416). -/
def hdrPriv (g : BitVec 4) (named : List Reg) (level : Nat) (i : Instr) : Hdr := ⟨g, named, none, level, some i, false⟩

/-- What a meaning is given: the issuing line with its issue counted, the address of its word, the extension it was
given, its modifier, its core. -/
structure Ctx where
  t    : LiveLine
  p    : BitVec 48
  hcnt : BitVec 2
  hpay : BitVec 48
  md   : Option (BitVec 10)
  core : Nat

/-- Whose accesses these are. -/
def Ctx.who (c : Ctx) : Who := ⟨c.t.line.tenant.toNat, c.t.line.job.toNat, c.t.line.tlvl.toNat, .core c.core⟩

/-- The guard passes (R49): bit 0 of the field named in [24:22], against the sense bit. -/
def guardTrue (l : Line) (g : BitVec 4) : Bool :=
  (getQ l (g.extractLsb' 0 3)).getLsbD 0 != g.getLsbD 3

/-- The lane mask of a guard (R50): the field's bits, complemented by the sense bit. -/
def laneMask (l : Line) (g : BitVec 4) : Byte :=
  let q := getQ l (g.extractLsb' 0 3)
  if g.getLsbD 3 then ~~~q else q

/-- The lowest-numbered pending register among those an instruction names (R22). -/
def firstPending (l : Line) (named : List Reg) : Option Nat :=
  (List.range 8).find? fun i => isPending l (BitVec.ofNat 3 i) && named.contains (BitVec.ofNat 3 i)

/-- A ticket fetch of this line has not read its bytes yet: a copy holds it back (R237, R340). -/
def fetchOut (t a : Nat) (e : TicketEntry) : Bool := e.state == 1 && e.got.isNone && e.tenant == t && e.line == a

/-- A copy holds a ticket fetch of the line back. -/
def fetchHeld (s : State) (t a : Nat) : Bool := s.slices.any fun v => v.2.entries.any fun e => fetchOut t a e.2

/-- Every long-latency instruction of the line is complete: no PEND bit, no outstanding store (R24 item 4), and no fetch of its tickets
that has still to read, which follows the window rules of its tkld (R220, R237; log entry 99). -/
def drained (s : State) (t : LiveLine) : Bool := t.line.pend == 0 && t.stores == 0 && !(fetchHeld s t.tenant t.addr)

/-- The instruction would issue into a window of length zero before the line is drained (R24 item 4). -/
def windowBlocks (s : State) (t : LiveLine) : Bool := t.line.laopen && t.line.lacnt == 0 && !(drained s t)

/-- A long-latency instruction opens a window of `n`, or shortens the open one (R24 items 1 and 2). -/
def openWindow (l : Line) (n : BitVec 4) : Line :=
  if l.laopen then { l with lacnt := if n.toNat < l.lacnt.toNat then n else l.lacnt } else { l with laopen := true, lacnt := n }

/-- The window after an issue (R24 items 1 to 4): a window of length zero closes, a longer one counts down; a
long-latency instruction opens a window of L or shortens the open one. -/
def countWindow (l : Line) (look : Option (BitVec 4)) : Line :=
  let l := if l.laopen then (if l.lacnt = 0 then { l with laopen := false } else { l with lacnt := l.lacnt - 1 }) else l
  match look with
  | none => l
  | some n => openWindow l n

/-- The line after a posted `mpost` or `enq`: one more store to be performed and, as for a store with L = 0, a window that orders
every later instruction after it (R24 item 5, R156, R500; log entry 95). -/
def postedLine (t : LiveLine) : LiveLine := { t with stores := t.stores + 1, line := openWindow t.line 0 }

/-- The line with its window closed, when the instruction closes it (R221). -/
def closedWindow (l : Line) (drain : Bool) : Line := if drain then { l with laopen := false } else l

/-- The instruction waits for the drain before it issues (R24 item 4, R221). -/
def mustDrain (s : State) (h : Hdr) (t : LiveLine) : Bool := windowBlocks s t || (h.drain && !(drained s t))

/-- HCNT and HPAY cleared (R60, R62). -/
def clearExt (l : Line) : Line := { l with hcnt := 0, hpay := 0 }

/-- The lookahead of an instruction: its own field, else the LA of its modifier, else 0 (R56, R66). -/
def lookOf (h : Hdr) (md : Option (BitVec 10)) : Option (BitVec 4) :=
  match h.look with
  | none => none
  | some (some n) => some n
  | some none => match md with
    | some m => some (if m.getLsbD 5 then m.extractLsb' 6 4 else 0)
    | none => some 0

/-- The address of the word being issued: past the hmod of a pair (R67). -/
def wordPc (t : LiveLine) : BitVec 48 := if t.md.isSome then t.line.pc + 4 else t.line.pc

/-- The line with PC at `pc` and no modifier left. -/
def atPc (t : LiveLine) (pc : BitVec 48) : LiveLine :=
  { t with md := none, req := none, replies := [], word := none, line := { t.line with pc := pc } }

/-- The line past a word whose guard is false (R16): the extension and the window count, nothing else beside PC. -/
def skipLine (t : LiveLine) : LiveLine :=
  let l := clearExt t.line
  { t with line := if l.laopen && l.lacnt != 0 then { l with lacnt := l.lacnt - 1 } else l }

/-- The line waiting with `tag`; PC stays, at the hmod for a pair (R67, R157). -/
def waitLine (t : LiveLine) (tag : Word) : LiveLine :=
  { t with md := none, req := none, replies := [], word := none, line := { t.line with wait := tag } }

/-- The line waiting with kind 11 for its own earlier instructions (R32). -/
def drainLine (t : LiveLine) (d : Drain) : LiveLine := { waitLine t (waitTag 11 0) with drain := d }

/-- A word has issued from its slot (R120, R123): the scan goes on behind the slot, and the core counts the word. -/
def countIssue (s : State) (p : Place) : State :=
  match p with
  | .slot c k => setCore s c { getCore s c with lastSlot := k, issued := (getCore s c).issued + 1 }
  | _ => s

/-- The issuing line after its word: the slot's count (R123), the 7 cycles of R120, the age of R126. -/
def agedLine (s : State) (t : LiveLine) : LiveLine :=
  { t with count := min 4096 (t.count + 1), cool := 7, last := s.tick }

/-- A word has issued, and `t` goes on at `pc`. -/
def afterIssue (s : State) (t : LiveLine) (pc : BitVec 48) : State :=
  { countIssue s t.place with thr := some (agedLine s (atPc t pc)) }

/-- What the machine makes of a meaning's answer, `t` being the line as it stood before the issue. -/
def finishIssue (s : State) (t : LiveLine) (core : Nat) (r : Res) : Host.Outcome State Fault Refusal :=
  match r with
  | .ok s' t' => .next (afterIssue s' t' (wordPc t + 4))
  | .jump s' t' pc => .next (afterIssue s' t' pc)
  | .trap e => .next { (takeTrap s t e core).1 with thr := some (takeTrap s t e core).2 }
  | .trapIn s' e => .next { (takeTrap s' t e core).1 with thr := some (takeTrap s' t e core).2 }
  | .wait s' tag => .next { s' with thr := some (waitLine t tag) }
  | .drain s' d => .next { s' with thr := some (drainLine t d) }
  | .retry s' req rs => .next { s' with thr := some { t with req := req, replies := rs, cool := 7 } }
  | .bounce s' => .next { s' with thr := some { waitLine t 0 with place := .cl1 core } }
  | .leave s' => .next { countIssue s' t.place with thr := none }

/-- The register of an acquiring scale read that is still out (R344). -/
def stillAwaits (t : LiveLine) : Option Reg := t.await.filter (isPending t.line)

/-- What a meaning is given of the issuing line: its issue counted in the window, its extension taken (R24, R62). -/
def issueCtx (h : Hdr) (t : LiveLine) : Ctx where
  t := { t with await := stillAwaits t, line := clearExt (countWindow (closedWindow t.line h.drain) (lookOf h t.md)) }
  p := wordPc t
  hcnt := t.line.hcnt
  hpay := t.line.hpay
  md := t.md
  core := coreOfPlace t.place

/-- Issue one instruction word (R47): privilege, guard, pending registers, the window, then its meaning. -/
def issueWord (h : Hdr) (body : Ctx → State → Res) (s : State) : Host.Outcome State Fault Refusal :=
  match s.thr with
  | none => .fault .noIssuingLine
  | some t =>
    let core := coreOfPlace t.place
    if t.line.tlvl.toNat < h.level then
      finishIssue s t core (.trap (trapPrivileged ((h.word.bind encodeNat).getD 0)))
    else if guardTrue t.line h.guard = false then .next (afterIssue s (skipLine t) (wordPc t + 4))
    else match firstPending t.line h.named with
      | some i => .next { s with thr := some (waitLine t (waitTag 1 i)) }
      | none =>
        if mustDrain s h t then .next { s with thr := some (drainLine t .all) }
        else finishIssue s t core (body (issueCtx h t) s)

/-- The answer when the line's own accesses stop (R47 order 6, R206, R349, R440). -/
def stopRes (s : State) (c : Ctx) : Stop → Res
  | .trap e => .trap e
  | .page va =>
    let s' := startSwapIn s c.t.tenant va
    match walkTable (getTenant s' c.t.tenant) va with
    | some (_, w) => if leafSwd w then .wait s' (waitTag 5 va) else .bounce s'
    | none => .wait s' (waitTag 5 va)
  | .hold => .retry s c.t.req c.t.replies

/-- A meaning that works on the line alone (R97): a new line or a trap. -/
def lineBody (f : Ctx → Except Trap Line) (c : Ctx) (s : State) : Res :=
  match f c with
  | .ok l => .ok s { c.t with line := l }
  | .error e => .trap e

/-- The value of an extendable field (R61): the field's bits, the hint bits above them, extended as one. -/
def extField (c : Ctx) (f w : Nat) (signed : Bool) : Word :=
  let n := c.hcnt.toNat
  let x := f + (if 1 ≤ n then c.hpay.toNat % 2 ^ 24 * 2 ^ w else 0) + (if 2 ≤ n then c.hpay.toNat / 2 ^ 24 * 2 ^ (w + 24) else 0)
  let width := w + 24 * n
  if signed ∧ 2 ^ (width - 1) ≤ x % 2 ^ width then BitVec.ofInt 64 ((x % 2 ^ width : Nat) - (2 ^ width : Nat) : Int)
  else BitVec.ofNat 64 (x % 2 ^ width)

end Sys2Proof.Machine
end

