-- ==== Sys2Proof/Machine/Uses.lean ====
section
/-! DEFINITION. Machine/Uses.lean: what the consistency model asks of an instruction: the registers and predicate fields it computes
from and writes (R222 item 6), its lookahead (R24, R56), whether it drains the window (R221), and the events it contributes (R218). -/

namespace Sys2Proof.Machine

/-! ### Registers and predicate fields (R222 item 6) -/

/-- What an instruction computes from and what it writes. `jump`: its outcome is where control goes. -/
structure Uses where
  guard  : BitVec 4
  srcs   : List Reg
  dsts   : List Reg
  qsrcs  : List Reg
  qdsts  : List Reg
  jump   : Bool

/-- From general registers to general registers. -/
def usesG (g : BitVec 4) (dsts srcs : List Reg) : Uses := ⟨g, srcs, dsts, [], [], false⟩

/-- A lanewise form: with a guard that is not always true the lanes it turns off keep gD's bits (R50). -/
def usesLanes (g : BitVec 4) (d : Reg) (srcs : List Reg) : Uses := ⟨g, if g = 0 then srcs else d :: srcs, [d], [], [], false⟩

/-- To a predicate field. -/
def usesQ (g : BitVec 4) (d : Reg) (srcs qsrcs : List Reg) : Uses := ⟨g, srcs, [], if g = 0 then qsrcs else d :: qsrcs, [d], false⟩

/-- A transfer of control. -/
def usesJump (g : BitVec 4) (dsts srcs : List Reg) : Uses := ⟨g, srcs, dsts, [], [], true⟩

/-- The uses of a word that a thread issues; a hint and an event use nothing. -/
def usesOf (i : Instr) : Uses :=
  match i with
  | .add g d a b _ _ | .sub g d a b _ _ | .shl g d a b _ _ | .mul g d a b _ _ => usesG g [d] [a, b]
  | .and g d a b _ | .or g d a b _ | .xor g d a b _ | .andn g d a b _ | .orn g d a b _ | .xnor g d a b _ | .shr g d a b _
  | .sar g d a b _ | .rol g d a b _ | .ror g d a b _ | .min g d a b _ | .max g d a b _ | .minb g d a b _ | .maxb g d a b _
  | .mulh g d a b _ | .mulhb g d a b _ | .div g d a b _ | .divb g d a b _ | .rem g d a b _ | .remb g d a b _ => usesG g [d] [a, b]
  | .neg g d a _ _ | .abs g d a _ _ | .addi g d a _ | .andi g d a _ | .ori g d a _ | .xori g d a _ | .clz g d a _ | .ctz g d a _
  | .popc g d a _ | .bswap g d a _ | .sext g d a _ | .shli g d a _ _ | .shri g d a _ _ | .sari g d a _ _ | .roli g d a _ _
  | .bext g d a _ _ | .bextb g d a _ _ | .mov g d a => usesG g [d] [a]
  | .movi g d _ | .self g d | .csrr g d _ => usesG g [d] []
  | .movh g d _ _ => usesG g [d] [d]
  | .bins g d a _ _ => usesG g [d] [d, a]
  | .cmp g d a b _ _ _ => usesQ g d [a, b] []
  | .fcmp g d a b _ _ _ => usesQ g d [a, b] []
  | .cmpi g d a _ _ => usesQ g d [a] []
  | .qand g d a b | .qor g d a b | .qxor g d a b => ⟨g, [], [], [a, b], [d], false⟩
  | .qnot g d a | .qmov g d a | .qany g d a _ | .qall g d a _ => ⟨g, [], [], [a], [d], false⟩
  | .qset g d _ => ⟨g, [], [], [], [d], false⟩
  | .qtog g d _ => ⟨g, [], [], [d], [d], false⟩
  | .gtoq g d a => ⟨g, [a], [], [], [d], false⟩
  | .vadd g d a b _ | .vsub g d a b _ | .vshl g d a b _ | .vshr g d a b _ | .vsar g d a b _ | .vshuf g d a b _
  | .vadds g d a b _ _ | .vsubs g d a b _ _ | .vmul g d a b _ _ | .vmin g d a b _ _ | .vmax g d a b _ _ | .vavg g d a b _ _
  | .vpack g d a b _ _ | .fadd g d a b _ _ | .fsub g d a b _ _ | .fmul g d a b _ _ | .fdiv g d a b _ _ | .fmin g d a b _ _
  | .fmax g d a b _ _ => usesLanes g d [a, b]
  | .vsel g d a b _ q => { usesLanes g d [a, b] with qsrcs := [q] }
  | .vdot g d a b _ _ | .fma g d a b _ _ => usesG g [d] [d, a, b]
  | .vunpk g d a _ _ | .vsum g d a _ _ | .fsqrt g d a _ _ | .fround g d a _ _ | .fcvt g d a _ _ _ => usesLanes g d [a]
  | .br g _ => usesJump g [] []
  | .call g _ => usesJump g [7] []
  | .jr g a | .ret g a => usesJump g [] [a]
  | .callr g a => usesJump g [7] [a]
  | .loop g d _ => usesJump g [d] [d]
  | .spawn g d a b _ _ => usesG g [d] [a, b, 0, 1, 2, 3]
  | .join g a | .exitCounter g a | .go g a | .goc g a | .qfree g a | .gfree g a | .jwait g a | .tfree g a | .csrw g a _ | .rft g a _
  | .cevict g a | .transit g a | .seal g a | .fmodeWrite g a | .fflagsWrite g a | .fqHeadWrite g a | .ctxpoolBaseWrite g a
  | .ctxpoolLinesWrite g a => usesG g [] [a]
  | .yield g | .exit g | .fence g _ _ | .caprev g | .fin g | .trap g _ | .cevictSelf g | .nop g => usesG g [] []
  | .cancel g d a | .tkdrop g d a | .tkstat g d a | .qlen g d a | .gslot g d a | .jstat g d a | .capmint g d a
  | .cclaim g d a => usesG g [d] [a]
  | .jtest g d a => ⟨g, [a], [], [], [d], false⟩
  | .waitne g d a b _ _ | .waiteq g d a b _ _ => usesG g [d] [a, b]
  | .ld g d a _ _ _ _ => usesG g [d] [a]
  | .ldx g d a _ _ _ _ _ => usesG g [d] [a]
  | .ldfe g d a _ _ _ | .ldff g d a _ _ _ => usesG g [d] [a]
  | .st g d a _ _ _ _ | .ste g d a _ _ _ _ => usesG g [] [d, a]
  | .stx g d a _ _ _ _ _ => usesG g [] [d, a]
  | .stf g d a _ _ _ => usesG g [] [d, a]
  | .amoAdd g d a b _ _ _ | .amoAnd g d a b _ _ _ | .amoOr g d a b _ _ _ | .amoXor g d a b _ _ _ | .amoMin g d a b _ _ _
  | .amoMax g d a b _ _ _ | .amoMinb g d a b _ _ _ | .amoMaxb g d a b _ _ _ | .amoSwap g d a b _ _ _
  | .amoFadd g d a b _ _ _ => usesG g [d] [a, b]
  | .amoCas g d a b _ _ _ => usesG g [d] [d, a, b]
  | .tkld g d a _ _ | .mread g d a _ => usesG g [d] [a]
  | .deq g d a q _ => ⟨g, [a], [d], [], [q], false⟩
  | .tkred g d a b q => ⟨g, [a, b], [d], [], [q], false⟩
  | .mpost g a b _ | .mwait g a b _ | .enq g a b _ => usesG g [] [a, b]
  | .mexp g a b | .cpark g a b | .tlbinv g a b | .halt g a b => usesG g [] [a, b]
  | .qmake g d a b | .lrem g d a b | .gset g d a b | .talloc g d a b | .tdesc g d a b | .gsw g d a b => usesG g [d] [a, b]
  | .tinfo g d a b m => usesG g [d] (if m = 1 then [a, b] else [a])
  | .rmov g d a b _ | .rcmp g d a b _ => usesG g [d, a, b] [d, a, b]
  | .rfill g d a b _ => usesG g [d, b] [d, a, b]
  | .lw g d a _ _ _ _ _ | .lstream g d a _ _ _ _ _ | .lcfg g d a _ _ _ _ _ | .tadd g d a _ _ _ _ _ | .tmul g d a _ _ _ _ _
  | .tfma g d a _ _ _ _ _ | .tmax g d a _ _ _ _ _ | .tmin g d a _ _ _ _ _ | .texp2 g d a _ _ _ _ _ | .trcp g d a _ _ _ _ _
  | .trsqrt g d a _ _ _ _ _ | .tcvt g d a _ _ _ _ _ | .tsel g d a _ _ _ _ _ | .ttrn g d a _ _ _ _ _ | .cpy g d a _ _ _ _ _
  | .cpyd g d a _ _ _ _ _ | .chan g d a _ _ _ _ _ | .swpin g d a _ _ _ _ _ | .swpout g d a _ _ _ _ _ => usesG g [d] [a]
  | .lswap g d _ _ _ _ _ | .ldrain g d _ _ _ _ _ => usesG g [d] []
  | .tred g d a b _ _ _ _ _ | .cwm g d a b _ _ _ _ _ | .sld g d a b _ _ _ _ _ | .swpq g d a b _ _ _ _ _ => usesG g [d, b] [a]
  | .scmc g d a b _ _ _ _ _ => usesG g [d] [a, b]
  | _ => usesG 0 [] []

/-- The uses of a `tkred` of more than 8 bytes: gD is an address (R260). -/
def usesWide (i : Instr) : Uses :=
  match i with
  | .tkred _ d _ _ _ => { usesOf i with srcs := d :: (usesOf i).srcs, dsts := [] }
  | _ => usesOf i

/-! ### The lookahead window (R24, R56, R66, R221) -/

/-- The word is a hint: it has no guard and does not count in the window (R63). -/
def isHint : Instr → Bool
  | .hext _ | .hsched _ | .hmod _ _ _ _ _ => true
  | _ => false

/-- The LA of a modifier for the word behind it (R66). -/
def hintLook : Instr → Option Nat
  | .hmod l v _ _ _ => if v = 1 then some l.toNat else none
  | _ => none

/-- L of a long-latency word: its own field, or a modifier's, else 0; none when the word is not long-latency (R24, R56). -/
def lookaheadOf (i : Instr) (md : Option Nat) : Option Nat :=
  match i with
  | .ld _ _ _ _ _ l _ | .st _ _ _ _ _ l _ => some l.toNat
  | .ldx _ _ _ _ _ _ l _ | .stx _ _ _ _ _ _ l _ => some l.toNat
  | .ste _ _ _ _ _ l _ => some l.toNat
  | .amoAdd _ _ _ _ _ _ _ | .amoAnd _ _ _ _ _ _ _ | .amoOr _ _ _ _ _ _ _ | .amoXor _ _ _ _ _ _ _ | .amoMin _ _ _ _ _ _ _
  | .amoMax _ _ _ _ _ _ _ | .amoMinb _ _ _ _ _ _ _ | .amoMaxb _ _ _ _ _ _ _ | .amoSwap _ _ _ _ _ _ _ | .amoCas _ _ _ _ _ _ _
  | .amoFadd _ _ _ _ _ _ _ => some (md.getD 0)
  | .tkld _ _ _ _ _ => some (md.getD 0)
  | _ => none

/-! ### Events (R218) -/

/-- What an instruction does to what it touches. -/
inductive Act where
  | none_
  | read
  | write
  | rmw
  | fenceAcq
  | fenceRel
  | fenceFull
  | capture
  | redeem
  | observe
  deriving DecidableEq, Repr

/-- The contribution of an instruction: the act, its order and its scope (R218). -/
structure Contribution where
  act   : Act
  acq   : Bool
  rel   : Bool
  scope : Nat
  deriving DecidableEq, Repr

/-- Acquire, or release, at scopes 1 to 3 (R218). -/
def acqAt (a : Act) (c : BitVec 2) : Contribution := ⟨a, c != 0, false, c.toNat⟩
def relAt13 (a : Act) (c : BitVec 2) : Contribution := ⟨a, false, c != 0, c.toNat⟩

/-- Relaxed. -/
def relaxed (a : Act) : Contribution := ⟨a, false, false, 0⟩

/-- An amo with its order field (R79). -/
def amoAt (o c : BitVec 2) : Contribution := ⟨.rmw, o.getLsbD 0, o.getLsbD 1, c.toNat⟩

/-- The table of R218, for the form that completes; the capture of an engine command carries the command's flags (R240, R241). -/
def contributionOf (i : Instr) : Contribution :=
  match i with
  | .ld _ _ _ _ c _ _ => acqAt .read c
  | .ldx _ _ _ _ _ c _ _ => acqAt .read c
  | .st _ _ _ _ c _ _ => relAt13 .write c
  | .stx _ _ _ _ _ c _ _ => relAt13 .write c
  | .rmov _ _ _ _ _ | .rcmp _ _ _ _ _ => relaxed .read
  | .rfill _ _ _ _ _ => relaxed .write
  | .amoAdd _ _ _ _ _ o c | .amoAnd _ _ _ _ _ o c | .amoOr _ _ _ _ _ o c | .amoXor _ _ _ _ _ o c | .amoMin _ _ _ _ _ o c
  | .amoMax _ _ _ _ _ o c | .amoMinb _ _ _ _ _ o c | .amoMaxb _ _ _ _ _ o c | .amoSwap _ _ _ _ _ o c | .amoCas _ _ _ _ _ o c
  | .amoFadd _ _ _ _ _ o c => amoAt o c
  | .fence _ k c => ⟨if k = 1 then .fenceAcq else if k = 2 then .fenceRel else .fenceFull, false, false, c.toNat⟩
  | .waitne _ _ _ _ _ c | .waiteq _ _ _ _ _ c => acqAt .read c
  | .ldfe _ _ _ _ c _ => acqAt .rmw c
  | .ldff _ _ _ _ c _ => acqAt .read c
  | .stf _ _ _ _ c _ => relAt13 .rmw c
  | .ste _ _ _ _ c _ _ => relAt13 .write c
  | .mpost _ _ _ c => relAt13 .rmw c
  | .mexp _ _ _ => relaxed .rmw
  | .mwait _ _ _ c => acqAt .read c
  | .mread _ _ _ c => acqAt .read c
  | .enq _ _ _ c => relAt13 .rmw c
  | .deq _ _ _ _ c => acqAt .rmw c
  | .qlen _ _ _ => relaxed .read
  | .qmake _ _ _ _ | .qfree _ _ => relaxed .rmw
  | .spawn _ _ _ _ _ _ => ⟨.rmw, false, false, 2⟩
  | .join _ _ => ⟨.read, true, false, 2⟩
  | .exitCounter _ _ | .cancel _ _ _ => ⟨.rmw, false, true, 2⟩
  | .tkld _ _ _ _ c => acqAt .read c
  | .tkred _ _ _ _ _ => relaxed .redeem
  | .seal _ _ => relaxed .read
  | .jwait _ _ | .jtest _ _ _ | .jstat _ _ _ => relaxed .observe
  | .lw _ _ _ _ _ q r c | .lstream _ _ _ _ _ q r c | .lcfg _ _ _ _ _ q r c | .tadd _ _ _ _ _ q r c | .tmul _ _ _ _ _ q r c
  | .tfma _ _ _ _ _ q r c | .tmax _ _ _ _ _ q r c | .tmin _ _ _ _ _ q r c | .texp2 _ _ _ _ _ q r c | .trcp _ _ _ _ _ q r c
  | .trsqrt _ _ _ _ _ q r c | .tcvt _ _ _ _ _ q r c | .tsel _ _ _ _ _ q r c | .ttrn _ _ _ _ _ q r c | .cpy _ _ _ _ _ q r c
  | .cpyd _ _ _ _ _ q r c | .chan _ _ _ _ _ q r c | .swpin _ _ _ _ _ q r c
  | .swpout _ _ _ _ _ q r c => ⟨.capture, q == 1, r == 1, c.toNat⟩
  | .lswap _ _ _ _ q r c | .ldrain _ _ _ _ q r c => ⟨.capture, q == 1, r == 1, c.toNat⟩
  | .tred _ _ _ _ _ _ q r c | .cwm _ _ _ _ _ _ q r c | .swpq _ _ _ _ _ _ q r c => ⟨.capture, q == 1, r == 1, c.toNat⟩
  | .scmc _ _ _ _ _ _ _ r c => ⟨.write, false, r == 1, c.toNat⟩
  | .sld _ _ _ _ _ _ q _ c => ⟨.read, q == 1, false, c.toNat⟩
  | _ => relaxed .none_

/-- The word may have a relaxed access of its own beside its event: a read of its block, descriptor or template (R175, R266, R268, R356),
or a write of a cleared tile, of a tile's image or of wide ticket data (R260, R266, R269). -/
def hasAside (i : Instr) (write : Bool) : Bool :=
  match i with
  | .talloc _ _ _ _ => true
  | .tinfo _ _ _ _ m => write && m == 1
  | .tkred _ _ _ _ _ => write
  | .tdesc _ _ _ _ | .qmake _ _ _ _ | .lrem _ _ _ _ => !write
  | .lstream _ _ _ _ _ _ _ _ | .tadd _ _ _ _ _ _ _ _ | .tmul _ _ _ _ _ _ _ _ | .tfma _ _ _ _ _ _ _ _ | .tmax _ _ _ _ _ _ _ _
  | .tmin _ _ _ _ _ _ _ _ | .texp2 _ _ _ _ _ _ _ _ | .trcp _ _ _ _ _ _ _ _ | .trsqrt _ _ _ _ _ _ _ _ | .tcvt _ _ _ _ _ _ _ _
  | .tsel _ _ _ _ _ _ _ _ | .ttrn _ _ _ _ _ _ _ _ | .tred _ _ _ _ _ _ _ _ _ | .cpy _ _ _ _ _ _ _ _
  | .cpyd _ _ _ _ _ _ _ _ => !write
  | _ => false

/-- The word may wait: an attempt of it that does not complete is an event (R233). -/
def isWait (i : Instr) : Bool :=
  match i with
  | .waitne _ _ _ _ _ _ | .waiteq _ _ _ _ _ _ | .ldfe _ _ _ _ _ _ | .ldff _ _ _ _ _ _ | .stf _ _ _ _ _ _ | .mwait _ _ _ _
  | .join _ _ => true
  | _ => false

/-- The function number of an amo in R247's order. -/
def amoOf (i : Instr) : Option Nat :=
  match i with
  | .amoAdd _ _ _ _ _ _ _ => some 0
  | .amoAnd _ _ _ _ _ _ _ => some 1
  | .amoOr _ _ _ _ _ _ _ => some 2
  | .amoXor _ _ _ _ _ _ _ => some 3
  | .amoMin _ _ _ _ _ _ _ => some 4
  | .amoMax _ _ _ _ _ _ _ => some 5
  | .amoMinb _ _ _ _ _ _ _ => some 6
  | .amoMaxb _ _ _ _ _ _ _ => some 7
  | .amoSwap _ _ _ _ _ _ _ => some 8
  | .amoCas _ _ _ _ _ _ _ => some 9
  | .amoFadd _ _ _ _ _ _ _ => some 10
  | _ => none

/-- The instruction waits until every earlier long-latency instruction is complete, and closes the window (R221). -/
def drainsWindow (i : Instr) : Bool :=
  let c := contributionOf i
  match i with
  | .exit _ | .exitCounter _ _ | .cancel _ _ _ => true
  | _ => c.act == .fenceRel || c.act == .fenceFull || (c.rel && c.act != .capture)

end Sys2Proof.Machine
end

