-- ==== Sys2Proof/Machine/Cycle.lean ====
section
/-! DEFINITION. Machine/Cycle.lean: one issue cycle of a core up to the meaning of its word: the scan of R120 with the
forfeits of R45, the boundary rules of R122 and R123, the fetch of R29, and the line's way back after the word. -/

namespace Sys2Proof.Machine

/-- Nothing holds back lines of this tenant and job: no halt (R426), no gang switch. -/
def mayRun (s : State) (tenant job : Nat) : Bool := !((getTenant s tenant).halted) && !(jobFrozen s tenant job)

/-- The job of a line, from its image when it is in DRAM. -/
def jobOf (s : State) (x : LiveLine) : Nat :=
  match x.place with
  | .dram => match cellOf s x.tenant x.addr with
    | some k => memRead s.memory (k + 97) 2
    | none => x.line.job.toNat
  | _ => x.line.job.toNat

/-- A line of the cluster's CL1s or CL2, or of one CL1, that is ready and not in a slot. -/
def readyAt (s : State) (p : Place) (x : LiveLine) : Bool := x.place == p && tagOf s x == 0 && !(x.fw) && !(x.clm)

/-- Other ready work exists (R123). -/
def otherWork (s : State) (c : Nat) : Bool :=
  s.lines.any (readyAt s (.cl1 c)) || s.lines.any (readyAt s (.cl2 (clusterOf c)))
    || !((getCluster s (clusterOf c)).ready.isEmpty) || !((getCore s c).deque.isEmpty) || !((getCore s c).ring.isEmpty)

/-- The line stands at a boundary where it leaves its slot instead of issuing: its quantum is used up and other work exists
(R123), its tenant is halted or its job frozen (R122), its image is wanted (R407, R420), or its die is not online (R440). -/
def mustLeave (s : State) (c : Nat) (x : LiveLine) : Bool :=
  x.md.isNone && x.word.isNone
    && ((decide (4096 ≤ x.count) && otherWork s c) || x.pull || !(mayRun s x.tenant x.line.job.toNat)
      || (getDie s (dieOf c)).state != 0)

/-- A line in a slot of core `c` that the scan may take, forfeits apart (R120). -/
def eligible (s : State) (c : Nat) (x : LiveLine) : Bool :=
  x.line.wait == 0 && x.cool == 0 && !(mustLeave s c x)

/-- The line in slot `k` of core `c`. -/
def inSlot (c k : Nat) (x : LiveLine) : Bool := x.place == .slot c k

/-- The slots of a core in scan order (R120). -/
def scanOrder (last : Nat) : List Nat := (List.range 16).map fun i => (last + 1 + i) % 16

/-- Another line of the core holds the normaliser (R45). -/
def normHeld (s : State) (c : Nat) (x : LiveLine) : Bool :=
  s.lines.any fun y => !(isLine x.tenant x.addr y) && y.norm && !(y.normWait) && decide (0 < y.forfeit) && (match y.place with
    | .slot c' _ => c' == c
    | _ => false)

/-- A forfeited turn (R45, R121): it counts as an issue turn and issues nothing; a line that waits for the normaliser keeps
its count until the normaliser is free. -/
def forfeitTurn (s : State) (c : Nat) (x : LiveLine) : LiveLine :=
  if x.normWait && normHeld s c x then { x with cool := 8 }
  else { x with forfeit := x.forfeit - 1, normWait := false, cool := 8 }

/-- Scan the slots (R120): the turns forfeited on the way, and the line taken. -/
def scan (c : Nat) : List Nat → State → State × Option LiveLine
  | [], s => (s, none)
  | k :: ks, s =>
    match s.lines.find? (inSlot c k) with
    | none => scan c ks s
    | some x =>
      if eligible s c x then
        if x.forfeit = 0 then (s, some x) else scan c ks (putLine s (forfeitTurn s c x))
      else scan c ks s

/-- One cycle passes for every line of the core (R120). -/
def passCycle (s : State) (c : Nat) : State :=
  mapLines s (fun x => decide (0 < x.cool) && coreOfPlace x.place == c) fun x => { x with cool := x.cool - 1 }

/-- The line after a cycle back in its place: a line that waits leaves its slot for the CL1, and the state of its slot is
dropped (R122, R45, R405). -/
def settle (s : State) : State :=
  match s.thr with
  | none => s
  | some t =>
    let t := match t.place with
      | .slot c _ => if t.line.wait = 0 then t
        else { t with place := .cl1 c, count := 0, forfeit := 0, norm := false, normWait := false, passed := 0 }
      | _ => { t with count := 0, forfeit := 0, norm := false, normWait := false, passed := 0 }
    { putLine s t with thr := none }

/-- Fetch the word at a code address (R29, R206, R404). -/
def fetchWord (s : State) (t : LiveLine) (core : Nat) (pc : BitVec 48) : Except Stop Nat :=
  match locate s ⟨t.line.tenant.toNat, t.line.job.toNat, t.line.tlvl.toNat, .core core⟩ .fetch pc.toNat 0 with
  | .error e => .error e
  | .ok (.cell k) => if poisoned s.memory k 4 then .error (.trap (mkTrap 24 1 pc.toNat)) else .ok (memRead s.memory k 4)
  | .ok _ => .error (.trap (trapFetch true pc.toNat))

/-- The feature of a word's major is accepted (R481, R482). -/
def featureOk (s : State) (w : Nat) : Bool :=
  s.accepted.getLsbD 0 && (bits w 26 6 != 0x20 || s.accepted.getLsbD 3)

/-- The instruction a fetched word is (R68, R482). -/
def instrOf (s : State) (w : Nat) : Instr :=
  if featureOk s w then
    match decodeNat w with
    | .ok i => i
    | .error _ => .notAnInstructionWord (BitVec.ofNat 32 w)
  else .notAnInstructionWord (BitVec.ofNat 32 w)

/-- The register of an acquiring scale read that is still out, when this word is an access that comes after it (R222 item 1, R344, R378,
log entry 89). -/
def awaited (t : LiveLine) (i : Instr) : Option Reg :=
  match t.await with
  | some r =>
    if isPending t.line r && (contributionOf i).act != .none_ && guardTrue t.line (usesOf i).guard then some r else none
  | none => none

/-- What the start of a cycle comes to: nothing issues, or an instruction goes to its meaning. -/
inductive Begun where
  | quiet (s : State)
  | issue (i : Instr) (s : State)

/-- The line waits for a page of its own code (R206 order 4); one that was on its way out is resident again at once (R349). -/
def fetchStop (s : State) (t : LiveLine) (core : Nat) : Stop → State
  | .trap e => { (takeTrap s t e core).1 with thr := some (takeTrap s t e core).2 }
  | .page va =>
    let s := startSwapIn s t.tenant va
    let away := match walkTable (getTenant s t.tenant) va with
      | some (_, w) => leafSwd w
      | none => true
    { s with thr := some (if away then waitLine t (waitTag 5 va) else { t with cool := 7 }) }
  | .hold => { s with thr := some { t with cool := 7 } }

/-- The trap of an error found after issue: MemoryError (R404), or TileLost of an access that met a lost die (R443). -/
def deferredTrap (e : LateError) : Trap :=
  match e.lost with
  | some v => trapTileLost v e.va
  | none => mkTrap 24 (1 + (match e.reg with
    | some r => r.toNat * 2 + 16
    | none => 0)) e.va

/-- A cycle of core `c`: scan, take the line from its slot; go on with the word of an instruction that tries again; report a deferred
error; fetch. -/
def beginCycle (s : State) (c : Nat) : Begun :=
  let (s, pick) := scan c (scanOrder (getCore s c).lastSlot) s
  let s := passCycle s c
  match pick with
  | none => .quiet s
  | some t =>
    let s := { dropLine s t.tenant t.addr with thr := some t }
    match t.word, t.derr, t.md with
    | some w, _, _ => .issue (instrOf s w) s
    | none, e :: rest, none => .quiet (settle (fetchStop s { t with derr := rest } c (.trap (deferredTrap e))))
    | none, _, _ =>
      match fetchWord s t c (wordPc t) with
      | .ok w => match awaited t (instrOf s w) with
        | some r => .quiet (settle { s with thr := some (waitLine t (waitTag 1 r.toNat)) })
        | none => .issue (instrOf s w) { s with thr := some { t with word := some w } }
      | .error e => .quiet (settle (fetchStop s t c e))

/-- After the meaning of the word. -/
def endCycle : Host.Outcome State Fault Refusal → Host.Outcome State Fault Refusal
  | .next s => .next (settle s)
  | .fault f => .fault f
  | .refused r => .refused r

/-- The instruction acts on an issuing line: a word, a row that is one register of `csrw`, or a word that is none. -/
def needsLine (i : Instr) : Bool :=
  match i with
  | .fmodeWrite _ _ | .fflagsWrite _ _ | .fqHeadWrite _ _ | .ctxpoolBaseWrite _ _ | .ctxpoolLinesWrite _ _
  | .notAnInstructionWord _ => true
  | i => (encodeNat i).isSome

/-- The instruction is the boot event. -/
def isBoot (i : Instr) : Bool :=
  match i with
  | .boot _ => true
  | _ => false

/-- The event may happen now: nothing but boot before boot, nothing after a failed boot or a shutdown (R485, R491). -/
def eventAllowed (s : State) (i : Instr) : Bool := !(needsLine i) && (s.host.phase == 1 || isBoot i)

/-- The next turn: the agenda's head, else the free choice of who moves (log entry 1). -/
def nextTurn (s : State) : Turn × State :=
  match s.agenda with
  | t :: rest => (t, { s with agenda := rest, tick := s.tick + 1 })
  | [] => (Config.turn s.tick, { s with tick := s.tick + 1 })

/-- The line `withFetchWord` places in slot 0 of core 0: tenant 0, at address 0x10000, its PC 0. -/
def probeLine : LiveLine := LiveLine.new 0 0x10000 (.slot 0 0) Line.zero

/-- The tenant it runs for: code page 0 in frame 0, a context page at 0x10000. -/
def probeTenant (s : State) : Tenant :=
  { getTenant s 0 with live := true, halted := false, ptab := [(0, 0x17), (1, 0x1002F)], nodes := [] }

/-- A line keeps the probe's place free. -/
def clearsProbe (x : LiveLine) : Bool :=
  !(isLine 0 0x10000 x) && (match x.place with
    | .slot c _ => c != 0
    | _ => true)

/-- A program's word loaded at code address 0 of tenant 0, with a line that stands there in slot 0 of core 0, and core 0's
turn next (log entry 6). -/
def placeWord (s : State) (w : Nat) : State :=
  let s := setTenant s 0 (probeTenant s)
  let s := setCore s 0 { getCore s 0 with lastSlot := 15, tlb := [] }
  let s := setCluster s 0 { getCluster s 0 with tlb := [] }
  let s := setDie s 0 (Die.zero 0)
  { s with
    agenda := .cycle 0 :: s.agenda
    thr := none
    lines := probeLine :: s.lines.filter clearsProbe
    memory := memWrite (memScrub s.memory 0 64) 0 4 w
    accepted := 0x3F
    switches := s.switches.filter fun x => x.tenant != 0
    remap := none
    host := { s.host with phase := 1 } }

end Sys2Proof.Machine
end

