-- ==== Sys2Proof/Machine/CopyMap.lean ====
section
/-! DEFINITION. Machine/CopyMap.lean: where the bytes of a copy go (R198, R199, R338), and the reads that a running or parked
copy holds back (R340). -/

namespace Sys2Proof.Machine

/-- The receiving cores of a pattern word in dealing order (R199). -/
def dealOrder (w : Nat) : List Nat :=
  let start := nbits w 12 3
  ((List.range 8).map fun i => (start + i) % 8).filter fun c => nbits w (4 + c) 1 == 1

/-- The block size of a pattern word (R198). -/
def dealBlock (w : Nat) : Nat := 2 ^ (nbits w 0 4 + 6)

/-- Where byte `o` of a burst goes; with DIST by R199. An offset past the core's local store gives a reserved address
(log entry 82). -/
def copyDest (dst : Nat) (dist : Bool) (dpat o : Nat) : Nat :=
  if dist then
    let b := dealBlock dpat
    let l := dealOrder dpat
    let n := o / b
    let off := nbits dpat 16 17 + n / l.length * b + o % b
    if 2 ^ 17 ≤ off then windowBase + 2 ^ 40 else dst + l.getD (n % l.length) 0 * 2 ^ 17 + off
  else dst + o

/-- The burst offset that a copy of `len` bytes writes to window byte `k`, if it writes it. -/
def copyOffset (dst len : Nat) (dist : Bool) (dpat k : Nat) : Option Nat :=
  if dist then
    let b := dealBlock dpat
    let l := dealOrder dpat
    (List.range l.length).findSome? fun i =>
      let base := dst + l.getD i 0 * 2 ^ 17 + nbits dpat 16 17
      let x := k - base
      let o := (x / b * l.length + i) * b + x % b
      if base ≤ k ∧ k / 2 ^ 17 = base / 2 ^ 17 ∧ o < len then some o else none
  else if dst ≤ k ∧ k < dst + len then some (k - dst) else none

/-- The command is parked (R313): STATE 3 of its entry at engine `eng`. -/
def isParked (s : State) (eng : Nat) (c : Cmd) : Bool :=
  match tabFind c.entry (getEngine s eng).jobs with
  | some j => j.state == 3
  | none => false

/-- Every copy that has started and is not final: a channel's current copy, one that came back parked to its channel's queue, or one
that a gang switch has saved (R313, R464, R468). -/
def liveCopies (s : State) : List Cmd :=
  s.clusters.flatMap (fun e => e.2.chans.flatMap fun c => c.2.cur.toList ++ c.2.queue.filter (isParked s (e.1 * 4 + 2)))
    ++ s.switches.flatMap fun w => (w.cmds.filter fun c => isParked s c.eng c.cmd).map (·.cmd)

/-- A copy into a vault or local store holds a thread's read of byte `k`, at or above its watermark (R340). -/
def holdsByte (k : Nat) (c : Cmd) : Bool :=
  match c.op with
  | .copy _ dst len _ _ dist dpat =>
    (match copyOffset dst len dist dpat.toNat k with
      | some o => decide (c.at_ ≤ o)
      | none => false)
  | _ => false

/-- A thread's read of `n` bytes at a location waits for a copy (R340). -/
def readHeld (s : State) (l : Loc) (n : Nat) : Bool :=
  match l with
  | .cell k => decide (windowBase ≤ k) && (liveCopies s).any fun c => (List.range n).any fun i => holdsByte (k + i) c
  | _ => false

end Sys2Proof.Machine
end

