-- ==== Sys2Proof/Machine/Operands.lean ====
section
/-! DEFINITION. Machine/Operands.lean: operand values: tag checks (R19, R95), values at a width (R12, R96), lanes (R10, R14),
bit fields, immediates and effective addresses. -/

namespace Sys2Proof.Machine

/-! ### Format tags (R17, R19) -/

/-- The first register in the list whose tag is not among the accepted ones raises the format trap. -/
def checkTags (l : Line) : List (Reg × List Byte) → Option Trap
  | [] => none
  | e :: t => if e.2.contains (getTag l e.1) then checkTags l t else some (trapFormat e.1 (getTag l e.1))

/-- The integer lane class of a width: int64, int32x2, int16x4, int8x8. -/
def laneTag (w : BitVec 2) : Byte := w.setWidth 8

/-- The float class of a format code of R76: f64, f32x2, f16x4, bf16x4. -/
def floatTag (w : BitVec 2) : Byte :=
  match w.toNat with
  | 0 => 4
  | 1 => 5
  | 2 => 7
  | _ => 6

/-! ### Values at a width -/

/-- The bits of a width code (R71). -/
def widthBits (w : BitVec 2) : Nat := 64 / 2 ^ w.toNat

/-- U(v, n): the low n bits as an unsigned number. -/
def uval (v : Word) (n : Nat) : Nat := v.toNat % 2 ^ n

/-- The signed reading of an n-bit number. -/
def signed (u n : Nat) : Int := if 2 * u < 2 ^ n then (u : Int) else (u : Int) - (2 ^ n : Nat)

/-- S(v, n): the low n bits as a signed number. -/
def sval (v : Word) (n : Nat) : Int := signed (uval v n) n

/-- An integer reduced modulo 2^n. -/
def wrapTo (v : Int) (n : Nat) : Nat := (v % (2 ^ n : Nat)).toNat

/-- ext(v, n, s). -/
def extS (v : Int) (n : Nat) : Word := BitVec.ofInt 64 (signed (wrapTo v n) n)

/-- ext(v, n, z). -/
def extZ (v : Int) (n : Nat) : Word := BitVec.ofNat 64 (wrapTo v n)

/-- v limited to lo .. hi. -/
def clampInt (v lo hi : Int) : Int := if v < lo then lo else if hi < v then hi else v

/-- Saturated to the signed range of n bits. -/
def satS (v : Int) (n : Nat) : Int := clampInt v (-(2 ^ (n - 1) : Nat)) ((2 ^ (n - 1) : Nat) - 1)

/-- Saturated to the unsigned range of n bits. -/
def satU (v : Int) (n : Nat) : Int := clampInt v 0 ((2 ^ n : Nat) - 1)

/-- The reduction of R100 for a result the table marks s: RULE 0 wraps, 1 saturates signed, 2 saturates unsigned. -/
def reduce (rule : BitVec 2) (n : Nat) (v : Int) : Word :=
  match rule.toNat with
  | 0 => extS v n
  | 1 => extS (satS v n) n
  | _ => extZ (satU v n) n

/-- A source under a rule: unsigned under RULE 2, else signed. -/
def ruleVal (rule : BitVec 2) (v : Word) (n : Nat) : Int := if rule = 2 then (uval v n : Int) else sval v n

/-! ### Lanes -/

/-- Lane j of `b` bits (R10). -/
def laneAt (v : Word) (b j : Nat) : Nat := v.toNat / 2 ^ (b * j) % 2 ^ b

/-- `n` lanes of `b` bits put together. -/
def lanesOf (b : Nat) (f : Nat → Nat) : Nat → Nat
  | 0 => 0
  | j + 1 => lanesOf b f j + f j % 2 ^ b * 2 ^ (b * j)

/-- A register of `n` lanes of `b` bits: an enabled lane takes `f`, a disabled one keeps its old value (R14). -/
def laneWrite (old : Word) (mask : Byte) (b n : Nat) (f : Nat → Nat) : Word :=
  BitVec.ofNat 64 (lanesOf b (fun j => if mask.getLsbD j then f j else laneAt old b j) n)

/-- A lane read as signed, or as unsigned when U = 1 (R106). -/
def laneInt (u : BitVec 1) (x b : Nat) : Int := if u = 1 then (x : Int) else signed x b

/-- A lane result saturated signed or unsigned, as `b` bits. -/
def laneSat (u : BitVec 1) (v : Int) (b : Nat) : Nat := wrapTo (if u = 1 then satU v b else satS v b) b

/-! ### Addresses and the modifier -/

/-- base + offset × size, modulo 2^64 (R54, R113); the offset is signed and extended by R61. -/
def effAddr (c : Ctx) (base : Reg) (off w size : Nat) : Nat :=
  (getG c.t.line base + extField c off w true * BitVec.ofNat 64 size).toNat

/-- The rounding in force for majors 0x0C and 0x0D: the modifier's RND, else RMODE (R66); 0 RNE, 1 RTZ, 2 RDN, 3 RUP. -/
def roundingOf (c : Ctx) : Nat :=
  match c.md with
  | some m => if (m.extractLsb' 2 3) = 0 then c.t.line.rmode.toNat else (m.extractLsb' 2 3).toNat - 1
  | none => c.t.line.rmode.toNat

/-- ACK of the modifier (R66). -/
def ackOf (c : Ctx) : Bool :=
  match c.md with
  | some m => m.getLsbD 1
  | none => false

/-- A trap of the operands raises it; otherwise go on. -/
def orTrap {α : Type} (e : Option Trap) (k : α) : Except Trap α :=
  match e with
  | some t => .error t
  | none => .ok k

end Sys2Proof.Machine
end

