-- ==== Sys2Proof/Machine/SoftFloat.lean ====
section
/-! DEFINITION. Machine/SoftFloat.lean: binary floating point on bit patterns, exact then rounded once: the formats of R281
and R282, the scalar path's operations (R41 to R43, R108, R110, R111), and the roots and quotients both paths share. A
finite value is m × 2^e. Roundings: 0 RNE, 1 RTZ, 2 RDN, 3 RUP. -/

namespace Sys2Proof.Machine

/-- A binary format: exponent and fraction widths (R281). -/
structure Fmt where
  ew : Nat
  fw : Nat
  deriving DecidableEq, Repr

/-- binary64. -/
def fmt64 : Fmt := ⟨11, 52⟩
/-- binary32. -/
def fmt32 : Fmt := ⟨8, 23⟩
/-- binary16. -/
def fmt16 : Fmt := ⟨5, 10⟩
/-- bfloat16. -/
def fmtB16 : Fmt := ⟨8, 7⟩

/-- The format of a width code of R76. -/
def fmtOf (w : BitVec 2) : Fmt :=
  match w.toNat with
  | 0 => fmt64
  | 1 => fmt32
  | 2 => fmt16
  | _ => fmtB16

/-- The bits of a word of the format. -/
def Fmt.bits (f : Fmt) : Nat := 1 + f.ew + f.fw
/-- The bias. -/
def Fmt.bias (f : Fmt) : Nat := 2 ^ (f.ew - 1) - 1
/-- The exponent of the least normal. -/
def Fmt.emin (f : Fmt) : Int := 1 - (f.bias : Int)
/-- Exponent field all ones. -/
def Fmt.ones (f : Fmt) : Nat := 2 ^ f.ew - 1
/-- The sign bit. -/
def Fmt.signBit (f : Fmt) (neg : Bool) : Nat := b2n neg * 2 ^ (f.ew + f.fw)
/-- An infinity. -/
def Fmt.inf (f : Fmt) (neg : Bool) : Nat := f.signBit neg + f.ones * 2 ^ f.fw
/-- The largest finite value. -/
def Fmt.maxFin (f : Fmt) (neg : Bool) : Nat := f.inf neg - 1
/-- The default NaN (R43, R281). -/
def Fmt.nan (f : Fmt) : Nat := f.ones * 2 ^ f.fw + 2 ^ (f.fw - 1)

/-- A word of a format read as a value (R282). -/
inductive Fv where
  | nan (quiet neg : Bool) (pay : Nat)
  | inf (neg : Bool)
  | zero (neg : Bool)
  | fin (neg : Bool) (m : Nat) (e : Int)
  deriving DecidableEq, Repr

/-- Read a word (R282). -/
def unpack (f : Fmt) (x : Nat) : Fv :=
  let neg := x / 2 ^ (f.ew + f.fw) % 2 == 1
  let ex := x / 2 ^ f.fw % 2 ^ f.ew
  let fr := x % 2 ^ f.fw
  if ex = f.ones then
    if fr = 0 then .inf neg else .nan (decide (2 ^ (f.fw - 1) ≤ fr)) neg fr
  else if ex = 0 then
    if fr = 0 then .zero neg else .fin neg fr (f.emin - f.fw)
  else .fin neg (fr + 2 ^ f.fw) ((ex : Int) - f.bias - f.fw)

/-- The word is subnormal. -/
def isSubnormal (f : Fmt) (x : Nat) : Bool := x / 2 ^ f.fw % 2 ^ f.ew == 0 && x % 2 ^ f.fw != 0

/-! ### Exceptions, bit for bit as FFLG (R35) -/

def excInvalid : BitVec 5 := 1
def excDivZero : BitVec 5 := 2
def excOverflow : BitVec 5 := 4
def excUnderflow : BitVec 5 := 8
def excInexact : BitVec 5 := 16

/-- An exception set from a condition. -/
def excIf (b : Bool) (e : BitVec 5) : BitVec 5 := if b then e else 0

/-! ### Rounding -/

/-- Whether a remainder r of d rounds the magnitude up. -/
def roundsUp (rm : Nat) (neg odd : Bool) (r d : Nat) : Bool :=
  match rm with
  | 0 => decide (d < 2 * r) || (2 * r == d && odd)
  | 1 => false
  | 2 => neg && r != 0
  | _ => !neg && r != 0

/-- m × 2^e rounded to a multiple of 2^q: the multiple, and whether it is inexact. -/
def roundAt (rm : Nat) (neg : Bool) (m : Nat) (e q : Int) : Nat × Bool :=
  if q ≤ e then (m * 2 ^ (e - q).toNat, false)
  else
    let d := 2 ^ (q - e).toNat
    (m / d + b2n (roundsUp rm neg (m / d % 2 == 1) (m % d) d), m % d != 0)

/-- The exponent of the leading bit of m × 2^e. -/
def leadExp (m : Nat) (e : Int) : Int := (Nat.log2 m : Int) + e

/-- Rounded to the format's precision with an unbounded exponent, the magnitude is below the least normal (R41, R284). -/
def isTiny (f : Fmt) (rm : Nat) (neg : Bool) (m : Nat) (e : Int) : Bool :=
  let le := leadExp m e
  let r := (roundAt rm neg m e (le - f.fw)).1
  decide ((if r = 2 ^ (f.fw + 1) then le + 1 else le) < f.emin)

/-- A result that overflows, by its rounding. -/
def overflowed (f : Fmt) (rm : Nat) (neg : Bool) : Nat :=
  match rm with
  | 0 => f.inf neg
  | 1 => f.maxFin neg
  | 2 => if neg then f.inf neg else f.maxFin neg
  | _ => if neg then f.maxFin neg else f.inf neg

/-- The nonzero value m × 2^e rounded once to the format, with subnormals (R41): the word and the exceptions. -/
def roundPack (f : Fmt) (rm : Nat) (neg : Bool) (m : Nat) (e : Int) : Nat × BitVec 5 :=
  let q := max (leadExp m e - f.fw) (f.emin - f.fw)
  let rx := roundAt rm neg m e q
  let r := if rx.1 = 2 ^ (f.fw + 1) then 2 ^ f.fw else rx.1
  let q := if rx.1 = 2 ^ (f.fw + 1) then q + 1 else q
  if 2 ^ f.fw ≤ r ∧ (f.bias : Int) < q + f.fw then (overflowed f rm neg, excOverflow ||| excInexact)
  else
    let mag := if r < 2 ^ f.fw then r else (q + f.fw + f.bias).toNat * 2 ^ f.fw + (r - 2 ^ f.fw)
    (f.signBit neg + mag, excIf rx.2 excInexact ||| excIf (rx.2 && isTiny f rm neg m e) excUnderflow)

/-! ### Exact values -/

/-- A finite value as a signed m × 2^e. -/
def dyadic : Fv → Option (Int × Int)
  | .zero _ => some (0, 0)
  | .fin neg m e => some (if neg then -(m : Int) else m, e)
  | _ => none

/-- The exact sum of two dyadic numbers. -/
def dyAdd (a b : Int × Int) : Int × Int :=
  if a.1 = 0 then b else if b.1 = 0 then a
  else
    let e := min a.2 b.2
    (a.1 * (2 ^ (a.2 - e).toNat : Nat) + b.1 * (2 ^ (b.2 - e).toNat : Nat), e)

/-- The sign of a value. -/
def fvNeg : Fv → Bool
  | .nan _ n _ => n
  | .inf n => n
  | .zero n => n
  | .fin n _ _ => n

/-- The value is a NaN. -/
def fvNan : Fv → Bool
  | .nan _ _ _ => true
  | _ => false

/-- The value is a signalling NaN. -/
def fvSignalling : Fv → Bool
  | .nan q _ _ => !q
  | _ => false

/-- The value is an infinity. -/
def fvInf : Fv → Bool
  | .inf _ => true
  | _ => false

/-- The value is a zero. -/
def fvZero : Fv → Bool
  | .zero _ => true
  | _ => false

/-- The first NaN among the sources, made quiet (R43). -/
def firstNan (f : Fmt) : List Fv → Nat
  | [] => f.nan
  | .nan _ neg pay :: _ => f.inf neg + (if 2 ^ (f.fw - 1) ≤ pay then pay else pay + 2 ^ (f.fw - 1))
  | _ :: t => firstNan f t

/-- The result when a source is a NaN: R43, invalid for a signalling one. -/
def nanResult (f : Fmt) (l : List Fv) : Nat × BitVec 5 := (firstNan f l, excIf (l.any fvSignalling) excInvalid)

/-- An invalid operation without a NaN source. -/
def invalidResult (f : Fmt) : Nat × BitVec 5 := (f.nan, excInvalid)

/-- A signed exact value rounded; an exact zero has the sign given. -/
def roundDyadic (f : Fmt) (rm : Nat) (zeroNeg : Bool) (v : Int × Int) : Nat × BitVec 5 :=
  if v.1 = 0 then (f.signBit zeroNeg, 0) else roundPack f rm (decide (v.1 < 0)) v.1.natAbs v.2

/-- The sign of an exact zero sum: the sign of two zeros of one sign, else −0 only under RDN (R42). -/
def zeroSumNeg (rm : Nat) (a b : Fv) : Bool :=
  if fvZero a && fvZero b && fvNeg a == fvNeg b then fvNeg a else rm == 2

/-! ### Operations (R108) -/

/-- a + b on values. -/
def addFv (f : Fmt) (rm : Nat) (a b : Fv) : Nat × BitVec 5 :=
  if fvInf a then (if fvInf b && fvNeg a != fvNeg b then invalidResult f else (f.inf (fvNeg a), 0))
  else if fvInf b then (f.inf (fvNeg b), 0)
  else roundDyadic f rm (zeroSumNeg rm a b) (dyAdd ((dyadic a).getD (0, 0)) ((dyadic b).getD (0, 0)))

/-- fadd. -/
def fadd (f : Fmt) (rm x y : Nat) : Nat × BitVec 5 :=
  let a := unpack f x
  let b := unpack f y
  if fvNan a || fvNan b then nanResult f [a, b] else addFv f rm a b

/-- The sign bit turned over. -/
def flipSign (f : Fmt) (x : Nat) : Nat := if x / 2 ^ (f.ew + f.fw) % 2 = 1 then x - 2 ^ (f.ew + f.fw) else x + 2 ^ (f.ew + f.fw)

/-- fsub: a NaN source keeps its own sign. -/
def fsub (f : Fmt) (rm x y : Nat) : Nat × BitVec 5 :=
  let a := unpack f x
  let b := unpack f y
  if fvNan a || fvNan b then nanResult f [a, b] else addFv f rm a (unpack f (flipSign f y))

/-- The exact product of two finite nonzero values. -/
def mulDy (a b : Int × Int) : Int × Int := (a.1 * b.1, a.2 + b.2)

/-- fmul. -/
def fmul (f : Fmt) (rm x y : Nat) : Nat × BitVec 5 :=
  let a := unpack f x
  let b := unpack f y
  let neg := fvNeg a != fvNeg b
  if fvNan a || fvNan b then nanResult f [a, b]
  else if (fvInf a && fvZero b) || (fvZero a && fvInf b) then invalidResult f
  else if fvInf a || fvInf b then (f.inf neg, 0)
  else roundDyadic f rm neg (mulDy ((dyadic a).getD (0, 0)) ((dyadic b).getD (0, 0)))

/-- The quotient of two positive numbers to `p` bits and one sticky bit below: m × 2^e. -/
def quotient (p : Nat) (m1 : Nat) (e1 : Int) (m2 : Nat) (e2 : Int) : Nat × Int :=
  let k := Nat.log2 m2 + p + 4 - Nat.log2 m1
  let n := m1 * 2 ^ k
  (2 * (n / m2) + b2n (n % m2 != 0), e1 - e2 - k - 1)

/-- fdiv. -/
def fdiv (f : Fmt) (rm x y : Nat) : Nat × BitVec 5 :=
  let a := unpack f x
  let b := unpack f y
  let neg := fvNeg a != fvNeg b
  if fvNan a || fvNan b then nanResult f [a, b]
  else match a, b with
    | .inf _, .inf _ => invalidResult f
    | .zero _, .zero _ => invalidResult f
    | .inf _, _ => (f.inf neg, 0)
    | _, .inf _ => (f.signBit neg, 0)
    | .zero _, _ => (f.signBit neg, 0)
    | _, .zero _ => (f.inf neg, excDivZero)
    | .fin _ m1 e1, .fin _ m2 e2 =>
      let q := quotient f.fw m1 e1 m2 e2
      roundPack f rm neg q.1 q.2
    | _, _ => invalidResult f

/-- The integer square root of n below 2^(k), found bit by bit. -/
def isqrt (n : Nat) : Nat → Nat → Nat
  | 0, r => r
  | k + 1, r => if (r + 2 ^ k) * (r + 2 ^ k) ≤ n then isqrt n k (r + 2 ^ k) else isqrt n k r

/-- The square root of a positive number to `p` bits and one sticky bit below: m × 2^e. -/
def sqrtDy (p m : Nat) (e : Int) : Nat × Int :=
  let k := 2 * (p + 4) + (if e % 2 = 0 then 0 else 1)
  let n := m * 2 ^ k
  let r := isqrt n (Nat.log2 n / 2 + 1) 0
  (2 * r + b2n (r * r != n), (e - k) / 2 - 1)

/-- fsqrt. -/
def fsqrt (f : Fmt) (rm x : Nat) : Nat × BitVec 5 :=
  match unpack f x with
  | .nan q n p => nanResult f [.nan q n p]
  | .zero n => (f.signBit n, 0)
  | .inf n => if n then invalidResult f else (f.inf false, 0)
  | .fin n m e =>
    if n then invalidResult f
    else
      let r := sqrtDy f.fw m e
      roundPack f rm false r.1 r.2

/-- Words that are no NaN in value order; both zeros are 0. -/
def orderKey (f : Fmt) (x : Nat) : Int :=
  let mag := x % 2 ^ (f.ew + f.fw)
  if x / 2 ^ (f.ew + f.fw) % 2 = 1 then -(mag : Int) else mag

/-- The smaller word, −0 below +0. -/
def lowerOf (f : Fmt) (x y : Nat) : Nat :=
  if orderKey f x < orderKey f y then x
  else if orderKey f y < orderKey f x then y
  else if fvNeg (unpack f x) then x else y

/-- The larger word, −0 below +0. -/
def upperOf (f : Fmt) (x y : Nat) : Nat :=
  if orderKey f x < orderKey f y then y
  else if orderKey f y < orderKey f x then x
  else if fvNeg (unpack f x) then y else x

/-- minimumNumber and maximumNumber: one NaN gives the other source. -/
def minMaxNumber (f : Fmt) (pick : Nat → Nat → Nat) (x y : Nat) : Nat × BitVec 5 :=
  let a := unpack f x
  let b := unpack f y
  let flags := excIf (fvSignalling a || fvSignalling b) excInvalid
  if fvNan a && fvNan b then (firstNan f [a, b], flags)
  else if fvNan a then (y, flags)
  else if fvNan b then (x, flags)
  else (pick x y, flags)

/-- fmin. -/
def fmin (f : Fmt) (x y : Nat) : Nat × BitVec 5 := minMaxNumber f (lowerOf f) x y

/-- fmax. -/
def fmax (f : Fmt) (x y : Nat) : Nat × BitVec 5 := minMaxNumber f (upperOf f) x y

/-- fma: x × y + z rounded once. -/
def fma (f : Fmt) (rm x y z : Nat) : Nat × BitVec 5 :=
  let a := unpack f x
  let b := unpack f y
  let c := unpack f z
  let neg := fvNeg a != fvNeg b
  let badProduct := (fvInf a && fvZero b) || (fvZero a && fvInf b)
  if fvNan a || fvNan b || fvNan c then
    let r := nanResult f [a, b, c]
    (r.1, r.2 ||| excIf badProduct excInvalid)
  else if badProduct then invalidResult f
  else if fvInf a || fvInf b then
    if fvInf c && fvNeg c != neg then invalidResult f else (f.inf neg, 0)
  else if fvInf c then (f.inf (fvNeg c), 0)
  else
    let p := mulDy ((dyadic a).getD (0, 0)) ((dyadic b).getD (0, 0))
    let zeroNeg := if p.1 = 0 ∧ fvZero c ∧ fvNeg c = neg then neg else rm == 2
    roundDyadic f rm zeroNeg (dyAdd p ((dyadic c).getD (0, 0)))

/-- A condition of fcmp: 0 eq, 1 ne, 2 lt, 3 le, 4 gt, 5 ge, 6 un, 7 ord. -/
def fcmp (f : Fmt) (cond x y : Nat) : Bool × BitVec 5 :=
  let a := unpack f x
  let b := unpack f y
  let un := fvNan a || fvNan b
  let kx := orderKey f x
  let ky := orderKey f y
  let quietCond := cond < 2 || 6 ≤ cond
  let flags := excIf (fvSignalling a || fvSignalling b || (un && !quietCond)) excInvalid
  (match cond with
    | 0 => !un && kx == ky
    | 1 => un || kx != ky
    | 2 => !un && decide (kx < ky)
    | 3 => !un && decide (kx ≤ ky)
    | 4 => !un && decide (ky < kx)
    | 5 => !un && decide (ky ≤ kx)
    | 6 => un
    | _ => !un, flags)

/-! ### Conversions (R110, R111) -/

/-- A payload moved from `n1` to `n2` fraction bits, its high-order bits kept, made quiet (R43). -/
def movePayload (n1 n2 pay : Nat) : Nat :=
  let p := if n1 ≤ n2 then pay * 2 ^ (n2 - n1) else pay / 2 ^ (n1 - n2)
  if 2 ^ (n2 - 1) ≤ p then p else p + 2 ^ (n2 - 1)

/-- Float to float (R110 item 3). -/
def floatToFloat (f1 f2 : Fmt) (rm x : Nat) : Nat × BitVec 5 :=
  match unpack f1 x with
  | .nan q neg pay => (f2.inf neg + movePayload f1.fw f2.fw pay, excIf (!q) excInvalid)
  | .inf neg => (f2.inf neg, 0)
  | .zero neg => (f2.signBit neg, 0)
  | .fin neg m e => roundPack f2 rm neg m e

/-- Integer to float (R110 item 4). -/
def intToFloat (f : Fmt) (rm : Nat) (v : Int) : Nat × BitVec 5 := roundDyadic f rm false (v, 0)

/-- An integer put into a range: outside it the nearer limit and invalid (R110 items 5 and 6). -/
def intoRange (lo hi v : Int) : Int × BitVec 5 :=
  if v < lo then (lo, excInvalid) else if hi < v then (hi, excInvalid) else (v, 0)

/-- A signed magnitude. -/
def signedOf (neg : Bool) (m : Nat) : Int := if neg then -(m : Int) else m

/-- Float to integer in a range (R110 item 5). -/
def floatToInt (f : Fmt) (rm : Nat) (lo hi : Int) (x : Nat) : Int × BitVec 5 :=
  match unpack f x with
  | .nan _ _ _ => (0, excInvalid)
  | .inf neg => (if neg then lo else hi, excInvalid)
  | .zero _ => (0, 0)
  | .fin neg m e =>
    let r := roundAt rm neg m e 0
    let v := intoRange lo hi (signedOf neg r.1)
    (v.1, if v.2 = 0 then excIf r.2 excInexact else v.2)

/-- fround (R111). -/
def fround (f : Fmt) (rm x : Nat) : Nat × BitVec 5 :=
  match unpack f x with
  | .nan q n p => nanResult f [.nan q n p]
  | .inf _ => (x, 0)
  | .zero _ => (x, 0)
  | .fin neg m e =>
    if 0 ≤ e then (x, 0)
    else
      let r := roundAt rm neg m e 0
      ((roundDyadic f rm neg (signedOf neg r.1, 0)).1, excIf r.2 excInexact)

end Sys2Proof.Machine
end

