-- ==== Sys2Proof/Machine/Deliver.lean ====
section
/-! DEFINITION. Machine/Deliver.lean: packets and what they do where they arrive: sending them, forming results (R55, R247),
reading and writing at a location, and the delivery of results, acknowledgements and wakes to a line wherever it is
(R23, R32, R146, R404, R436). -/

namespace Sys2Proof.Machine

/-! ### A line wherever it is -/

/-- The content of a live line: its DRAM image when it is there (R124); none while that image's page is swapped. -/
def contentOf (s : State) (x : LiveLine) : Option Line :=
  match x.place with
  | .dram => match cellOf s x.tenant x.addr with
    | some k => some (memLine s.memory k)
    | none => (remoteImage s x.tenant x.addr).map fun _ => x.line
  | _ => some x.line

/-- The image at `k` with the words of `new` that differ from `old` written. -/
def writeImage (m : Memory) (k : Nat) (old new : Line) : Memory :=
  (List.range 16).foldl (fun m i =>
    let w := (lineWords new).getD i 0
    if w = (lineWords old).getD i 0 then m else memWrite m (k + 8 * i) 8 w.toNat) m

/-- A line leaves every DRAM ready list. -/
def leaveReady (s : State) (t a : Nat) : State :=
  { s with clusters := s.clusters.map fun e => (e.1, { e.2 with ready := e.2.ready.filter (· != (t, a)) }) }

/-- A line changed by a message wherever it is (R436); one in DRAM that becomes ready and is not held enters a ready list. -/
def editLine (s : State) (x : LiveLine) (f : Line → Line) : State :=
  match x.place with
  | .dram =>
    match cellOf s x.tenant x.addr with
    | some k =>
      let old := memLine s.memory k
      let s' := putLine { s with memory := writeImage s.memory k old (f old) } x
      if old.wait ≠ 0 ∧ (f old).wait = 0 ∧ x.clm = false ∧ x.fw = false then enterReady s' x else s'
    | none => match remoteImage s x.tenant x.addr with
      | none => putLine s x
      | some r =>
        let l := f x.line
        let s' := putLine (if l = x.line then s else sendImage s x l r.1 r.2) { x with line := l }
        if x.line.wait ≠ 0 ∧ l.wait = 0 ∧ x.clm = false ∧ x.fw = false then enterReady s' x else s'
  | _ => putLine s { x with line := f x.line }

/-- The message for this line can be applied now: its image is reachable (R436). -/
def reachable (s : State) (x : LiveLine) : Bool :=
  match x.place with
  | .dram => hasImage s x && !(dirHeld s x)
  | .flight _ => false
  | .saved _ => false
  | .away _ _ => false
  | _ => true

/-- A result written to its register, its PEND bit cleared together with it (R21), the flags of an `amo` fadd, and the wait of kind
1 on that register ended (R22). -/
def takeResult (r : Reg) (v : Word) (e : BitVec 5) (l : Line) : Line :=
  let l := clearPending { l with g := l.g.set r.toNat v r.isLt, fflg := l.fflg ||| e } r
  if l.wait = waitTag 1 r.toNat then { l with wait := 0 } else l

/-- The packet is a read, RMW or ticket load of this line, or its result on the way back. -/
def readOut (t a : Nat) (p : Pkt) : Bool :=
  p.tenant == t && p.line == a && !(p.ans) && (match p.body with
    | .read _ _ _ => true
    | .rmw _ _ _ _ _ => true
    | .ticket _ _ _ => true
    | .result _ _ _ => true
    | .failed (some _) _ => true
    | _ => false)

/-- A scale read of this line (R344). -/
def scaleRead (t a : Nat) (c : Cmd) : Bool :=
  c.tenant == t && c.line == a && (match c.op with
    | .sld _ => true
    | _ => false)

/-- A scale read of the line still stands at a heliostat, or in a save area. -/
def scaleOut (s : State) (t a : Nat) : Bool :=
  s.clusters.any (fun e => (engineCmds e.2.scale).any (scaleRead t a))
    || s.switches.any fun w => w.cmds.any fun c => scaleRead t a c.cmd

/-- Every read of the line has been performed (R220, R252). -/
def readsDone (s : State) (t a : Nat) : Bool :=
  !(s.net.any (readOut t a)) && !(fetchHeld s t a) && !(scaleOut s t a)

/-- What a kind-11 wait of the line waits for is complete (R32). -/
def drainMet (s : State) (x : LiveLine) (l : Line) : Bool :=
  match x.drain with
  | .all => drained s { x with line := l }
  | .stores => x.stores == 0
  | .accesses => x.stores == 0 && readsDone s x.tenant x.addr
  | .reads => readsDone s x.tenant x.addr

/-- The last item a kind-11 wait waits for is gone: the line becomes ready, wherever it is (R32); one whose image cannot be written
now gets a message. -/
def wakeDrained (s : State) (t a : Nat) : State :=
  match findLine s t a with
  | none => s
  | some x =>
    if reachable s x then
      editLine s x fun l => if l.wait = waitTag 11 0 ∧ drainMet s x l = true then { l with wait := 0 } else l
    else { s with msgs := s.msgs ++ [⟨t, a, .wake (waitTag 11 0), none, s.dmgen⟩] }

/-- A message that reached the line's home directory earlier is still to be applied: operations on the line come after it (R436). -/
def msgAhead (s : State) (t a : Nat) : Bool := s.msgs.any fun m => m.tenant == t && m.addr == a

/-- A message for a line sets out to its home directory (R436, R439). -/
def sendMsg (s : State) (t a : Nat) (b : MsgBody) : State := { s with msgs := s.msgs ++ [⟨t, a, b, none, s.dmgen⟩] }

/-- Deliver a result to the line of tenant `t` at `a` (R23), behind the messages that its home directory has still to apply and when
the line can be reached (R436); a line that is gone discards it (R408). -/
def deliverResult (s : State) (t a : Nat) (r : Reg) (v : Word) (e : BitVec 5) : State :=
  match findLine s t a with
  | none => s
  | some x =>
    if reachable s x && !(msgAhead s t a) then wakeDrained (editLine s x (takeResult r v e)) t a
    else sendMsg s t a (.result r v e)

/-- The name under which a copy's writes to other members travel (R447). -/
def copyMark (cl entry : Nat) : Nat := 2 ^ 61 + cl * 512 + entry

/-- One write of a copy has been acknowledged. -/
def ackCopy (entry : Nat) (c : Cmd) : Cmd := if c.entry = entry then { c with sent := c.sent.map (· - 1) } else c

/-- A write of a copy to another member has been performed there; the copy stands on its channel, or in a save area. -/
def copyAcked (s : State) (mark : Nat) : State :=
  if 2 ^ 61 ≤ mark then
    let n := mark - 2 ^ 61
    let k := getCluster s (n / 512)
    let f := ackCopy (n % 512)
    let saved := fun (c : SavedCmd) => if c.eng = n / 512 * 4 + 2 then { c with cmd := f c.cmd } else c
    { setCluster s (n / 512) { k with chans := k.chans.map fun e => (e.1, mapChannel f e.2) } with
      switches := s.switches.map fun w => { w with cmds := w.cmds.map saved } }
  else s

/-- A store of the line has been performed: the count falls, and a drain wait whose last item it was ends (R32). -/
def storeDone (s : State) (t a : Nat) : State :=
  match findLine s t a with
  | none => copyAcked s a
  | some x =>
    let s := putLine s { x with stores := x.stores - 1 }
    if x.stores ≤ 1 then wakeDrained s t a else s

/-- The answer of an operation the line waits for in its slot. -/
def deliverAnswer (s : State) (t a id : Nat) (v : Word) : State :=
  match findLine s t a with
  | none => s
  | some x => if x.req = some id then putLine s { x with req := none, replies := x.replies ++ [v] } else s

/-- The address under which accesses of a line that is gone stay on their way: no line answers to it. It keeps the line's trap level
for the record of a failed store (R398, R404). -/
def orphan (a level : Nat) : Nat := a % 2 ^ 56 + level * 2 ^ 57 + 2 ^ 60

/-- The record of a deferred MemoryError of a line that is gone (R404); its PC is a value the spec does not state (log entry 72). -/
def lateError (s : State) (t a level job : Nat) (e : LateError) : State :=
  let r := freeValue s
  let x := deferredTrap e
  report r.2 t ⟨a, r.1.setWidth 48, x.code, BitVec.ofNat 2 level, 0, false, x.addr, x.tdata, job⟩

/-- An error of the line found after issue; a line that has retired leaves only the record of a store (R404). -/
def deferError (s : State) (t a job : Nat) (e : LateError) : State :=
  match findLine s t a with
  | some x => putLine s { x with derr := x.derr ++ [e] }
  | none => match e.reg with
    | some _ => s
    | none => if 2 ^ 61 ≤ a then s else lateError s t (a % 2 ^ 56) (nbits a 57 2) job e

/-- A wake with this tag reaches the line: its wait is cleared when it still waits with it (R146). -/
def applyWake (s : State) (x : LiveLine) (tag : Word) : State :=
  editLine s x fun l => if l.wait = tag then { l with wait := 0 } else l

/-! ### Packets -/

/-- The member that performs an access at a location. -/
def memberOf (s : State) (tenant job : Nat) : Loc → Nat
  | .remote v _ => v
  | _ => vmodOf s tenant job

/-- A packet of the issuing line; `ans` marks answered traffic (R459). -/
def mkPkt (s : State) (c : Ctx) (body : PktBody) (ans : Bool) (va : Nat) (loc : Loc) : Pkt where
  id := s.nextId
  name := s.nextId
  body := body
  ans := ans
  src := vmodOf s c.who.tenant c.who.job
  dst := memberOf s c.who.tenant c.who.job loc
  tenant := c.who.tenant
  job := c.who.job
  line := c.t.addr
  core := c.core
  target := va
  loc := loc
  dmgen := s.dmgen
  bufClass := 0
  bufId := 0
  vc := 0

/-- A packet by name. -/
def findPkt (s : State) (id : Nat) : Option Pkt := s.net.find? (·.id == id)

/-- A packet is taken off the network. -/
def dropPkt (s : State) (id : Nat) : State := { s with net := s.net.filter (·.id != id) }

/-- The packet is for this member. -/
def isHere (s : State) (p : Pkt) : Bool :=
  p.dst == vmodOf s p.tenant p.job && (match p.loc with
    | .remote _ _ => false
    | .virt _ => false
    | _ => true)

/-- The packet came from this member. -/
def isOurs (s : State) (p : Pkt) : Bool := p.src == vmodOf s p.tenant p.job

/-- The virtual die that holds a location, if the map gives one. -/
def dieOfLoc (s : State) : Loc → Option Nat
  | .cell k =>
    if k < windowBase then homeDie s k
    else if k - windowBase < 2 ^ 32 then some ((k - windowBase) / 2 ^ 29)
    else some ((k - windowBase - 2 ^ 32) / 2 ^ 25)
  | .mbox c _ => some (dieOf c)
  | .tdt cl _ => some (dieOfCluster cl)
  | .remote _ _ => none
  | .virt _ => none

/-- The ports of the location's die hold accesses (R440), or the die is lost (R443). -/
def locHeld (s : State) (l : Loc) : Bool :=
  match dieOfLoc s l with
  | some v => dieHeld s v || (getDie s v).state == 3
  | none => true

/-- Slices and ports serve this packet now: answered traffic always, a job packet unless its job is frozen (R459, R460). -/
def served (s : State) (p : Pkt) : Bool := p.ans || !(jobFrozen s p.tenant p.job)

/-- The bytes of a read a packet makes: a copy may hold them back (R340). -/
def readSize (b : PktBody) : Nat :=
  match b with
  | .read n _ _ => n
  | .rmw _ n _ _ _ => n
  | _ => 0

/-- A packet that can be performed here now; one routed under an older die map is routed again first (R439). -/
def performable (s : State) (p : Pkt) : Bool :=
  isHere s p && served s p && p.dmgen == s.dmgen && !(locHeld s p.loc) && !(readHeld s p.loc (readSize p.body))

/-- The packet that answers `p`. -/
def answerPkt (p : Pkt) (body : PktBody) : Pkt := { p with body := body, src := p.dst, dst := p.src }

/-- Send the answer to a packet of another member. -/
def sendAnswer (s : State) (p : Pkt) (body : PktBody) : State :=
  let a := answerPkt p body
  { s with net := s.net ++ [a], links := countLinks s.links (linkPath (sourceOf s a) (goalOf s a)) }

/-! ### Results (R55, R247 to R249) -/

/-- The size in bytes of a type code of R55; 16 is `ld`, 17 a read that may register a wait. -/
def typeSize (ty : Nat) : Nat := [1, 2, 4, 1, 2, 4, 8, 4, 2, 2, 8, 8, 8, 8, 8, 8].getD ty 8

/-- The tag a load of a type writes. -/
def typeTag (ty : Nat) : Byte := [0, 0, 0, 0, 0, 0, 4, 5, 7, 6, 1, 2, 3, 5, 7, 6].getD ty 0

/-- The result of a load of a type from the bytes read. -/
def formLoad (ty raw : Nat) : Word :=
  if ty = 3 ∨ ty = 4 ∨ ty = 5 then extS raw (8 * typeSize ty) else BitVec.ofNat 64 raw

/-- f of R247 at n bits: functions 0 add, 1 and, 2 or, 3 xor, 4 min, 5 max, 6 minb, 7 maxb, 8 swap, 9 cas, 10 fadd, with the
exceptions of fadd. A failed cas keeps the old value. -/
def amoNew (fn n old y c : Nat) : Nat × BitVec 5 :=
  match fn with
  | 0 => ((old + y) % 2 ^ n, 0)
  | 1 => (Nat.land old y, 0)
  | 2 => (Nat.lor old y, 0)
  | 3 => (Nat.xor old y, 0)
  | 4 => (if signed old n ≤ signed y n then old else y, 0)
  | 5 => (if signed old n ≤ signed y n then y else old, 0)
  | 6 => (min old y, 0)
  | 7 => (max old y, 0)
  | 8 => (y, 0)
  | 9 => (if old = c then y else old, 0)
  | _ => fadd (if n = 64 then fmt64 else fmt32) 0 old y

/-- The old value extended into gD (R247). -/
def amoResult (fn n old : Nat) : Word :=
  if fn = 0 ∨ fn = 4 ∨ fn = 5 then extS old n else BitVec.ofNat 64 old

/-- One RMW at a location (R230, R247): the state, the old value and the exceptions. A failed cas writes nothing. -/
def performRmw (s : State) (t : Nat) (l : Loc) (fn size y c : Nat) : State × Nat × BitVec 5 :=
  let n := 8 * size
  let old := readLoc s t l size
  let r := amoNew fn n old (y % 2 ^ n) (c % 2 ^ n)
  if fn = 9 ∧ old ≠ c % 2 ^ n then (s, old, 0) else (writeLoc s l size r.1, old, r.2)

/-- The bytes at a location are poisoned (R404). -/
def locPoisoned (s : State) (l : Loc) (n : Nat) : Bool :=
  match l with
  | .cell k => poisoned s.memory k n
  | _ => false

/-- Perform a store packet: the bytes, and the full/empty bit of an ste (R172). -/
def performWrite (s : State) (l : Loc) (size : Nat) (v : Word) (fe : Option Bool) : State :=
  let s := writeLoc s l size v.toNat
  match l, fe with
  | .cell k, some b =>
    if feAt s.memory k = b then s else wakeFullEmpty { s with memory := fePut s.memory k b } k
  | _, _ => s

/-! ### Accesses an instruction performs before it goes on (R156) -/

/-- The next answer an instruction needs: operation number `i` of those it sends to another member. -/
def remoteOp (s : State) (c : Ctx) (i : Nat) (body : PktBody) (va : Nat) (loc : Loc) (k : Word → Res) : Res :=
  match c.t.replies[i]? with
  | some v => k v
  | none =>
    if c.t.req.isSome then .retry s c.t.req c.t.replies
    else .retry (sendPkt s (mkPkt s c body true va loc)) (some s.nextId) c.t.replies

/-- The location is on another member. -/
def isRemote : Loc → Bool
  | .remote _ _ => true
  | _ => false

/-- Read `size` bytes; `wait` when the reader may go on to wait on them. The continuation is given the raw bytes, and whether
they were poisoned. -/
def syncRead (s : State) (c : Ctx) (i : Nat) (size : Nat) (wait : Bool) (va : Nat) (loc : Loc) (k : Nat → Bool → Res) : Res :=
  if isRemote loc then
    remoteOp s c i (.read size (if wait then 17 else 16) 0) va loc fun v => k (v.toNat % 256 ^ size) false
  else if locHeld s loc || readHeld s loc size then .retry s c.t.req c.t.replies
  else if locPoisoned s loc size then k 0 true
  else k (readLoc s c.who.tenant loc size) false

/-- Write `size` bytes. -/
def syncWrite (s : State) (c : Ctx) (i : Nat) (size : Nat) (v : Word) (va : Nat) (loc : Loc) (k : State → Res) : Res :=
  if isRemote loc then remoteOp s c i (.write size v none) va loc fun _ => k s
  else if locHeld s loc then .retry s c.t.req c.t.replies
  else k (writeLoc s loc size v.toNat)

/-- Add `inc` to the 64-bit word of a join counter (R139). A copy may hold its read back (R340); a poisoned word is left as it is,
and the continuation is told (R404). -/
def syncAdd (s : State) (c : Ctx) (inc : Word) (va : Nat) (loc : Loc) (k : State → Bool → Res) : Res :=
  if isRemote loc then remoteOp s c 0 (.rmw 0 8 inc 0 0) va loc fun _ => k s false
  else if locHeld s loc || readHeld s loc 8 then .retry s c.t.req c.t.replies
  else if locPoisoned s loc 8 then k s true
  else k (performRmw s c.who.tenant loc 0 8 inc.toNat 0).1 false

/-- An operation on another member that the instruction performs once: `start` sends it, `done` follows its answer, and in between
the instruction keeps its slot (R156, R447). -/
def remoteOnce (s : State) (c : Ctx) (done start : Res) : Res :=
  if c.t.replies ≠ [] then done else if c.t.req.isSome then .retry s c.t.req c.t.replies else start

/-- The issuing line with a deferred MemoryError of register `r` when its read was poisoned (R404). -/
def noteError (t : LiveLine) (bad : Bool) (r : Option Reg) (va : Nat) : LiveLine :=
  if bad then { t with derr := t.derr ++ [⟨r, va, none⟩] } else t

end Sys2Proof.Machine
end

