-- ==== Sys2Proof/Machine/TileForm.lean ====
section
/-! DEFINITION. Machine/TileForm.lean: the storage of a tile (R192) and its clearing (R266). -/

namespace Sys2Proof.Machine

/-! ### Storage (R192) -/

/-- Bits per element of a format code. -/
def fmtBits (f : Nat) : Nat :=
  match f with
  | 0 => 32
  | 1 => 16
  | 2 => 16
  | 3 => 8
  | 4 => 32
  | n => n - 4

/-- The format code is assigned. -/
def fmtValid (f : Nat) : Bool := decide (f < 5) || (decide (6 ≤ f) && decide (f < 13))

/-- The format is BFP-k. -/
def isBfp (f : Nat) : Bool := decide (6 ≤ f)

/-- n rounded up to a multiple of 64. -/
def up64 (n : Nat) : Nat := (n + 63) / 64 * 64

def TdtEntry.rows (e : TdtEntry) : Nat := e.rowsm1.toNat + 1
def TdtEntry.cols (e : TdtEntry) : Nat := e.colsm1.toNat + 1

/-- RB: the bytes of a row. -/
def TdtEntry.rowBytes (e : TdtEntry) : Nat := up64 ((e.cols * fmtBits e.fmt.toNat + 7) / 8)

/-- Blocks of 32 in n. -/
def blocks32 (n : Nat) : Nat := (n + 31) / 32

/-- The number of block exponents. -/
def TdtEntry.expCount (e : TdtEntry) : Nat :=
  if e.axis then blocks32 e.rows * e.cols else e.rows * blocks32 e.cols

/-- The bytes of the data range. -/
def TdtEntry.dataLen (e : TdtEntry) : Nat := e.stride.toNat * e.rowsm1.toNat + e.rowBytes

/-- The bytes of the exponent region; none for a format without exponents. -/
def TdtEntry.expLen (e : TdtEntry) : Nat := if isBfp e.fmt.toNat then up64 e.expCount else 0

/-- The key of vault offset `o` of a tile: its swizzle places every 8-byte word (R188). -/
def tileKey (cl : Nat) (e : TdtEntry) (o : Nat) : Nat := vaultKey cl (swizzleVault e.swz o)

/-- The ranges [b, b + n) of a vault, by offset. -/
def TdtEntry.ranges (e : TdtEntry) : List (Nat × Nat) :=
  (e.base.toNat, e.dataLen) :: (if isBfp e.fmt.toNat then [(e.bexp.toNat, e.expLen)] else [])

/-! ### Clearing -/

/-- The words of the range from offset `o` on set to zero and empty, where the swizzle puts them (R266). -/
def clearWords (cl : Nat) (e : TdtEntry) : Nat → Nat → State → State
  | 0, _, s => s
  | n + 1, o, s =>
    let k := tileKey cl e o
    let s := writeLoc s (.cell k) 8 0
    let s := if feAt s.memory k then wakeFullEmpty { s with memory := fePut s.memory k false } k else s
    clearWords cl e n (o + 8) s

/-- The clearing an allocation asks for. -/
def clearTile (s : State) (cl : Nat) (e : TdtEntry) : State :=
  e.ranges.foldl (fun s r => clearWords cl e (r.2 / 8) r.1 s) s

/-- The clearing that an allocation asked for is done: the entry is valid, GEN unchanged (R194). -/
def scrubbedTile (s : State) (cl i : Nat) : State := setTdt s cl i { getTdt s cl i with state := 2 }

end Sys2Proof.Machine
end

