-- ==== Sys2Proof/Machine/Lines.lean ====
section
/-! DEFINITION. Machine/Lines.lean: lines coming and going: the context pool (R138), creation from a record (R137), deques
(R140 to R142), retirement, release of claims and kill (R134, R165, R402, R407, R408), and what fills a slot (R128). -/

namespace Sys2Proof.Machine

/-! ### Room (R125) -/

/-- Lines of a core's CL1, its slots included; lines of a cluster's CL2. -/
def cl1Load (s : State) (core : Nat) : Nat :=
  (allLines s).countP fun x => match x.place with
    | .slot c _ => c == core
    | .cl1 c => c == core
    | _ => false

def cl2Load (s : State) (cl : Nat) : Nat := (allLines s).countP fun x => x.place == .cl2 cl

def cl1Room (s : State) (core : Nat) : Bool := decide (cl1Load s core < 256)
def cl2Room (s : State) (cl : Nat) : Bool := decide (cl2Load s cl < (getCluster s cl).cl2Mib * 8192)

/-- Die `v` fills and runs lines (R438, R440). -/
def dieRuns (s : State) (v : Nat) : Bool := (getDie s v).state == 0

/-! ### The context pool (R138) -/

/-- The address of pool line `i`. -/
def poolAddr (x : Tenant) (i : Nat) : Nat := x.ctxBase.toNat + 128 * i

/-- Pool line `i` of tenant `t` is taken. -/
def poolTaken (s : State) (t i : Nat) : Bool :=
  (getTenant s t).pool.contains i || (allLines s).any (isLine t (poolAddr (getTenant s t) i))

/-- The first pool line that is free from `i` on, wrapping. -/
def poolFrom (s : State) (t : Nat) : Nat → Nat → Option Nat
  | 0, _ => none
  | fuel + 1, i =>
    let n := (getTenant s t).ctxLines
    if poolTaken s t (i % n) then poolFrom s t fuel (i + 1) else some (i % n)

/-- CTXPOOL_FREE. -/
def poolFree (s : State) (t : Nat) : Nat := (getTenant s t).ctxLines - (getTenant s t).pool.length

/-- Some pool line is free. -/
def poolHas (s : State) (t : Nat) : Bool :=
  let x := getTenant s t
  decide (0 < x.ctxLines) && (poolFrom s t (min x.ctxLines (x.pool.length + (allLines s).length + 1)) 0).isSome

/-- Take a free pool line, the device's choice. -/
def poolTake (s : State) (t : Nat) : Option (Nat × State) :=
  let x := getTenant s t
  if x.ctxLines = 0 then none
  else
    let r := choose s x.ctxLines
    (poolFrom r.2 t (min x.ctxLines (x.pool.length + (allLines s).length + 1)) r.1).map fun i =>
      (poolAddr x i, modTenant r.2 t fun y => { y with pool := setIns i y.pool })

/-- A pool line is free again. -/
def poolGive (s : State) (x : LiveLine) : State :=
  if x.pool then modTenant s x.tenant fun y =>
    { y with pool := setDel ((x.addr - y.ctxBase.toNat) / 128) y.pool, poolNote := false }
  else s

/-- The pool of tenant `t` had no free line: the first refusal writes a record (R138). -/
def poolRefused (s : State) (t : Nat) : State :=
  if (getTenant s t).poolNote then s
  else report (modTenant s t fun x => { x with poolNote := true }) t ⟨0, 0, 70, 0, 3, false, 0, 0, 0⟩

/-! ### Deques (R140 to R142) -/

/-- A record may be removed by a pop or a steal, the pool apart. -/
def recordRuns (s : State) (r : TaskRec) : Bool := !(r.held) && mayRun s r.tenant r.job

/-- A record is poppable (R141). -/
def poppable (s : State) (r : TaskRec) : Bool := recordRuns s r && poolHas s r.tenant

/-- The newest element that meets a test, and the list without it. -/
def takeNewest (p : TaskRec → Bool) (l : List TaskRec) : Option (TaskRec × List TaskRec) :=
  match l.reverse.find? p with
  | none => none
  | some r => some (r, ((l.reverse.erase r)).reverse)

/-- The oldest element that meets a test, and the list without it. -/
def takeOldest (p : TaskRec → Bool) (l : List TaskRec) : Option (TaskRec × List TaskRec) :=
  match l.find? p with
  | none => none
  | some r => some (r, l.erase r)

/-- Push a record (R141); none when the ring would lack room. -/
def dequePush (c : Core) (r : TaskRec) : Option Core :=
  let ring := if c.deque.length < 64 then c.ring else c.ring ++ c.deque.take 16
  let chip := (if c.deque.length < 64 then c.deque else c.deque.drop 16) ++ [r]
  if 2 ^ c.spillLog < ring.length + chip.length then none else some { c with deque := chip, ring := ring }

/-- Records the ring gives to the on-chip part before a pop: up to 16 of the newest that meet the test (R141). -/
def refill (p : TaskRec → Bool) (c : Core) : Core :=
  let newest := ((c.ring.reverse.filter p).take (max 1 (min 16 (64 - c.deque.length)))).reverse
  { c with ring := c.ring.filter fun r => !(newest.contains r), deque := newest ++ c.deque }

/-- Pop (R141). -/
def dequePop (p : TaskRec → Bool) (c : Core) : Option (TaskRec × Core) :=
  let c := if c.deque.any p then c else if c.ring.any p then refill p c else c
  (takeNewest p c.deque).map fun e => (e.1, { c with deque := e.2 })

/-- Steal: the oldest record that meets the test, of the logical deque (R141). -/
def dequeSteal (p : TaskRec → Bool) (c : Core) : Option (TaskRec × Core) :=
  match takeOldest p c.ring with
  | some e => some (e.1, { c with ring := e.2 })
  | none => (takeOldest p c.deque).map fun e => (e.1, { c with deque := e.2 })

/-- The record of an identity that a cancel by tenant `t` may take (R141, R170). -/
def isRecord (t origin : Nat) (serial : BitVec 32) (r : TaskRec) : Bool :=
  r.origin == origin && r.serial == serial && !(r.held) && r.tenant == t

/-- The domain of a record admits a thief (R142). -/
def admits (r : TaskRec) (thief : Nat) : Bool :=
  match r.sdom.toNat with
  | 0 => clusterOf r.origin == clusterOf thief
  | 1 => dieOf r.origin == dieOf thief
  | _ => true

/-- The line a record becomes (R137). -/
def recordLine (r : TaskRec) : Line :=
  { Line.zero with
    g := ((((Line.zero.g.set 0 r.g0).set 1 r.g1).set 2 r.g2).set 3 r.g3).set 4 (r.jaddr.setWidth 64)
    tag := (((Line.zero.tag.set 0 (r.tags.extractLsb' 0 8)).set 1 (r.tags.extractLsb' 8 8)).set 2 (r.tags.extractLsb' 16 8)).set 3
      (r.tags.extractLsb' 24 8)
    pc := r.pc
    tenant := BitVec.ofNat 8 r.tenant
    job := BitVec.ofNat 16 r.job
    prio := r.prio
    sdom := r.sdom }

/-- A record becomes a line in slot `k` of core `c` (R137); its ready list is that of the core's cluster (log entry 79). None while the
line's home directory is held (R440). -/
def startRecord (s : State) (r : TaskRec) (c k : Nat) : Option State :=
  match poolTake s r.tenant with
  | none => none
  | some (a, s') =>
    if addrHeld s r.tenant a then none
    else some <| putLine s' { LiveLine.new r.tenant a (.slot c k) (recordLine r) with pool := true, lastCl := clusterOf c }

/-! ### Claims released, lines retired or killed -/

/-- The staging row of line address `a` in a command's list is dropped (R329, R389). -/
def dropRow (row a : Nat) (c : Cmd) : Cmd := { c with stg := c.stg.filter fun r => !(r.srow == row && r.line == a) }

/-- The command holds a staging row for this line. -/
def hasRow (row a : Nat) (c : Cmd) : Bool := c.stg.any fun r => r.srow == row && r.line == a

/-- A finishing line goes without releasing its row: the row is free and its job has ROWDROP (R329). -/
def dropStaging (s : State) (x : LiveLine) : State :=
  match x.staging with
  | none => s
  | some (cl, row) =>
    let e := getEngine s (cl * 4)
    let saved := (s.switches.flatMap (·.cmds)).filter fun c => c.eng == cl * 4
    match ((engineCmds e ++ saved.map (·.cmd)).find? (hasRow row x.addr)).map (·.entry) with
    | none => s
    | some n =>
      let f := fun (c : Cmd) => if c.entry = n then dropRow row x.addr c else c
      let jobs := match tabFind n e.jobs with
        | some j => tabIns n { j with rowdrop := true } e.jobs
        | none => e.jobs
      { setEngine s (cl * 4) { mapEngine f e with jobs := jobs } with
        switches := s.switches.map fun w =>
          { w with cmds := w.cmds.map fun c => if c.eng = cl * 4 then { c with cmd := f c.cmd } else c } }

/-- Change every engine command, wherever it stands. -/
def mapCmds (f : Cmd → Cmd) (s : State) : State :=
  let cluster := fun (c : Cluster) =>
    { c with last := mapEngine f c.last, tread := mapEngine f c.tread, copy := mapEngine f c.copy, scale := mapEngine f c.scale,
             chans := c.chans.map fun e => (e.1, mapChannel f e.2) }
  { s with
    clusters := s.clusters.map fun e => (e.1, cluster e.2)
    dies := s.dies.map fun e => (e.1, { e.2 with swap := mapEngine f e.2.swap })
    switches := s.switches.map fun w => { w with cmds := w.cmds.map fun c => { c with cmd := f c.cmd } } }

/-- Accesses and commands of a line that is gone answer to no line (R408). -/
def orphanAll (s : State) (t a level : Nat) : State :=
  let gone := orphan a level
  let own := fun (p : Pkt) => if p.tenant = t ∧ p.line = a ∧ p.src = vmodOf s p.tenant p.job then { p with line := gone } else p
  let fetch := fun (e : TicketEntry) => if fetchOut t a e then { e with line := gone } else e
  mapCmds (fun c => if c.tenant = t ∧ c.line = a then { c with line := gone } else c)
    { s with net := s.net.map own, switches := s.switches.map fun w => { w with pkts := w.pkts.map own },
             slices := s.slices.map fun v => (v.1, { v.2 with entries := v.2.entries.map fun e => (e.1, fetch e.2) }) }

/-- The mark of a line whose talloc waits for the clearing of TDT entry `i` of cluster `cl` (R194). -/
def scrubMark (cl i : Nat) : Nat := 2 ^ 62 + cl * 4096 + i

/-- The TDT entry a mark names. -/
def scrubbing (mark : Nat) : Option (Nat × Nat) := if 2 ^ 62 ≤ mark then some (nbits mark 12 8, nbits mark 0 12) else none

/-- A line that is killed had asked for a clearing: it is done, and the entry is valid (R194). -/
def endScrub (s : State) (x : LiveLine) : State :=
  match x.req.bind scrubbing with
  | some (cl, i) => if (getTdt s cl i).state = 1 then scrubbedTile (clearTile s cl (getTdt s cl i)) cl i else s
  | none => s

/-- The home member of a line that came from another one is told that the line is live no more (R434, R447). -/
def tellHome (s : State) (x : LiveLine) : State :=
  match remoteImage s x.tenant x.addr with
  | none => s
  | some (v, p) => sendPkt s
      { id := s.nextId, name := s.nextId, body := .retired, ans := false, src := vmodOf s x.tenant x.line.job.toNat, dst := v,
        tenant := x.tenant, job := x.line.job.toNat, line := x.addr, core := 0, target := x.addr, loc := .remote v p,
        dmgen := s.dmgen, bufClass := 0, bufId := 0, vc := 0 }

/-- What retirement and kill share: the staging row, the claims held (R407), the pool line; the line is live no more. A trap whose
vector entry is still unread keeps its place, for its record is still to be written (R46, R400). -/
def endLine (s : State) (x : LiveLine) : State :=
  let s := orphanAll (endScrub (dropStaging s x) x) x.tenant x.addr x.line.tlvl.toNat
  let s := tellHome s x
  let s := releaseHeld s x.tenant x.addr false
  let s := poolGive s x
  { leaveReady (dropLine s x.tenant x.addr) x.tenant x.addr with
    pending := s.pending.filter fun p => p.unread || !(p.tenant == x.tenant && p.addr == x.addr)
    msgs := s.msgs.filter fun m => !(m.tenant == x.tenant && m.addr == x.addr) }

/-- The image bytes of a retired root: its content, or zero, the device's choice (R134), written where its image lies; while that page
is swapped they wait for it, so that no older image remains. -/
def rootImage (s : State) (x : LiveLine) : State :=
  let r := choose s 2
  let l := if r.1 = 0 then { x.line with wait := 0, pend := 0, laopen := false } else Line.zero
  let bytes := if r.1 = 0 then lineBytes l else List.replicate 128 0
  match remoteImage s x.tenant x.addr with
  | some (v, p) => sendBytes r.2 x bytes v p
  | none => putRoot r.2 x.tenant (x.addr, bytes)

/-- The records of the errors of performed stores that a line leaves when it retires before it takes them (R404). -/
def leaveErrors (s : State) (x : LiveLine) : State :=
  (x.derr.filter fun e => e.reg.isNone).foldl (fun s e => report s x.tenant (lineRecord x (deferredTrap e) false)) s

/-- Retire a line at `exit` (R134, R165). -/
def retireLine (s : State) (x : LiveLine) : State :=
  let s := leaveErrors (endLine s x) x
  if x.line.root then rootImage s x else s

/-- Kill a line (R408): its outstanding results are discarded, and errors of its stores leave their records (R404). -/
def killLine (s : State) (x : LiveLine) : State := leaveErrors (endLine s x) x

/-! ### What fills a slot (R128) -/

/-- A line at a place that a fill may take. -/
def fillable (s : State) (p : Place) (x : LiveLine) : Bool :=
  readyAt s p x && !(x.pull) && mayRun s x.tenant x.line.job.toNat

/-- A record of another core's deque admits a steal by `core` (R142). -/
def stealable (s : State) (core : Nat) : Bool :=
  s.cores.any fun e => e.1 != core && (getDie s (dieOf e.1)).state == 0
    && (e.2.ring ++ e.2.deque).any fun r => poppable s r && admits r core

/-- The core has no ready line of its own and an empty logical deque (R142). -/
def coreIdle (s : State) (core : Nat) : Bool :=
  !(s.lines.any (fillable s (.cl1 core))) && !(s.lines.any (fillable s (.cl2 (clusterOf core))))
    && (getCore s core).deque.isEmpty && (getCore s core).ring.isEmpty

/-- R128 finds a candidate for a slot of `core`. -/
def hasCandidate (s : State) (core : Nat) : Bool :=
  s.lines.any (fillable s (.cl1 core)) || s.lines.any (fillable s (.cl2 (clusterOf core)))
    || ((getCore s core).ring ++ (getCore s core).deque).any (poppable s)
    || (coreIdle s core && stealable s core)

end Sys2Proof.Machine
end

