-- ==== Sys2Proof/Machine/LoadStore.lean ====
section
/-! DEFINITION. Machine/LoadStore.lean: loads and stores (R113, R114), the full/empty operations (R172) and the restartable
block instructions (R115 to R117). -/

namespace Sys2Proof.Machine

/-! ### Checks every access makes (R47 orders 5 and 6) -/

/-- Alignment, then the 56-bit space: the trap an address raises before translation. -/
def addrTrap (size ea : Nat) (write : Bool) : Option Trap :=
  if ea % size ≠ 0 then some (trapAlign size ea)
  else if 2 ^ 56 ≤ ea then some (trapPageFault write ea)
  else none

/-- The checks of an access of `size` bytes, then its location. -/
def withLoc (s : State) (c : Ctx) (size ea : Nat) (write : Bool) (find : Except Stop Loc) (k : Loc → Res) : Res :=
  match addrTrap size ea write with
  | some e => .trap e
  | none => match find with
    | .error e => stopRes s c e
    | .ok loc => k loc

/-! ### ld, st, ldx, stx -/

/-- The effect of a load at issue: the tag and PEND of gD, and a read on its way (R113). -/
def issueLoad (ty : Nat) (tag : Byte) (d : Reg) (a : Reg) (ea : Nat) (z : BitVec 3) (c : Ctx) (s : State) : Res :=
  match checkTags c.t.line [(a, [0])] with
  | some e => .trap e
  | none => withLoc s c (typeSize ty) ea false (locate s c.who .load ea z) fun loc =>
      .ok (sendPkt s (mkPkt s c (.read (typeSize ty) ty d) false ea loc))
        { c.t with line := setPending (setTag c.t.line d tag) d }

/-- The effect of a store at issue: the data are read, and a store is on its way (R113). -/
def issueStore (size : Nat) (d a : Reg) (ea : Nat) (z : BitVec 3) (c : Ctx) (s : State) : Res :=
  match checkTags c.t.line [(a, [0])] with
  | some e => .trap e
  | none => withLoc s c size ea true (locateStore s c.who ea size z) fun loc =>
      .ok (sendPkt s (mkPkt s c (.write size (extZ (getG c.t.line d).toNat (8 * size)) none) false ea loc))
        { c.t with stores := c.t.stores + 1 }

def execLd (g : BitVec 4) (d a z : Reg) (_c : BitVec 2) (l : BitVec 4) (o : BitVec 7) (s : State) :
    Host.Outcome State Fault Refusal :=
  issueWord (hdrLook g [d, a] l false) (fun c s => issueLoad 16 0 d a (effAddr c a o.toNat 7 8) z c s) s

/-- A store at scope 1 to 3 is a release (R54, R221). -/
def execSt (g : BitVec 4) (d a z : Reg) (c : BitVec 2) (l : BitVec 4) (o : BitVec 7) (s : State) :
    Host.Outcome State Fault Refusal :=
  issueWord (hdrLook g [d, a] l (c != 0)) (fun c s => issueStore 8 d a (effAddr c a o.toNat 7 8) z c s) s

def execLdx (g : BitVec 4) (d a : Reg) (t : BitVec 4) (z : Reg) (_c : BitVec 2) (l : BitVec 4) (o : Reg) (s : State) :
    Host.Outcome State Fault Refusal :=
  issueWord (hdrLook g [d, a] l false) (fun c s =>
    issueLoad t.toNat (typeTag t.toNat) d a (effAddr c a o.toNat 3 (typeSize t.toNat)) z c s) s

def execStx (g : BitVec 4) (d a : Reg) (t : BitVec 4) (z : Reg) (c : BitVec 2) (l : BitVec 4) (o : Reg) (s : State) :
    Host.Outcome State Fault Refusal :=
  issueWord (hdrLook g [d, a] l (c != 0)) (fun c s =>
    issueStore (typeSize t.toNat) d a (effAddr c a o.toNat 3 (typeSize t.toNat)) z c s) s

/-! ### Full/empty operations (R172) -/

/-- The checks of a full/empty operation that reads registers `regs` (R161, log entry 87), then the key of its word. -/
def withWord (s : State) (c : Ctx) (regs : List Reg) (ea : Nat) (write : Bool) (z : BitVec 3) (k : Nat → Res) : Res :=
  match checkTags c.t.line (regs.map fun r => (r, [0])) with
  | some e => .trap e
  | none =>
    withLoc s c 8 ea write (if write then locateWrite s c.who ea z else locate s c.who .load ea z) fun loc =>
      match loc with
      | .cell key =>
        if key < windowBase then .trap (mkTrap 16 0 ea)
        else if locHeld s loc || (!write && readHeld s loc 8) then .retry s c.t.req c.t.replies
        else k key
      | _ => .trap (mkTrap 16 0 ea)

/-- The full/empty bit of a word set, waking its waiters when it changes (R147). -/
def setFull (s : State) (k : Nat) (b : Bool) : State :=
  if feAt s.memory k = b then s else wakeFullEmpty { s with memory := fePut s.memory k b } k

/-- A full word is read into gD, and emptied when `take`; an empty one is waited for with kind 2. -/
def readFull (take : Bool) (d a : Reg) (ea : Nat) (z : BitVec 3) (c : Ctx) (s : State) : Res :=
  withWord s c [a] ea false z fun k =>
    if feAt s.memory k then
      let bad := poisoned s.memory k 8
      let v := if bad then 0 else memWord s.memory k
      .ok (if take then setFull s k false else s)
        (noteError { c.t with line := setG c.t.line d v 0 } bad (some d) ea)
    else .wait s (waitTag 2 ea)

def execLdfe (g : BitVec 4) (d a z : Reg) (_c : BitVec 2) (o : Reg) (s : State) : Host.Outcome State Fault Refusal :=
  issueWord (hdr g [d, a]) (fun c s => readFull true d a (effAddr c a o.toNat 3 8) z c s) s

def execLdff (g : BitVec 4) (d a z : Reg) (_c : BitVec 2) (o : Reg) (s : State) : Host.Outcome State Fault Refusal :=
  issueWord (hdr g [d, a]) (fun c s => readFull false d a (effAddr c a o.toNat 3 8) z c s) s

def execStf (g : BitVec 4) (d a z : Reg) (c : BitVec 2) (o : Reg) (s : State) : Host.Outcome State Fault Refusal :=
  issueWord (hdrRel g [d, a] (c != 0)) (fun c s =>
    withWord s c [a, d] (effAddr c a o.toNat 3 8) true z fun k =>
      if feAt s.memory k then .wait s (waitTag 2 (effAddr c a o.toNat 3 8))
      else .ok (setFull (writeLoc s (.cell k) 8 (getG c.t.line d).toNat) k true) c.t) s

def execSte (g : BitVec 4) (d a z : Reg) (c : BitVec 2) (l : BitVec 4) (o : Reg) (s : State) :
    Host.Outcome State Fault Refusal :=
  issueWord (hdrLook g [d, a] l (c != 0)) (fun c s =>
    withWord s c [a, d] (effAddr c a o.toNat 3 8) true z fun k =>
      .ok (sendPkt s (mkPkt s c (.write 8 (getG c.t.line d) (some false)) false (effAddr c a o.toNat 3 8) (.cell k)))
        { c.t with stores := c.t.stores + 1 }) s

/-! ### Block instructions (R116, R117) -/

/-- The pointers and count after one element; `src` says the second pointer moves too. Every register written is int64. -/
def blockAdvance (l : Line) (d a b : Reg) (e : Nat) (src : Bool) : Line :=
  let l := setG l d (getG l d + BitVec.ofNat 64 e) 0
  let l := if src then setG l a (getG l a + BitVec.ofNat 64 e) 0 else l
  setG l b (getG l b - 1) 0

/-- The stop an element's pointer meets, or its location: alignment, the 56-bit space, then R206. -/
def blockLoc (s : State) (c : Ctx) (e va : Nat) (write : Bool) : Except Stop Loc :=
  match addrTrap e va write with
  | some t => .error (.trap t)
  | none =>
    match (if write then locateWrite s c.who va 0 else locate s c.who .load va 0) with
    | .ok loc => if !(isRemote loc) && (locHeld s loc || (!write && readHeld s loc e))
        then .error .hold else .ok loc
    | r => r

/-- The element of a block instruction: the new state, or the pair that a compare stopped at, and in both whether a byte read was
poisoned (R404); an element on another member; or the stop it meets first. -/
inductive Elem where
  | moved (s : State) (bad : Bool)
  | differs (bad : Bool)
  | remote
  | stop (e : Stop)

/-- Element kinds of a block instruction. -/
inductive BlockOp where
  | rmov
  | rfill
  | rcmp
  deriving DecidableEq, Repr

/-- One element on this member: destination or first pointer `p`, source or second pointer `q`, fill value `v` (R116). -/
def blockElem (op : BlockOp) (s : State) (c : Ctx) (e p q : Nat) (v : Word) : Elem :=
  match op with
  | .rfill =>
    match blockLoc s c e p true with
    | .error x => .stop x
    | .ok lp => if isRemote lp then .remote else .moved (writeLoc s lp e (v.toNat % 256 ^ e)) false
  | .rmov =>
    match blockLoc s c e q false with
    | .error x => .stop x
    | .ok lq => match blockLoc s c e p true with
      | .error x => .stop x
      | .ok lp =>
        if isRemote lp || isRemote lq then .remote
        else
          let bad := locPoisoned s lq e
          .moved (writeLoc s lp e (if bad then 0 else readLoc s c.who.tenant lq e)) bad
  | .rcmp =>
    match blockLoc s c e p false with
    | .error x => .stop x
    | .ok lp => match blockLoc s c e q false with
      | .error x => .stop x
      | .ok lq =>
        if isRemote lp || isRemote lq then .remote
        else
          let x := if locPoisoned s lp e then 0 else readLoc s c.who.tenant lp e
          let y := if locPoisoned s lq e then 0 else readLoc s c.who.tenant lq e
          let bad := locPoisoned s lp e || locPoisoned s lq e
          if x = y then .moved s bad else .differs bad

/-- How the elements of a step went: the state, the line, whether the compare found a difference, elements done. -/
structure BlockRun where
  s    : State
  t    : LiveLine
  diff : Bool
  done : Nat

/-- Up to `k` elements, ending before one that would fault or lies on another member. -/
def blockRun (op : BlockOp) (c : Ctx) (d a b : Reg) (e : Nat) : Nat → BlockRun → BlockRun
  | 0, r => r
  | k + 1, r =>
    let l := r.t.line
    match blockElem op r.s c e (getG l d).toNat (getG l a).toNat (getG l a) with
    | .moved s bad =>
      blockRun op c d a b e k
        { s := s, t := noteError { r.t with line := blockAdvance l d a b e (op != .rfill) } bad none (getG l d).toNat,
          diff := false, done := r.done + 1 }
    | .differs bad => { r with t := noteError r.t bad none (getG l d).toNat, diff := true }
    | _ => r

/-- The end of a step: past the word when nothing is left or a difference was found, else the same word again. -/
def blockEnd (c : Ctx) (s : State) (t : LiveLine) (b : Reg) (diff : Bool) : Res :=
  if diff ∨ getG t.line b = 0 then .ok s t else .jump s t c.t.line.pc

/-- Operation `i` of an element of which some byte lies on another member: its answer, or the operation's start. An operation that
has been sent keeps the instruction in its slot, and one that has been answered is not made again (R117, R156). -/
def elemOp (s : State) (c : Ctx) (i : Nat) (start : Res) (k : Word → Res) : Res :=
  match c.t.replies[i]? with
  | some v => k v
  | none => if c.t.req.isSome then .retry s c.t.req c.t.replies else start

/-- The read of an element at `va`, as operation `i` (R116, R447); a poisoned byte on this member ends the step with its deferred error
before the element (R404). -/
def elemRead (s : State) (c : Ctx) (i e va : Nat) (k : Word → Res) : Res :=
  elemOp s c i (match blockLoc s c e va false with
    | .error x => stopRes s c x
    | .ok loc =>
      if isRemote loc then .retry (sendPkt s (mkPkt s c (.read e 16 0) true va loc)) (some s.nextId) c.t.replies
      else if locPoisoned s loc e then .trap (deferredTrap ⟨none, va, none⟩)
      else .retry s none (c.t.replies ++ [BitVec.ofNat 64 (readLoc s c.who.tenant loc e)])) k

/-- The write of an element at `va`, as operation `i`. -/
def elemWrite (s : State) (c : Ctx) (i e va : Nat) (v : Word) (k : State → Res) : Res :=
  elemOp s c i (match blockLoc s c e va true with
    | .error x => stopRes s c x
    | .ok loc =>
      if isRemote loc then .retry (sendPkt s (mkPkt s c (.write e v none) true va loc)) (some s.nextId) c.t.replies
      else k (writeLoc s loc e v.toNat)) fun _ => k s

/-- One element that lies wholly or partly on another member (R447): its read or reads, then its write. Until the write is made the
element has changed nothing; once it is made the element is done. -/
def blockRemote (op : BlockOp) (c : Ctx) (s : State) (d a b : Reg) (e : Nat) : Res :=
  let l := c.t.line
  let p := (getG l d).toNat
  let q := (getG l a).toNat
  let done := fun (s : State) => blockEnd c s { c.t with line := blockAdvance l d a b e (op != .rfill) } b false
  match op with
  | .rfill => elemWrite s c 0 e p (extZ (getG l a).toNat (8 * e)) done
  | .rmov => elemRead s c 0 e q fun v => elemWrite s c 1 e p v done
  | .rcmp => elemRead s c 0 e p fun x => elemRead s c 1 e q fun y =>
      if x.toNat % 256 ^ e = y.toNat % 256 ^ e then done s else blockEnd c s c.t b true

/-- One step of a block instruction (R116); the order of its checks is log entries 19 and 78. -/
def blockStep (op : BlockOp) (d a b : Reg) (w : BitVec 2) (c : Ctx) (s : State) : Res :=
  let l := c.t.line
  let e := 8 / 2 ^ w.toNat
  match checkTags l ((d, [0]) :: (if op = .rfill then [] else [(a, [0])]) ++ [(b, [0])]) with
  | some t => .trap t
  | none =>
    if getG l b = 0 then .ok s c.t
    else
      let p := (getG l d).toNat
      let q := (getG l a).toNat
      if p % e ≠ 0 then .trap (trapAlign e p)
      else if op ≠ .rfill ∧ q % e ≠ 0 then .trap (trapAlign e q)
      else if c.t.req.isSome ∨ c.t.replies ≠ [] then blockRemote op c s d a b e
      else match blockElem op s c e p q (getG l a) with
        | .stop x => stopRes s c x
        | .remote => blockRemote op c s d a b e
        | .differs bad => .ok s (noteError c.t bad none p)
        | .moved _ _ =>
          let r := choose s (min (getG l b).toNat 64)
          let run := blockRun op c d a b e (r.1 + 1) ⟨r.2, c.t, false, 0⟩
          blockEnd c run.s run.t b run.diff

def execRmov (g : BitVec 4) (d a b : Reg) (w : BitVec 2) (s : State) : Host.Outcome State Fault Refusal :=
  issueWord (hdr g [d, a, b]) (blockStep .rmov d a b w) s

def execRfill (g : BitVec 4) (d a b : Reg) (w : BitVec 2) (s : State) : Host.Outcome State Fault Refusal :=
  issueWord (hdr g [d, a, b]) (blockStep .rfill d a b w) s

def execRcmp (g : BitVec 4) (d a b : Reg) (w : BitVec 2) (s : State) : Host.Outcome State Fault Refusal :=
  issueWord (hdr g [d, a, b]) (blockStep .rcmp d a b w) s

end Sys2Proof.Machine
end

