-- ==== Sys2Proof/Machine/Mailbox.lean ====
section
/-! DEFINITION. Machine/Mailbox.lean: the mailbox counter instructions (R173, R174), and posts and expectations that arrive at
a counter (R149). -/

namespace Sys2Proof.Machine

/-- The location of a counter. -/
def counterAt (name : Nat) : Loc := .mbox (counterCore name) (16 * counterIndex name)

/-- An expectation at a counter (R149). -/
inductive Expect where
  | applied (s : State)
  | rejected (s : State)
  | dropped

/-- Apply an expectation of `inc` by an agent of tenant `t` (R149). -/
def applyExpect (s : State) (t name inc : Nat) : Expect :=
  if counterOk s t name then
    let e := getCounter s (counterCore name) (counterIndex name)
    if 2 ^ 31 ≤ (e.exp + BitVec.ofNat 32 inc - e.cnt).toNat then
      .rejected (setCounter s (counterCore name) (counterIndex name) { e with ovf := true })
    else .applied (setCounter s (counterCore name) (counterIndex name) { e with exp := e.exp + BitVec.ofNat 32 inc })
  else .dropped

/-- The checks of the counter instructions: tags, the name's range, and the increment's range. -/
def counterTrap (l : Line) (a : Reg) (b : Option Reg) (incCheck : Bool) : Option Trap :=
  match checkTags l ((a, [0]) :: (b.toList.map fun r => (r, [0]))) with
  | some e => some e
  | none =>
    if 2 ^ 17 ≤ (getG l a).toNat then some (trapRange a)
    else match b with
      | some r => if incCheck ∧ 2 ^ 32 ≤ (getG l r).toNat then some (trapRange r) else none
      | none => none

/-- An earlier posted post of the line to this counter is still on its way (R174). -/
def postAhead (s : State) (t a name : Nat) (id : Nat) : Bool :=
  s.net.any fun p => p.tenant == t && p.line == a && decide (p.id < id) && (match p.body with
    | .post n _ => n == name
    | _ => false)

/-- mpost: posted, or with ACK answered by the counter (R173). -/
def execMpost (g : BitVec 4) (a b : Reg) (c : BitVec 2) (s : State) : Host.Outcome State Fault Refusal :=
  issueWord (hdrRel g [a, b] (c != 0)) (fun c s =>
    match counterTrap c.t.line a (some b) true with
    | some e => .trap e
    | none =>
      let name := (getG c.t.line a).toNat
      let inc := (getG c.t.line b).toNat
      if ackOf c then
        if dieHeld s (dieOf (counterCore name)) || postAhead s c.t.tenant c.t.addr name s.nextId then
          .retry s c.t.req c.t.replies
        else match applyPost s c.who.tenant name inc with
          | some s' => .ok s' c.t
          | none => .trapIn (bounce s c.who.tenant) (mkTrap 19 0 0)
      else .ok (sendPkt s (mkPkt s c (.post name inc) false name (counterAt name))) (postedLine c.t)) s

/-- mexp waits for the counter's answer (R173). -/
def execMexp (g : BitVec 4) (a b : Reg) (s : State) : Host.Outcome State Fault Refusal :=
  issueWord (hdr g [a, b]) (fun c s =>
    match counterTrap c.t.line a (some b) true with
    | some e => .trap e
    | none =>
      let name := (getG c.t.line a).toNat
      if dieHeld s (dieOf (counterCore name)) then .retry s c.t.req c.t.replies
      else match applyExpect s c.who.tenant name (getG c.t.line b).toNat with
        | .applied s' => .ok s' c.t
        | .rejected s' => .trapIn s' (mkTrap 17 name 0)
        | .dropped =>
          let s' := bounce s c.who.tenant
          if ackOf c then .trapIn s' (mkTrap 19 1 0) else .ok s' c.t) s

/-- The counter has reached `t` (R149). -/
def counterReached (cnt t : BitVec 32) : Bool := decide (0 ≤ (cnt - t).toInt)

/-- mwait (R173). -/
def execMwait (g : BitVec 4) (a b : Reg) (_c : BitVec 2) (s : State) : Host.Outcome State Fault Refusal :=
  issueWord (hdr g [a, b]) (fun c s =>
    match counterTrap c.t.line a (some b) false with
    | some e => .trap e
    | none =>
      let name := (getG c.t.line a).toNat
      let t := (getG c.t.line b).setWidth 32
      if (getDie s (dieOf (counterCore name))).state = 3 then .trap (trapTileLost (dieOf (counterCore name)) 0)
      else if dieHeld s (dieOf (counterCore name)) then .retry s c.t.req c.t.replies
      else if counterOk s c.who.tenant name = false then .trap (mkTrap 18 name 0)
      else if counterReached (getCounter s (counterCore name) (counterIndex name)).cnt t then .ok s c.t
      else .wait s (waitTag 4 (t.toNat + counterIndex name * 2 ^ 32 + counterCore name * 2 ^ 38))) s

/-- mread: CNT and EXP, or 0 for a counter the tenant does not own (R173). -/
def execMread (g : BitVec 4) (d a : Reg) (_c : BitVec 2) (s : State) : Host.Outcome State Fault Refusal :=
  issueWord (hdr g [d, a]) (fun c s =>
    match counterTrap c.t.line a none false with
    | some e => .trap e
    | none =>
      let name := (getG c.t.line a).toNat
      if (getDie s (dieOf (counterCore name))).state = 3 then .trap (trapTileLost (dieOf (counterCore name)) 0)
      else if dieHeld s (dieOf (counterCore name)) then .retry s c.t.req c.t.replies
      else .ok s { c.t with line := setG c.t.line d (BitVec.ofNat 64 (readLoc s c.who.tenant (counterAt name) 8)) 0 }) s

/-- A store, post or push of this member's line has been performed, or of another member's, which is told. -/
def acknowledge (s : State) (p : Pkt) : State :=
  if p.ans then
    if isOurs s p then deliverAnswer s p.tenant p.line p.name 0 else sendAnswer s p .ack
  else if isOurs s p then storeDone s p.tenant p.line
  else sendAnswer s p .ack

/-- A counter's ports can take this packet now, once it is routed by the present die map (R439); a lost die drops it (R443). -/
def counterServes (s : State) (p : Pkt) (name : Nat) : Bool :=
  p.dst == vmodOf s p.tenant p.job && served s p && p.dmgen == s.dmgen && !(dieHeld s (dieOf (counterCore name)))

/-- A post arrives at its counter: applied, or dropped and counted (R149, R174). -/
def execMailboxPost (id : Nat) (s : State) : Host.Outcome State Fault Refusal :=
  match findPkt s id with
  | none => .next s
  | some p =>
    match p.body with
    | .post name inc =>
      if counterServes s p name && !(postAhead s p.tenant p.line name p.id) then
        .next (acknowledge (postOrBounce (dropPkt s id) p.tenant name inc) p)
      else .next s
    | _ => .next s

/-- An expectation of an agent that is no instruction: a rejection writes a record with code 73 (R149, R397). -/
def execMailboxExpectation (tn : Nat) (name inc : Word) (s : State) : Host.Outcome State Fault Refusal :=
  if 2 ^ 17 ≤ name.toNat ∨ 2 ^ 32 ≤ inc.toNat ∨ dieHeld s (dieOf (counterCore name.toNat)) then .next s
  else match applyExpect s tn name.toNat inc.toNat with
    | .applied s' => .next s'
    | .rejected s' => .next (report s' tn ⟨0, 0, 73, 0, 1, false, 0, BitVec.ofNat 48 name.toNat, 0⟩)
    | .dropped => .next (bounce s tn)

end Sys2Proof.Machine
end

