-- ==== Sys2Proof/Machine/Ticket.lean ====
section
/-! DEFINITION. Machine/Ticket.lean: tickets: the slices' tables and windows (R253 to R258), tkld (R259), tkred (R260), tkdrop
and tkstat (R261, R262), and the end of a fetch. -/

namespace Sys2Proof.Machine

/-- The tag of a ticket. -/
def ticketTag : Byte := 9

/-- A ticket as a word (R253). -/
def ticketWord (slice index : Nat) (gen : BitVec 16) (tenant size acqs : Nat) (nul : Bool) : Word :=
  BitVec.ofNat 64 (slice + index * 2 ^ 10 + gen.toNat * 2 ^ 26 + tenant * 2 ^ 42 + size * 2 ^ 50 + acqs * 2 ^ 53
    + b2n nul * 2 ^ 55)

/-- The virtual die of a virtual slice (R201). -/
def dieOfSlice (v : Nat) : Nat := if v < 512 then v / 64 else (v - 512) / 32

/-- Entry `i` of slice `v`. -/
def getTicket (s : State) (v i : Nat) : TicketEntry := tabGet TicketEntry.zero i (getSlice s v).entries

/-- Replace entry `i` of slice `v`. -/
def setTicket (s : State) (v i : Nat) (e : TicketEntry) : State :=
  let x := getSlice s v
  setSlice s v { x with entries := tabPut TicketEntry.zero i e x.entries }

/-- An entry after its freeing: GEN + 1 (R255). -/
def freedTicket (e : TicketEntry) : TicketEntry := { TicketEntry.zero with gen := e.gen + 1 }

/-- The window of a job at a slice. -/
def windowOf (s : State) (v tenant job : Nat) : Option Window :=
  (getSlice s v).windows.find? fun w => w.tenant == tenant && w.job == job

/-- Entry `i` of the table is free and in no window. -/
def unwindowed (x : Slice) (i : Nat) : Bool :=
  (tabGet TicketEntry.zero i x.entries).state == 0 && !(x.windows.any fun w => decide (w.base ≤ i) && decide (i < w.base + w.len))

/-- The lowest run of `len` free entries in no window, from `i` on with `run` already found (R254). -/
def freeRun (x : Slice) (len : Nat) : Nat → Nat → Nat → Option Nat
  | 0, _, _ => none
  | fuel + 1, i, run =>
    if unwindowed x i then (if run + 1 = len then some (i + 1 - len) else freeRun x len fuel (i + 1) (run + 1))
    else freeRun x len fuel (i + 1) 0

/-- The job's window at a slice, made if it can be (R254). -/
def ensureWindow (s : State) (v tenant job : Nat) : Option (Window × State) :=
  match windowOf s v tenant job with
  | some w => some (w, s)
  | none =>
    let x := getSlice s v
    (freeRun x (getTenant s tenant).tkQuota 1024 0 0).map fun b =>
      let w : Window := ⟨tenant, job, b, (getTenant s tenant).tkQuota⟩
      (w, setSlice s v { x with windows := x.windows ++ [w] })

/-- The lowest free entry of a window, as an index in the window. -/
def freeEntry (s : State) (v : Nat) (w : Window) : Option Nat :=
  (List.range w.len).find? fun i => (getTicket s v (w.base + i)).state == 0

/-- One entry under a reclaim pass (R256, R257). -/
def reclaimEntry (e : TicketEntry) : TicketEntry :=
  if e.state = 0 then e
  else if e.age < 3 then { e with age := e.age + 1 }
  else if e.state = 1 then { e with drop := true }
  else freedTicket e

/-- A reclaim pass over a window, in index order. -/
def reclaimPass (s : State) (v : Nat) (w : Window) : State :=
  (List.range w.len).foldl (fun s i => setTicket s v (w.base + i) (reclaimEntry (getTicket s v (w.base + i)))) s

/-- The window with a free entry, after a pass if there was none; none for a null ticket (R257). -/
def allocEntry (s : State) (v tenant job : Nat) : Option (Window × Nat × State) × State :=
  match ensureWindow s v tenant job with
  | none => (none, s)
  | some (w, s) =>
    match freeEntry s v w with
    | some i => (some (w, i, s), s)
    | none =>
      let s := reclaimPass s v w
      ((freeEntry s v w).map fun i => (w, i, s), s)

/-- What a fetch reads at its fetch point: nothing yet while a copy holds it back (R340), no byte when some byte is poisoned (R404). -/
def fetchNow (s : State) (key n : Nat) : Option (List Byte) :=
  if readHeld s (.cell key) n then none else some (if poisoned s.memory key n then [] else memBytes s.memory key n)

/-- A tkld of line `line` at the slice that holds its address, as one operation: the ticket, and the entry pending with what its fetch
reads at this moment (R237, R259). -/
def takeTicket (s : State) (tenant job line key size acqs : Nat) : Word × State :=
  let v := (sliceOf s key).getD 0
  match allocEntry s v tenant job with
  | (some (w, i, s), _) =>
    let e := getTicket s v (w.base + i)
    (ticketWord v i e.gen tenant size acqs false,
      setTicket s v (w.base + i)
        { e with state := 1, drop := false, age := 0, tenant := tenant, job := job, size := size, acqs := acqs, data := [],
                 key := key, got := fetchNow s key (8 * 2 ^ size), line := line })
  | (none, s) =>
    (ticketWord 0 0 0 tenant size acqs true, modTenant s tenant fun x => { x with tkNull := x.tkNull + 1 })

/-- The address of a tkld may be fetched: DRAM of this module, or a vault (R245). -/
def ticketSpace (va : Nat) : Bool :=
  match regionOf va with
  | .paged => true
  | .vault _ _ => true
  | .reserved => true
  | _ => false

/-- tkld (R259). -/
def execTkld (g : BitVec 4) (d a : Reg) (w c : BitVec 2) (s : State) : Host.Outcome State Fault Refusal :=
  issueWord (hdrMod g [d, a] false) (fun x s =>
    match checkTags x.t.line [(a, [0])] with
    | some e => .trap e
    | none =>
      let z := 8 * 2 ^ w.toNat
      let ea := (getG x.t.line a).toNat
      match addrTrap z ea false with
      | some e => .trap e
      | none =>
        if ticketSpace ea = false then .trap (mkTrap 22 0 ea)
        else match locate s x.who .load ea 0 with
          | .error e => stopRes s x e
          | .ok loc =>
            if isRemote loc then .trap (mkTrap 22 0 ea)
            else .ok (sendPkt s (mkPkt s x (.ticket w.toNat c.toNat d) false ea loc))
              { x.t with line := setPending (setTag x.t.line d ticketTag) d }) s

/-- The fields of a ticket. -/
def tkSlice (k : Word) : Nat := nbits k.toNat 0 10
def tkIndex (k : Word) : Nat := nbits k.toNat 10 16
def tkGen (k : Word) : Nat := nbits k.toNat 26 16
def tkTenant (k : Word) : Nat := nbits k.toNat 42 8
def tkSize (k : Word) : Nat := nbits k.toNat 50 3
def tkNul (k : Word) : Bool := nbits k.toNat 55 1 == 1

/-- A ticket with reserved bits or a reserved SIZE (R260). -/
def ticketBad (k : Word) : Bool := nbits k.toNat 56 8 != 0 || decide (3 < tkSize k)

/-- The table index of the entry a ticket names now; none when it is stale (R260). -/
def ticketEntry (s : State) (tenant job : Nat) (k : Word) : Option Nat :=
  if tkNul k || tkTenant k != tenant || (getDie s (dieOfSlice (tkSlice k))).state == 3 then none
  else match windowOf s (tkSlice k) tenant job with
    | none => none
    | some w =>
      let e := getTicket s (tkSlice k) (w.base + tkIndex k)
      if w.len ≤ tkIndex k ∨ e.gen.toNat ≠ tkGen k ∨ e.state = 0 ∨ (e.state = 1 ∧ e.drop = true) then none
      else some (w.base + tkIndex k)

/-- A chain of 8-byte reads, low address first, each an answer of its own; the instruction has made `first` operations before. -/
def readWords (s : State) (c : Ctx) (first va : Nat) (loc : Nat → Loc) :
    Nat → Nat → List Nat → Bool → (List Nat → Bool → Res) → Res
  | 0, _, l, bad, k => k l bad
  | n + 1, i, l, bad, k =>
    syncRead s c (first + i) 8 false (va + 8 * i) (loc i) fun v b => readWords s c first va loc n (i + 1) (l ++ [v]) (bad || b) k

/-- A location `8 × i` bytes on. -/
def locPlus (l : Loc) (i : Nat) : Loc :=
  match l with
  | .cell k => .cell (k + 8 * i)
  | .mbox c off => .mbox c (off + 8 * i)
  | .tdt cl off => .tdt cl (off + 8 * i)
  | .remote v p => .remote v (p + 8 * i)
  | .virt va => .virt (va + 8 * i)

/-- Write words from a key up. -/
def writeWords (k : Nat) : List Nat → State → State
  | [], s => s
  | w :: l, s => writeWords (k + 8) l (writeLoc s (.cell k) 8 w)

/-- The data of a redemption land: in gD, or at a local-store address (R260). -/
def redeemed (c : Ctx) (d p : Reg) (dest : Option Nat) (ws : List Nat) (fell bad : Bool) (va : Nat) (s : State) : Res :=
  let l := setQ c.t.line p (if fell then 0xFF else 0)
  match dest with
  | none => .ok s (noteError { c.t with line := setG l d (BitVec.ofNat 64 (ws.getD 0 0)) 0 } bad (some d) va)
  | some k => .ok (writeWords k ws s) (noteError { c.t with line := l } bad none va)

/-- The destination of a redemption of more than 8 bytes: a local-store address in a granule the tenant owns (R260); a reserved
address is no such granule and raises PageFault (R182). -/
def redeemDest (s : State) (c : Ctx) (d : Reg) (z : Nat) : Except Stop (Option Nat) :=
  if z ≤ 8 then .ok none
  else match checkTags c.t.line [(d, [0])] with
    | some e => .error (.trap e)
    | none =>
      let la := (getG c.t.line d).toNat
      if la % z ≠ 0 then .error (.trap (trapAlign z la))
      else match regionOf la with
        | .localStore _ _ => match locate s c.who .store la 0 with
          | .ok (.cell k) => if locHeld s (.cell k) then .error .hold else .ok (some k)
          | .ok _ => .error (.trap (trapPermission true false true la))
          | .error e => .error e
        | .reserved => .error (.trap (trapPageFault true la))
        | _ => .error (.trap (trapPermission true false true la))

/-- The words of ticket data. -/
def dataWords (bs : List Byte) : Nat → List Nat
  | 0 => []
  | n + 1 => leNat (bs.take 8) :: dataWords (bs.drop 8) n

/-- tkred (R260). -/
def execTkred (g : BitVec 4) (d a b p : Reg) (s : State) : Host.Outcome State Fault Refusal :=
  issueWord (hdr g [d, a, b]) (fun c s =>
    match checkTags c.t.line [(a, [ticketTag, 0])] with
    | some e => .trap e
    | none =>
      let k := getG c.t.line a
      if ticketBad k then .trap (trapRange a)
      else
        let z := 8 * 2 ^ tkSize k
        match redeemDest s c d z with
        | .error e => stopRes s c e
        | .ok dest =>
          if dieHeld s (dieOfSlice (tkSlice k)) then .retry s c.t.req c.t.replies
          else match ticketEntry s c.who.tenant c.who.job k with
            | some i =>
              let e := getTicket s (tkSlice k) i
              if e.state = 1 then .wait s (waitTag 6 (k.toNat % 2 ^ 42))
              else
                let s' := setTicket s (tkSlice k) i (freedTicket e)
                if e.state = 3 then .trapIn s' (mkTrap 24 0 0)
                else redeemed c d p dest (dataWords e.data (z / 8)) false false 0 s'
            | none =>
              if c.t.line.tfb = false then .trap (mkTrap 23 (k.toNat % 2 ^ 42) 0)
              else match checkTags c.t.line [(b, [0])] with
                | some e => .trap e
                | none =>
                  let fa := (getG c.t.line b).toNat
                  withLoc s c z fa false (locate s c.who .load fa 0) fun loc =>
                    readWords s c 0 fa (locPlus loc) (z / 8) 0 [] false fun ws bad => redeemed c d p dest ws true bad fa s) s

/-- What tkdrop and tkstat share: the checks, then the entry the ticket names, if any. -/
def withTicket (a : Reg) (c : Ctx) (s : State) (k : Word → Option Nat → Res) : Res :=
  match checkTags c.t.line [(a, [ticketTag, 0])] with
  | some e => .trap e
  | none =>
    let t := getG c.t.line a
    if ticketBad t then .trap (trapRange a)
    else if dieHeld s (dieOfSlice (tkSlice t)) then .retry s c.t.req c.t.replies
    else k t (ticketEntry s c.who.tenant c.who.job t)

/-- tkdrop (R261). -/
def execTkdrop (g : BitVec 4) (d a : Reg) (s : State) : Host.Outcome State Fault Refusal :=
  issueWord (hdr g [d, a]) (fun c s => withTicket a c s fun k i =>
    match i with
    | none => .ok s { c.t with line := setG c.t.line d 0 0 }
    | some i =>
      let e := getTicket s (tkSlice k) i
      .ok (setTicket s (tkSlice k) i (if e.state = 1 then { e with drop := true } else freedTicket e))
        { c.t with line := setG c.t.line d 1 0 }) s

/-- The report of tkstat: 0 stale, 1 pending, 2 complete, 3 failed. -/
def ticketState (s : State) (k : Word) (i : Option Nat) : Word :=
  match i with
  | none => 0
  | some i => BitVec.ofNat 64 (getTicket s (tkSlice k) i).state

/-- tkstat (R262). -/
def execTkstat (g : BitVec 4) (d a : Reg) (s : State) : Host.Outcome State Fault Refusal :=
  issueWord (hdr g [d, a]) (fun c s => withTicket a c s fun k i =>
    .ok s { c.t with line := setG c.t.line d (ticketState s k i) 0 }) s

/-- The job-relative index of an entry. -/
def relIndex (s : State) (v i : Nat) (e : TicketEntry) : Nat :=
  match windowOf s v e.tenant e.job with
  | some w => i - w.base
  | none => i

/-- Redeemers that wait on an entry are woken when it leaves pending (R258). -/
def wakeTicket (s : State) (v i : Nat) (e : TicketEntry) : State :=
  let tag := waitTag 6 (v + relIndex s v i e * 2 ^ 10 + e.gen.toNat * 2 ^ 26)
  sendWakes s fun x w => w == tag && x.tenant == e.tenant && jobOf s x == e.job

/-- A pending entry's fetch ends: with its data, failed, or freed when it was dropped (R256). A fetch that a copy had held back may be
the last item its line waits for (R32). -/
def endFetch (s : State) (v i : Nat) (e : TicketEntry) (data : List Byte) (failed : Bool) : State :=
  let s := wakeTicket (setTicket s v i (if e.drop then freedTicket e
    else if failed then { e with state := 3, got := none, key := 0, line := 0 }
    else { e with state := 2, data := data, got := none, key := 0, line := 0 })) v i e
  if e.got.isNone then wakeDrained s e.tenant e.line else s

/-- TICKET_FETCH_RETURN: a fetch returns what it read, or what it reads now that no copy holds it back; unreadable bytes fail it
instead (R256, R340, R404). -/
def execTicketFetchReturn (slice idx : Nat) (s : State) : Host.Outcome State Fault Refusal :=
  let e := getTicket s slice idx
  if e.state = 1 ∧ dieHeld s (dieOfSlice slice) = false then
    match e.got.or (fetchNow s e.key (8 * 2 ^ e.size)) with
    | some (b :: bs) => .next (endFetch s slice idx e (b :: bs) false)
    | _ => .next s
  else .next s

/-- TICKET_FETCH_FAILURE: a ticket fetch fails after issue (R256). -/
def execTicketFetchFailure (slice idx : Nat) (s : State) : Host.Outcome State Fault Refusal :=
  let e := getTicket s slice idx
  if e.state = 1 ∧ dieHeld s (dieOfSlice slice) = false then .next (endFetch s slice idx e [] true) else .next s

end Sys2Proof.Machine
end

