-- ==== Sys2Proof/Machine/Arrive.lean ====
section
/-! DEFINITION. Machine/Arrive.lean: results, acknowledgements, deferred memory errors, wakes and the messages of a home directory
(R23, R32, R146, R404, R436). -/

namespace Sys2Proof.Machine

/-! ### Results -/

/-- A result of packet `p` on its way to its line, here or on another member. -/
def sendResult (s : State) (p : Pkt) (reg : Reg) (v : Word) (e : BitVec 5) : State :=
  if isOurs s p then
    if p.ans then deliverAnswer s p.tenant p.line p.name v else deliverResult s p.tenant p.line reg v e
  else sendAnswer s p (.result reg v e)

/-- A read whose bytes cannot be read: 0 and a deferred MemoryError (R404), or TileLost when they were on a lost die (R443). -/
def sendFailed (s : State) (p : Pkt) (reg : Reg) (lost : Option Nat) : State :=
  if isOurs s p then
    let s := if p.ans then deliverAnswer s p.tenant p.line p.name 0 else deliverResult s p.tenant p.line reg 0 0
    deferError s p.tenant p.line p.job ⟨if p.ans then none else some reg, p.target, lost⟩
  else sendAnswer s p (.failed (some reg) lost)

/-- The read of another member that may go on to wait registers at the target slice (R447). -/
def registerWatch (s : State) (p : Pkt) (ty : Nat) : State :=
  if ty = 17 ∧ isOurs s p = false then { s with watch := s.watch ++ [p] } else s

/-- Perform a read, an RMW or a ticket load at its location. -/
def performAccess (s : State) (p : Pkt) : State :=
  match p.body with
  | .read size ty reg =>
    if locPoisoned s p.loc size then sendFailed s p reg none
    else sendResult (registerWatch s p ty) p reg (formLoad ty (readLoc s p.tenant p.loc size)) 0
  | .rmw fn size y c reg =>
    if locPoisoned s p.loc size then sendFailed s p reg none
    else
      let r := performRmw s p.tenant p.loc fn size y.toNat c.toNat
      sendResult r.1 p reg (amoResult fn (8 * size) r.2.1) r.2.2
  | .ticket size acqs reg =>
    match p.loc with
    | .cell k =>
      let r := takeTicket s p.tenant p.job p.line k size acqs
      sendResult r.2 p reg r.1 0
    | _ => s
  | _ => s

/-- The line of the answer is one that an answer can reach now (R436). -/
def lineReachable (s : State) (p : Pkt) : Bool :=
  match findLine s p.tenant p.line with
  | some x => reachable s x
  | none => true

/-- What another member sends for a line of this one: a wake, or word that the line is live no more (R436, R447). -/
def lineNews (s : State) (p : Pkt) : State :=
  match p.body with
  | .wake tag => sendMsg s p.tenant p.line (.wake tag)
  | .retired =>
    match findLine s p.tenant p.line with
    | some x => match x.place with
      | .away _ _ => endLine s x
      | _ => s
    | none => s
  | _ => s

/-- A result arrives: a read, RMW or ticket load is performed where it is and its result delivered, or an answer of another member is
delivered (R23). The line itself need not be within reach: its home directory keeps the result for it (R436). -/
def execResultArrival (id : Nat) (s : State) : Host.Outcome State Fault Refusal :=
  match findPkt s id with
  | none => .next s
  | some p =>
    match p.body with
    | .read _ _ _ => if performable s p then .next (performAccess (dropPkt s id) p) else .next s
    | .rmw _ _ _ _ _ => if performable s p then .next (performAccess (dropPkt s id) p) else .next s
    | .ticket _ _ _ => if performable s p then .next (performAccess (dropPkt s id) p) else .next s
    | .result reg v e =>
      if p.dst = vmodOf s p.tenant p.job ∧ served s p = true ∧ (p.ans = false ∨ lineReachable s p = true) then
        .next (if p.ans then deliverAnswer (dropPkt s id) p.tenant p.line p.name v
          else deliverResult (dropPkt s id) p.tenant p.line reg v e)
      else .next s
    | .failed (some reg) lost =>
      if p.dst = vmodOf s p.tenant p.job ∧ served s p = true then
        let s' := dropPkt s id
        let s' := if p.ans then deliverAnswer s' p.tenant p.line p.name 0 else deliverResult s' p.tenant p.line reg 0 0
        .next (deferError s' p.tenant p.line p.job ⟨some reg, p.target, lost⟩)
      else .next s
    | .wake _ => if p.dst = vmodOf s p.tenant p.job ∧ served s p = true then .next (lineNews (dropPkt s id) p) else .next s
    | .retired => if p.dst = vmodOf s p.tenant p.job ∧ served s p = true then .next (lineNews (dropPkt s id) p) else .next s
    | _ => .next s

/-! ### Acknowledgements -/

/-- The count of the line's stores is kept by its core: the line is not in a CL2 or DRAM (R32). -/
def countAtCore (s : State) (p : Pkt) : Bool :=
  match findLine s p.tenant p.line with
  | none => true
  | some x => match x.place with
    | .cl2 _ => false
    | .dram => false
    | _ => true

/-- A store packet is performed, or its acknowledgement from another member taken. -/
def storeAnswered (s : State) (p : Pkt) : State :=
  match p.body with
  | .write size v fe =>
    if performable s p then acknowledge (performWrite (dropPkt s p.id) p.loc size v fe) p else s
  | .ack =>
    if p.dst = vmodOf s p.tenant p.job ∧ served s p = true then
      if p.ans then deliverAnswer (dropPkt s p.id) p.tenant p.line p.name 0 else storeDone (dropPkt s p.id) p.tenant p.line
    else s
  | .failed none lost =>
    if p.dst = vmodOf s p.tenant p.job ∧ served s p = true then
      deferError (storeDone (dropPkt s p.id) p.tenant p.line) p.tenant p.line p.job ⟨none, p.target, lost⟩
    else s
  | _ => s

/-- A store is performed and its acknowledgement reaches the issuing core (R32, R113). -/
def execStoreAcknowledgement (id : Nat) (s : State) : Host.Outcome State Fault Refusal :=
  match findPkt s id with
  | none => .next s
  | some p => if countAtCore s p then .next (storeAnswered s p) else .next s

/-- The acknowledgement of a store swept by a gang switch reaches the home directory, which keeps the count (R32). -/
def execSweptStoreAck (id : Nat) (s : State) : Host.Outcome State Fault Refusal :=
  match findPkt s id with
  | none => .next s
  | some p => if countAtCore s p || !(lineReachable s p) then .next s else .next (storeAnswered s p)

/-- The lost die that holds a location (R443). -/
def lostDie (s : State) (l : Loc) : Option Nat :=
  match dieOfLoc s l with
  | some v => if (getDie s v).state = 3 then some v else none
  | none => none

/-- An error found after issue: a read or a ticket load gives 0, a store is not performed and poisons its 64 bytes (R404). On a lost
die there is nothing to poison, and the error is TileLost (R443). -/
def failAccess (s : State) (p : Pkt) : State :=
  let lost := lostDie s p.loc
  match p.body with
  | .read _ _ reg => sendFailed s p reg lost
  | .rmw _ _ _ _ reg => sendFailed s p reg lost
  | .ticket _ _ reg => sendFailed s p reg lost
  | .write _ _ _ =>
    let s := match p.loc, lost with
      | .cell k, none => { s with memory := poisonAt s.memory k }
      | _, _ => s
    if isOurs s p then
      let s := if p.ans then deliverAnswer s p.tenant p.line p.name 0 else storeDone s p.tenant p.line
      deferError s p.tenant p.line p.job ⟨none, p.target, lost⟩
    else sendAnswer s p (.failed none lost)
  | _ => s

/-- The packet is an access to bytes. -/
def isAccess (p : Pkt) : Bool :=
  match p.body with
  | .read _ _ _ => true
  | .rmw _ _ _ _ _ => true
  | .ticket _ _ _ => true
  | .write _ _ _ => true
  | _ => false

/-- The address at which tenant `t` has mapped the DRAM of a location, when it has: on a resident page, or on one that is on its way out
or in. -/
def frameVa (s : State) (t : Nat) (l : Loc) : Option Nat :=
  let within := fun (key base k : Nat) =>
    let level := key / 2 ^ 56
    if base ≤ k ∧ k < base + 2 ^ levelShift level then some (key % 2 ^ 56 * 2 ^ levelShift level + (k - base)) else none
  match l with
  | .cell k =>
    if windowBase ≤ k then none
    else match (getTenant s t).ptab.findSome? fun e =>
        if leafV e.2 && !(leafSwd e.2) && !(leafRemote e.2) then within e.1 (leafAddr e.2 * 65536) k else none with
      | some va => some va
      | none => (getTenant s t).moves.findSome? fun e => e.2.frame.bind fun f => within e.1 f k
  | _ => none

/-- The location of a virtual address by the present page tables, in DRAM of this member or of another (R446); none while its page is
swapped. -/
def routedLoc (s : State) (t va : Nat) : Option Loc :=
  match remoteImage s t va with
  | some (v, p) => some (.remote v p)
  | none => (cellOf s t va).map .cell

/-- The location is memory, or lies on a lost die. -/
def canFail (s : State) (l : Loc) : Bool :=
  match l with
  | .cell _ => true
  | _ => (lostDie s l).isSome

/-- The access of a packet can meet an error where it is performed; a ticket load fails at its slice's table, and on its way only when its
die is lost (R256, R443). -/
def mayFail (s : State) (p : Pkt) : Bool :=
  match p.body with
  | .ticket _ _ _ => (lostDie s p.loc).isSome
  | _ => canFail s p.loc

/-- DEFERRED_MEMORY_ERROR: an access meets an error where it is performed (R404), or its die is lost (R443). -/
def execDeferredMemoryError (id : Nat) (s : State) : Host.Outcome State Fault Refusal :=
  match findPkt s id with
  | none => .next s
  | some p =>
    if isAccess p && isHere s p && served s p && mayFail s p then
      .next (failAccess (dropPkt s id) p)
    else .next s

/-! ### Messages for lines -/

/-- Message `n`, if no earlier one is for the same line (R436). -/
def nextMsg (s : State) (n : Nat) : Option Msg :=
  match s.msgs[n]? with
  | none => none
  | some m => if (s.msgs.take n).any fun m' => m'.tenant == m.tenant && m'.addr == m.addr then none else some m

/-- Without message `n`. -/
def dropMsg (s : State) (n : Nat) : State := { s with msgs := s.msgs.eraseIdx n }

/-- Apply a message to its line. -/
def applyMsg (s : State) (x : LiveLine) (b : MsgBody) : State :=
  match b with
  | .wake tag => applyWake s x tag
  | .result r v e => wakeDrained (editLine s x (takeResult r v e)) x.tenant x.addr
  | .release keep => if x.clm then endClaim s x keep else s

/-- The cluster that holds a line, with the line's version there (R433). -/
def holderOf (x : LiveLine) : Option (Nat × BitVec 32) :=
  match x.place with
  | .slot c _ => some (clusterOf c, x.line.lver)
  | .cl1 c => some (clusterOf c, x.line.lver)
  | .cl2 cl => some (cl, x.line.lver)
  | _ => none

/-- A message cannot move now: its line is in flight, saved or away, its directory is held, its job is switched out, or an operation of
the line is under way. -/
def msgHeld (s : State) (x : LiveLine) : Bool :=
  !(reachable s x) || jobFrozen s x.tenant (jobOf s x) || x.req.isSome || !(x.replies.isEmpty)

/-- Message `n` at the cluster it was forwarded to: applied when the cluster holds the line at that version, else returned (R436). -/
def clusterMsg (s : State) (n : Nat) (m : Msg) (x : LiveLine) : State :=
  if holderOf x = m.fwd then applyMsg (dropMsg s n) x m.body else { s with msgs := s.msgs.set n { m with fwd := none } }

/-- Message `n` at the home directory: applied to an image, forwarded to the holding cluster (R436). -/
def homeMsg (s : State) (n : Nat) (m : Msg) (x : LiveLine) : State :=
  match holderOf x with
  | none => applyMsg (dropMsg s n) x m.body
  | some h => { s with msgs := s.msgs.set n { m with fwd := some h } }

/-- Message `n` was routed under an older die map: a router routes it again (R439). -/
def routeMsg (s : State) (n : Nat) (m : Msg) : State := { s with msgs := s.msgs.set n { m with dmgen := s.dmgen } }

/-- A message for a line is held. When that is because its image stands on a swapped page, the page is brought in, so that the line
becomes ready after its event (R154, R206). -/
def holdMsgFor (s : State) (x : LiveLine) : State :=
  if x.place = .dram ∧ hasImage s x = false then startSwapIn s x.tenant x.addr else s

/-- A wake reaches a line in a cluster; one whose operation is still under way on another member keeps it till it waits. -/
def execWake (n : Nat) (s : State) : Host.Outcome State Fault Refusal :=
  match nextMsg s n with
  | none => .next s
  | some m =>
    match findLine s m.tenant m.addr, m.body with
    | some x, .wake _ =>
      if m.dmgen ≠ s.dmgen then .next (routeMsg s n m)
      else if msgHeld s x = true ∨ m.fwd = none then .next s else .next (clusterMsg s n m x)
    | _, _ => .next s

/-- A home directory or the cluster it forwarded to handles a message; it is held for a line in flight or saved, and discarded when
there is no live line (R436, R408). -/
def execDirectoryMessage (n : Nat) (s : State) : Host.Outcome State Fault Refusal :=
  match (if cutOpen s then none else nextMsg s n) with
  | none => .next s
  | some m =>
    match findLine s m.tenant m.addr with
    | none => .next (dropMsg s n)
    | some x =>
      if m.dmgen ≠ s.dmgen then .next (routeMsg s n m)
      else if msgHeld s x then .next (holdMsgFor s x)
      else if m.fwd = none then .next (homeMsg s n m x) else .next (clusterMsg s n m x)

end Sys2Proof.Machine
end

