-- ==== Sys2Proof/Machine/Atomic.lean ====
section
/-! DEFINITION. Machine/Atomic.lean: the atomics of major 0x1E (R247 to R250) and the fences of major 0x1F (R252). -/

namespace Sys2Proof.Machine

/-- Bytes of an amo width. -/
def amoSize (w : BitVec 1) : Nat := if w = 0 then 8 else 4

/-- Tags accepted in gB: int64 for add to maxb, the float class for fadd, any for swap and cas (R248); a reserved tag value is not looked
for where any is accepted (log entry 76). -/
def amoAccepts (fn : Nat) (w : BitVec 1) (b : Reg) : List (Reg × List Byte) :=
  if fn < 8 then [(b, [0])] else if fn = 10 then [(b, [if w = 0 then 4 else 5])] else []

/-- The tag of the old value in gD (R248). -/
def amoTag (fn : Nat) (w : BitVec 1) : Byte := if fn = 10 then (if w = 0 then 4 else 5) else 0

/-- An atomic at issue: operands read, gD pending, the RMW on its way (R247). -/
def issueAmo (fn : Nat) (g : BitVec 4) (d a b : Reg) (w : BitVec 1) (o : BitVec 2) (s : State) :
    Host.Outcome State Fault Refusal :=
  issueWord (hdrMod g [d, a, b] (o.getLsbD 1)) (fun c s =>
    match checkTags c.t.line ((a, [0]) :: amoAccepts fn w b) with
    | some e => .trap e
    | none =>
      let ea := (getG c.t.line a).toNat
      withLoc s c (amoSize w) ea true (locateWrite s c.who ea 0) fun loc =>
        .ok (sendPkt s (mkPkt s c (.rmw fn (amoSize w) (getG c.t.line b) (getG c.t.line d) d) false ea loc))
          { c.t with line := setPending (setTag c.t.line d (amoTag fn w)) d }) s

def execAmoAdd (g : BitVec 4) (d a b : Reg) (w : BitVec 1) (o _c : BitVec 2) (s : State) : Host.Outcome State Fault Refusal :=
  issueAmo 0 g d a b w o s

def execAmoAnd (g : BitVec 4) (d a b : Reg) (w : BitVec 1) (o _c : BitVec 2) (s : State) : Host.Outcome State Fault Refusal :=
  issueAmo 1 g d a b w o s

def execAmoOr (g : BitVec 4) (d a b : Reg) (w : BitVec 1) (o _c : BitVec 2) (s : State) : Host.Outcome State Fault Refusal :=
  issueAmo 2 g d a b w o s

def execAmoXor (g : BitVec 4) (d a b : Reg) (w : BitVec 1) (o _c : BitVec 2) (s : State) : Host.Outcome State Fault Refusal :=
  issueAmo 3 g d a b w o s

def execAmoMin (g : BitVec 4) (d a b : Reg) (w : BitVec 1) (o _c : BitVec 2) (s : State) : Host.Outcome State Fault Refusal :=
  issueAmo 4 g d a b w o s

def execAmoMax (g : BitVec 4) (d a b : Reg) (w : BitVec 1) (o _c : BitVec 2) (s : State) : Host.Outcome State Fault Refusal :=
  issueAmo 5 g d a b w o s

def execAmoMinb (g : BitVec 4) (d a b : Reg) (w : BitVec 1) (o _c : BitVec 2) (s : State) : Host.Outcome State Fault Refusal :=
  issueAmo 6 g d a b w o s

def execAmoMaxb (g : BitVec 4) (d a b : Reg) (w : BitVec 1) (o _c : BitVec 2) (s : State) : Host.Outcome State Fault Refusal :=
  issueAmo 7 g d a b w o s

def execAmoSwap (g : BitVec 4) (d a b : Reg) (w : BitVec 1) (o _c : BitVec 2) (s : State) : Host.Outcome State Fault Refusal :=
  issueAmo 8 g d a b w o s

def execAmoCas (g : BitVec 4) (d a b : Reg) (w : BitVec 1) (o _c : BitVec 2) (s : State) : Host.Outcome State Fault Refusal :=
  issueAmo 9 g d a b w o s

def execAmoFadd (g : BitVec 4) (d a b : Reg) (w : BitVec 1) (o _c : BitVec 2) (s : State) :
    Host.Outcome State Fault Refusal :=
  issueAmo 10 g d a b w o s

/-- fence: kind 1 waits for earlier reads; kinds 2 and 3 drain the line and close its window (R252). -/
def execFence (g : BitVec 4) (k _c : BitVec 2) (s : State) : Host.Outcome State Fault Refusal :=
  issueWord (hdrRel g [] (k != 1)) (fun c s =>
    if k = 1 ∧ readsDone s c.t.tenant c.t.addr = false then .drain s .reads else .ok s c.t) s

end Sys2Proof.Machine
end

