-- ==== Sys2Proof/Machine/Tile.lean ====
section
/-! DEFINITION. Machine/Tile.lean: tiles: element formats and storage (R192), valid entries (R193), handles (R195, R196), and
the instructions talloc, tfree, tdesc and tinfo (R265 to R270). -/

namespace Sys2Proof.Machine

/-- The tag of a tile handle. -/
def handleTag : Byte := 8

/-! ### Valid entries -/

/-- Two ranges overlap. -/
def overlaps (a b : Nat × Nat) : Bool := decide (a.1 < b.1 + b.2) && decide (b.1 < a.1 + a.2)

/-- A template keeps R265, R192 and R193 apart from ownership; BFP needs its feature (R482). -/
def templateOk (s : State) (cl n : Nat) : Bool :=
  let e := tdtOf n
  let f := e.fmt.toNat
  tdtNat e == n && e.gen == 0 && e.state == 0 && e.tenant == 0
    && fmtValid f && (!(isBfp f) || s.accepted.getLsbD 1)
    && e.base.toNat % 64 == 0 && e.stride.toNat % 64 == 0 && e.bexp.toNat % 64 == 0
    && decide (e.rowBytes ≤ e.stride.toNat)
    && (isBfp f || (!(e.axis) && e.bexp == 0))
    && (!(isBfp f) || (e.bexp != 0 || e.base != 0))
    && e.ranges.all (fun r => decide (r.1 + r.2 ≤ vaultData s cl))
    && (!(isBfp f) || !(overlaps (e.base.toNat, e.dataLen) (e.bexp.toNat, e.expLen)))
    && (if e.scv then decide (e.sglog.toNat ≤ 12) else e.sglog == 0 && e.scidx == 0)

/-- The first granule of a range, from offset `o` on, that tenant `t` does not own. -/
def notOwned (s : State) (t cl stop : Nat) : Nat → Nat → Option Nat
  | 0, _ => none
  | n + 1, o =>
    if stop ≤ o then none
    else if owns s t (vaultGranule cl o) then notOwned s t cl stop n ((o / 65536 + 1) * 65536) else some o

/-- The first offset of an entry's ranges that the tenant does not own. -/
def tileNotOwned (s : State) (t cl : Nat) (e : TdtEntry) : Option Nat :=
  e.ranges.findSome? fun r => notOwned s t cl (r.1 + r.2) 257 r.1

/-! ### Handles -/

/-- Why a value names no tile. -/
inductive HandleStop where
  | range
  | lost (die : Nat)
  | stale (handle : BitVec 32)
  deriving DecidableEq, Repr

/-- The parts of a handle: its cluster, numbered over all dies, its index and generation. -/
def handleCluster (h : BitVec 32) : Nat := nbits h.toNat 24 8
def handleIndex (h : BitVec 32) : Nat := nbits h.toNat 12 12
def handleGen (h : BitVec 32) : Nat := nbits h.toNat 0 12

/-- The handle a value stands for: plain, or relative to HWIN for an int64 value with bit 63 set (R196 items 2 to 4). -/
def handleOf (hwin : BitVec 32) (relative : Bool) (v : Word) : Option (BitVec 32) :=
  if nbits v.toNat 32 32 = 0 then some (v.setWidth 32)
  else if relative && v.getLsbD 63 && nbits v.toNat 12 51 == 0 then
    some (BitVec.ofNat 32 (nbits hwin.toNat 24 8 * 2 ^ 24 + (nbits hwin.toNat 12 12 + nbits v.toNat 0 12) % 4096 * 2 ^ 12
      + nbits hwin.toNat 0 12))
  else none

/-- Resolve a value to a valid tile of tenant `t` (R196). -/
def resolveHandle (s : State) (t : Nat) (hwin : BitVec 32) (relative : Bool) (v : Word) : Except HandleStop Tile :=
  match handleOf hwin relative v with
  | none => .error .range
  | some h =>
    let cl := handleCluster h
    if (getDie s (dieOfCluster cl)).state = 3 then .error (.lost (dieOfCluster cl))
    else
      let e := getTdt s cl (handleIndex h)
      if e.state = 2 ∧ e.gen.toNat = handleGen h ∧ e.tenant.toNat = t then .ok ⟨cl, h, e⟩ else .error (.stale h)

/-- The trap of a handle operand in register `r`. -/
def handleTrap (r : Reg) : HandleStop → Trap
  | .range => trapRange r
  | .lost d => trapTileLost d 0
  | .stale h => mkTrap 28 h.toNat 0

/-- The tile that register `r` names, with its tag checked. -/
def tileOperand (s : State) (c : Ctx) (r : Reg) : Except Trap Tile :=
  match checkTags c.t.line [(r, [handleTag, 0])] with
  | some e => .error e
  | none =>
    match resolveHandle s c.who.tenant c.t.line.hwin (getTag c.t.line r == 0) (getG c.t.line r) with
    | .ok t => .ok t
    | .error e => .error (handleTrap r e)

/-- A handle as a word (R195). -/
def handleWord (cl index : Nat) (gen : BitVec 12) : Word := BitVec.ofNat 64 (cl * 2 ^ 24 + index * 2 ^ 12 + gen.toNat)

/-! ### Templates -/

/-- Four words as a 256-bit number. -/
def wordsNat : List Nat → Nat
  | [] => 0
  | w :: l => w + 2 ^ 64 * wordsNat l

/-- Read and check the template in register `r` for cluster `cl`, then go on with its number (R266). A poisoned template is a deferred
MemoryError, and nothing is made of it (R404, log entry 73). What the Permission trap names is log entry 84. -/
def withTemplate (s : State) (c : Ctx) (r : Reg) (cl : Nat) (k : TdtEntry → Res) : Res :=
  let va := (getG c.t.line r).toNat
  withLoc s c 32 va false (locate s c.who .load va 0) fun loc =>
    readWords s c 0 va (locPlus loc) 4 0 [] false fun ws bad =>
      if bad then .trap (deferredTrap ⟨none, va, none⟩)
      else if (getDie s (dieOfCluster cl)).state = 3 then .trap (trapTileLost (dieOfCluster cl) 0)
      else if dieHeld s (dieOfCluster cl) then .retry s c.t.req c.t.replies
      else
        let e := tdtOf (wordsNat ws)
        if templateOk s cl (wordsNat ws) = false then .trap (mkTrap 25 0 va)
        else match tileNotOwned s c.who.tenant cl e with
          | some o => .trap (trapPermission true false true (vaultKey cl o))
          | none => k e

/-- Entry index `i` of a table is free. -/
def tdtFree (s : State) (cl i : Nat) : Bool := (getTdt s cl i).state == 0

/-- The lowest free index from `i` on. -/
def lowestFree (s : State) (cl : Nat) : Nat → Nat → Option Nat
  | 0, _ => none
  | n + 1, i => if tdtFree s cl i then some i else lowestFree s cl n (i + 1)

/-- Give a free entry to the tile: state scrubbing, GEN kept (R194, R266). -/
def allocTile (s : State) (t cl i : Nat) (e : TdtEntry) : State :=
  setTdt s cl i { e with gen := (getTdt s cl i).gen, state := 1, tenant := BitVec.ofNat 8 t }

/-- talloc's result: the handle of entry `i`, now valid (R266). -/
def tallocDone (c : Ctx) (d : Reg) (cl i : Nat) (s : State) : Res :=
  .ok (scrubbedTile s cl i) { c.t with line := setG c.t.line d (handleWord cl i (getTdt s cl i).gen) handleTag }

/-- An entry is allocated: with nothing to clear it is valid at once; a clearing keeps the line in its slot until it is done. -/
def tallocEntry (c : Ctx) (d : Reg) (cl i : Nat) (e : TdtEntry) (clr : Bool) (s : State) : Res :=
  let s := allocTile s c.who.tenant cl i e
  if clr then .retry s (some (scrubMark cl i)) [] else tallocDone c d cl i s

/-- talloc (R266). -/
def execTalloc (g : BitVec 4) (d a b : Reg) (s : State) : Host.Outcome State Fault Refusal :=
  issueWord (hdr g [d, a, b]) (fun c s =>
    match checkTags c.t.line [(a, [0]), (b, [0])] with
    | some e => .trap e
    | none =>
      let p := (getG c.t.line b).toNat
      let cl := nbits p 5 3 * 32 + nbits p 0 5
      match c.t.req.bind scrubbing with
      | some (cl, i) =>
        if (getDie s (dieOfCluster cl)).state = 3 then .trap (trapTileLost (dieOfCluster cl) 0)
        else if dieHeld s (dieOfCluster cl) then .retry s c.t.req c.t.replies
        else tallocDone c d cl i (clearTile s cl (getTdt s cl i))
      | none =>
      if (getG c.t.line a).toNat % 32 ≠ 0 then .trap (trapAlign 32 (getG c.t.line a).toNat)
      else if 2 ^ 22 ≤ p ∨ (nbits p 21 1 = 0 ∧ nbits p 9 12 ≠ 0) then .trap (trapRange b)
      else withTemplate s c a cl fun e =>
        let done := fun i => tallocEntry c d cl i e (nbits p 8 1 == 1) s
        if nbits p 21 1 = 1 then
          if tdtFree s cl (nbits p 9 12) then done (nbits p 9 12) else .trap (mkTrap 27 (nbits p 9 12) 0)
        else match lowestFree s cl 4096 0 with
          | some i => done i
          | none => .trap (mkTrap 26 (cl * 8) 0)) s

/-- A freed entry: GEN + 1, everything else zero (R194). -/
def freedEntry (e : TdtEntry) : TdtEntry := { TdtEntry.zero with gen := e.gen + 1 }

/-- The tile of a handle operand, whose die's ports serve it now. -/
def withTile (s : State) (c : Ctx) (a : Reg) (k : Tile → Res) : Res :=
  match tileOperand s c a with
  | .error e => .trap e
  | .ok t => if dieHeld s (dieOfCluster t.cl) then .retry s c.t.req c.t.replies else k t

/-- tfree (R267). -/
def execTfree (g : BitVec 4) (a : Reg) (s : State) : Host.Outcome State Fault Refusal :=
  issueWord (hdr g [a]) (fun c s => withTile s c a fun t =>
    .ok (setTdt s t.cl (handleIndex t.handle) (freedEntry t.desc)) c.t) s

/-- tdesc (R268): the handle is resolved before gB's tag is checked (log entry 83). -/
def execTdesc (g : BitVec 4) (d a b : Reg) (s : State) : Host.Outcome State Fault Refusal :=
  issueWord (hdr g [d, a, b]) (fun c s => withTile s c a fun t =>
    match checkTags c.t.line [(b, [0])] with
    | some e => .trap e
    | none => withTemplate s c b t.cl fun e =>
        let n := { e with gen := t.desc.gen + 1, state := t.desc.state, tenant := t.desc.tenant }
        .ok (setTdt s t.cl (handleIndex t.handle) n)
          { c.t with line := setG c.t.line d (handleWord t.cl (handleIndex t.handle) n.gen) handleTag }) s

/-- The summary of tinfo (R269). -/
def tileSummary (e : TdtEntry) : Word :=
  BitVec.ofNat 64 (e.rows + e.cols * 2 ^ 16 + e.fmt.toNat * 2 ^ 32 + e.swz.toNat * 2 ^ 36 + b2n e.axis * 2 ^ 39
    + b2n e.scv * 2 ^ 40)

/-- A chain of 8-byte writes, low address first; the instruction has made `first` operations before. -/
def syncWords (s : State) (c : Ctx) (first va : Nat) (loc : Nat → Loc) : List Word → Nat → (State → Res) → Res
  | [], _, k => k s
  | w :: l, i, k =>
    syncWrite s c (first + i) 8 w (va + 8 * i) (loc i) fun s => syncWords s c first va loc l (i + 1) k

/-- The four words of an entry's image, then its summary (R269). -/
def tileReading (e : TdtEntry) : List Word :=
  (List.range 4).map (fun i => BitVec.ofNat 64 (nbits (tdtNat e) (64 * i) 64)) ++ [tileSummary e]

/-- The image of a reading goes to the address in gB, then its summary to gD (R269). One that goes to another member is kept among the
answers from its one reading on. -/
def tinfoWrite (s : State) (c : Ctx) (d b : Reg) (r : List Word) (kept : Nat) : Res :=
  let va := (getG c.t.line b).toNat
  withLoc s c 32 va true (locateWrite s c.who va 0) fun loc =>
    if isRemote loc && kept == 0 then .retry s none r
    else syncWords s c kept va (locPlus loc) (r.take 4) 0 fun s =>
      .ok s { c.t with line := setG c.t.line d (r.getD 4 0) 0 }

/-- tinfo, with the entry's image at gB when M = 1 (R269); the handle is resolved before gB's tag is checked (log entry 83). -/
def execTinfo (g : BitVec 4) (d a b : Reg) (m : BitVec 1) (s : State) : Host.Outcome State Fault Refusal :=
  issueWord (hdr g (if m = 1 then [d, a, b] else [d, a])) (fun c s =>
    if 5 ≤ c.t.replies.length then tinfoWrite s c d b (c.t.replies.take 5) 5
    else withTile s c a fun t =>
      if m = 0 then .ok s { c.t with line := setG c.t.line d (tileSummary t.desc) 0 }
      else match checkTags c.t.line [(b, [0])] with
        | some e => .trap e
        | none => tinfoWrite s c d b (tileReading t.desc) 0) s

end Sys2Proof.Machine
end

