-- ==== Sys2Proof/Machine/EngineNum.lean ====
section
/-! DEFINITION. Machine/EngineNum.lean: the arithmetic of the engines (R280 to R303): flushed inputs, exact results rounded once,
integers, block floating point, roots and powers, the sums of R296 to R300, and the elements of tiles (R192, R293). -/

namespace Sys2Proof.Machine

/-! ### Exact values (R283 to R286) -/

/-- The default NaN as a value. -/
def quietNan : Fv := .nan true false 0

/-- An input flushed (R283). -/
def flushed (f : Fmt) (x : Nat) : Fv :=
  if isSubnormal f x then .zero (x / 2 ^ (f.ew + f.fw) % 2 == 1) else unpack f x

/-- A dyadic number as a value; an exact zero has the sign given. -/
def fvOf (zeroNeg : Bool) (v : Int × Int) : Fv :=
  if v.1 = 0 then .zero zeroNeg else .fin (decide (v.1 < 0)) v.1.natAbs v.2

/-- An integer as a value. -/
def fvInt (v : Int) : Fv := fvOf false (v, 0)

/-- Invalid when a source is a signalling NaN. -/
def sigExc (l : List Fv) : BitVec 5 := excIf (l.any fvSignalling) excInvalid

/-- The exact sum (R285, R286). -/
def evAdd (a b : Fv) : Fv × BitVec 5 :=
  if fvNan a || fvNan b then (quietNan, sigExc [a, b])
  else if fvInf a then (if fvInf b && fvNeg a != fvNeg b then (quietNan, excInvalid) else (.inf (fvNeg a), 0))
  else if fvInf b then (.inf (fvNeg b), 0)
  else (fvOf (fvZero a && fvZero b && fvNeg a && fvNeg b) (dyAdd ((dyadic a).getD (0, 0)) ((dyadic b).getD (0, 0))), 0)

/-- The exact product (R285, R286, R294). -/
def evMul (a b : Fv) : Fv × BitVec 5 :=
  let neg := fvNeg a != fvNeg b
  if fvNan a || fvNan b then (quietNan, sigExc [a, b])
  else if (fvInf a && fvZero b) || (fvZero a && fvInf b) then (quietNan, excInvalid)
  else if fvInf a || fvInf b then (.inf neg, 0)
  else (fvOf neg (mulDy ((dyadic a).getD (0, 0)) ((dyadic b).getD (0, 0))), 0)

/-- The exact sum of a list as one operation, whatever the order of its terms; no terms give +0. A NaN gives the default NaN,
infinities of opposite sign the default NaN and invalid, infinities of one sign that infinity (R296, R300). That a NaN term is looked
at first, so that infinities of opposite sign beside it raise nothing, is the model's choice (log entry 104). -/
def evSum (l : List Fv) : Fv × BitVec 5 :=
  let up := l.any fun v => fvInf v && !(fvNeg v)
  let down := l.any fun v => fvInf v && fvNeg v
  if l.any fvNan then (quietNan, sigExc l)
  else if up && down then (quietNan, excInvalid)
  else if up || down then (.inf down, 0)
  else match l with
    | [] => (.zero false, 0)
    | v :: l => (l.foldl (fun r x => (evAdd r x).1) v, 0)

/-- Rounded once to a binary format, tiny results to zero (R284, R286). -/
def roundEv (f : Fmt) (rm : Nat) : Fv → Nat × BitVec 5
  | .nan q _ _ => (f.nan, excIf (!q) excInvalid)
  | .inf neg => (f.inf neg, 0)
  | .zero neg => (f.signBit neg, 0)
  | .fin neg m e =>
    if isTiny f rm neg m e then (f.signBit neg, excUnderflow ||| excInexact) else roundPack f rm neg m e

/-- Rounded to an integer of a range (R302). -/
def evToInt (rm : Nat) (lo hi : Int) : Fv → Int × BitVec 5
  | .nan _ _ _ => (0, excInvalid)
  | .inf neg => (if neg then lo else hi, excInvalid)
  | .zero _ => (0, 0)
  | .fin neg m e =>
    let r := roundAt rm neg m e 0
    let v := intoRange lo hi (signedOf neg r.1)
    (v.1, if v.2 = 0 then excIf r.2 excInexact else v.2)

/-- a < b for values that are no NaN; −0 below +0. -/
def evLt (a b : Fv) : Bool :=
  match a, b with
  | .inf n, b => n && !(fvInf b && fvNeg b)
  | _, .inf n => !n
  | .zero n, .zero n' => n && !n'
  | a, b => decide ((dyAdd ((dyadic a).getD (0, 0)) (let y := (dyadic b).getD (0, 0); (-y.1, y.2))).1 < 0)

/-- The larger or smaller value; any NaN gives the default NaN (R300, R368). -/
def evPick (largest : Bool) (a b : Fv) : Fv × BitVec 5 :=
  if fvNan a || fvNan b then (quietNan, sigExc [a, b])
  else (if evLt a b = largest then b else a, 0)

/-! ### texp2, trcp, trsqrt (R289) -/

/-- A fixed-point 1.0 of the power series. -/
def fixOne : Nat := 2 ^ 192

/-- Σ 1 / (n 2^n) for n from `n` on: ln 2 in fixed point. -/
def ln2From : Nat → Nat → Nat
  | 0, _ => 0
  | fuel + 1, n => fixOne / (n * 2 ^ n) + ln2From fuel (n + 1)

/-- Σ y^n / n! from the term `t` of index `n` on, in fixed point, every step rounded down. -/
def expFrom (y : Nat) : Nat → Nat → Nat → Nat
  | 0, _, _ => 0
  | fuel + 1, n, t => t + expFrom y fuel (n + 1) (t * y / (fixOne * (n + 1)))

/-- 2^f for a fraction 0 ≤ f < 1 in fixed point, from below, with a sticky bit under it: m × 2^e. -/
def exp2Fraction (f : Nat) : Nat × Int :=
  (2 * expFrom (f * ln2From 192 1 / fixOne) 64 0 fixOne + 1, -193)

/-- 2^x for finite nonzero x = ±m × 2^e (log entry 7). -/
def exp2Finite (neg : Bool) (m : Nat) (e : Int) : Fv :=
  let limit := 4096
  if 13 < leadExp m e then .fin false 1 (if neg then -limit else limit)
  else if 0 ≤ e then .fin false 1 (signedOf neg (m * 2 ^ e.toNat))
  else
    let d : Nat := 2 ^ (-e).toNat
    let v := signedOf neg m
    let n := v / (d : Int)
    let r := (v % (d : Int)).toNat
    if r = 0 then .fin false 1 n
    else
      let x := exp2Fraction (r * fixOne / d)
      .fin false x.1 (x.2 + n)

/-- texp2. -/
def evExp2 : Fv → Fv × BitVec 5
  | .nan q n p => (quietNan, sigExc [.nan q n p])
  | .inf n => (if n then .zero false else .inf false, 0)
  | .zero _ => (.fin false 1 0, 0)
  | .fin n m e => (exp2Finite n m e, 0)

/-- trcp, to enough bits and a sticky bit below. -/
def evRcp : Fv → Fv × BitVec 5
  | .nan q n p => (quietNan, sigExc [.nan q n p])
  | .inf n => (.zero n, 0)
  | .zero n => (.inf n, excDivZero)
  | .fin n m e => let q := quotient 64 1 0 m e; (.fin n q.1 q.2, 0)

/-- trsqrt, to enough bits and a sticky bit below. -/
def evRsqrt : Fv → Fv × BitVec 5
  | .nan q n p => (quietNan, sigExc [.nan q n p])
  | .inf n => if n then (quietNan, excInvalid) else (.zero false, 0)
  | .zero n => (.inf n, excDivZero)
  | .fin n m e =>
    if n then (quietNan, excInvalid)
    else
      let m := if e % 2 = 0 then m else 2 * m
      let e := if e % 2 = 0 then e else e - 1
      let p := Nat.log2 m + 64
      let q := 2 ^ (2 * p) / m
      let r := isqrt q (Nat.log2 q / 2 + 1) 0
      (.fin false (2 * r + b2n (r * r * m != 2 ^ (2 * p))) (-(p : Int) - e / 2 - 1), 0)

/-! ### Block floating point (R291, R292) -/

/-- The value of a mantissa in a BFP-k block with exponent E (R291). -/
def bfpValue (k : Nat) (x ex : Nat) : Fv :=
  if ex = 0 then .zero false
  else if ex = 255 then quietNan
  else fvOf false (signed x k, (ex : Int) - 127 - (k - 2))

/-- The mantissa of a value at block exponent e, and whether it is inexact. -/
def mantissaAt (k rm : Nat) (e : Int) (v : Fv) : Int × Bool :=
  match v with
  | .fin neg m x =>
    let r := roundAt rm neg m (x + (k - 2) - e) 0
    (signedOf neg r.1, r.2)
  | _ => (0, false)

/-- The exponent of the largest value of a block; none when all are zero. -/
def blockLead : List Fv → Option Int
  | [] => none
  | v :: l =>
    match v, blockLead l with
    | .fin _ m e, some x => some (max (leadExp m e) x)
    | .fin _ m e, none => some (leadExp m e)
    | _, r => r

/-- A block after quantising: E, its mantissas, its exceptions. -/
structure Block where
  ex   : Nat
  ms   : List Int
  exc  : BitVec 5

/-- Quantise a block (R292). -/
def quantise (k rm : Nat) (vs : List Fv) : Block :=
  if vs.any (fun v => fvNan v || fvInf v) then ⟨255, vs.map fun _ => 0, excInvalid⟩
  else match blockLead vs with
    | none => ⟨0, vs.map fun _ => 0, 0⟩
    | some lead =>
      let top : Int := (2 ^ (k - 1) : Nat) - 1
      let e0 := max lead (-126)
      let e := if (vs.map (mantissaAt k rm e0)).any (fun r => decide (top < r.1)) then e0 + 1 else e0
      if 127 < e then
        ⟨254, vs.map fun v => clampInt (mantissaAt k rm 127 v).1 (-(2 ^ (k - 1) : Nat)) top, excOverflow ||| excInexact⟩
      else
        let rs := vs.map (mantissaAt k rm e)
        ⟨(e + 127).toNat, rs.map (·.1), excIf (rs.any (·.2)) excInexact⟩

/-! ### Formats of tiles -/

/-- The binary format of a float format code. -/
def engFmt (f : Nat) : Fmt :=
  match f with
  | 0 => fmt32
  | 1 => fmtB16
  | _ => fmt16

/-- The format is INT8 or INT32. -/
def isIntFmt (f : Nat) : Bool := f == 3 || f == 4

/-- The format is FP32, BF16 or FP16. -/
def isFloatFmt (f : Nat) : Bool := decide (f < 3)

/-- The value of an element's bits in a format, `ex` being its block's exponent. -/
def elemValue (f x ex : Nat) : Fv :=
  if isFloatFmt f then flushed (engFmt f) x
  else if isIntFmt f then fvInt (signed x (fmtBits f))
  else bfpValue (f - 4) x ex

/-- A value as an element of a format without blocks; `quiet` drops the invalid of a saturating integer (R280, R302). -/
def elemBits (f rm : Nat) (quiet : Bool) (v : Fv) : Nat × BitVec 5 :=
  if isFloatFmt f then roundEv (engFmt f) rm v
  else
    let b := fmtBits f
    let r := evToInt rm (-(2 ^ (b - 1) : Nat)) ((2 ^ (b - 1) : Nat) - 1) v
    (wrapTo r.1 b, if quiet then 0 else r.2)

/-! ### Elements of tiles (R192) -/

/-- A byte of a tile at vault offset `o`. -/
def tileByte (s : State) (t : Tile) (o : Nat) : Byte := byteAt (tileKey t.cl t.desc o) s.memory.bytes

/-- `n` bytes of a tile from vault offset `o` on, as a number. -/
def tileNat (s : State) (t : Tile) (o : Nat) : Nat → Nat
  | 0 => 0
  | n + 1 => (tileByte s t o).toNat + 256 * tileNat s t (o + 1) n

/-- The bits of element j of row i. -/
def tileBits (s : State) (t : Tile) (i j : Nat) : Nat :=
  let b := fmtBits t.desc.fmt.toNat
  let p := j * b
  tileNat s t (t.desc.base.toNat + i * t.desc.stride.toNat + p / 8) ((p % 8 + b + 7) / 8) / 2 ^ (p % 8) % 2 ^ b

/-- The index of the block of element j of row i. -/
def blockIndex (e : TdtEntry) (i j : Nat) : Nat :=
  if e.axis then i / 32 * e.cols + j else i * blocks32 e.cols + j / 32

/-- The exponent of a block. -/
def tileExp (s : State) (t : Tile) (n : Nat) : Nat :=
  if isBfp t.desc.fmt.toNat then (tileByte s t (t.desc.bexp.toNat + n)).toNat else 0

/-- Element j of row i, flushed, without its scale. -/
def tileElem (s : State) (t : Tile) (i j : Nat) : Fv :=
  elemValue t.desc.fmt.toNat (tileBits s t i j) (tileExp s t (blockIndex t.desc i j))

/-! ### Scales (R293, R343, R345) -/

/-- The heliostat core of a cluster. -/
def helioCore (s : State) (cl : Nat) : Nat := cl * 8 + (getCluster s cl).helio

/-- The key of scale entry j of a cluster. -/
def scaleKey (s : State) (cl j : Nat) : Nat := localKey (helioCore s cl) (65536 + 4 * j)

/-- The bits of a scale entry. -/
def scaleBits (s : State) (cl j : Nat) : Nat := memRead s.memory (scaleKey s cl j) 4

/-- The number of scales of a tile. -/
def TdtEntry.scaleCount (e : TdtEntry) : Nat := (e.rows + 2 ^ e.sglog.toNat - 1) / 2 ^ e.sglog.toNat

/-- The scale of row i; none where the tile has no scales. -/
def rowScale (s : State) (t : Tile) (i : Nat) : Option Fv :=
  if t.desc.scv then some (flushed fmt32 (scaleBits s t.cl (t.desc.scidx.toNat + i / 2 ^ t.desc.sglog.toNat))) else none

/-- A value times a scale (R294). -/
def scaledBy (v : Fv) : Option Fv → Fv × BitVec 5
  | none => (v, 0)
  | some x => evMul v x

/-- Element j of row i, flushed and scaled (R294). -/
def tileValue (s : State) (t : Tile) (i j : Nat) : Fv × BitVec 5 := scaledBy (tileElem s t i j) (rowScale s t i)

/-- The first scale entry a tile reads that lies in a granule its tenant does not own (R345). -/
def scaleNotOwned (s : State) (t : Tile) (tenant : Nat) : Option Nat :=
  if t.desc.scv then
    ((List.range t.desc.scaleCount).map fun j => t.desc.scidx.toNat + j).find? fun j =>
      !(owns s tenant (localGranule (helioCore s t.cl) (65536 + 4 * j)))
  else none

/-! ### Writing rows (R192) -/

/-- A list of `b`-bit elements as one number. -/
def packElems (b : Nat) : List Nat → Nat
  | [] => 0
  | x :: l => x % 2 ^ b + 2 ^ b * packElems b l

/-- Write `n` words of a number from vault offset `o` of a tile on. -/
def writeTileWords (t : Tile) : Nat → Nat → Nat → State → State
  | 0, _, _, s => s
  | n + 1, o, v, s => writeTileWords t n (o + 8) (v / 2 ^ 64) (writeLoc s (.cell (tileKey t.cl t.desc o)) 8 (v % 2 ^ 64))

/-- Write a whole row of element bits, its padding zero. -/
def writeRow (t : Tile) (i : Nat) (xs : List Nat) (s : State) : State :=
  writeTileWords t (t.desc.rowBytes / 8) (t.desc.base.toNat + i * t.desc.stride.toNat)
    (packElems (fmtBits t.desc.fmt.toNat) xs) s

/-- Write the exponent of a block. -/
def writeExp (t : Tile) (n ex : Nat) (s : State) : State :=
  writeLoc s (.cell (tileKey t.cl t.desc (t.desc.bexp.toNat + n))) 1 ex

/-- Rows of element bits written from row `i` on. -/
def writeRows (t : Tile) : Nat → List (List Nat) → State → State
  | _, [], s => s
  | i, r :: l, s => writeRows t (i + 1) l (writeRow t i r s)

/-- The values of block number n of a tile's values. -/
def blockValues (e : TdtEntry) (m : List (List Fv)) (n : Nat) : List Fv :=
  (List.range 32).filterMap fun x =>
    if e.axis then
      let i := n / e.cols * 32 + x
      if i < e.rows then some ((m.getD i []).getD (n % e.cols) (.zero false)) else none
    else
      let j := n % blocks32 e.cols * 32 + x
      if j < e.cols then some ((m.getD (n / blocks32 e.cols) []).getD j (.zero false)) else none

/-- The place of element (i, j) in its block. -/
def blockPos (e : TdtEntry) (i j : Nat) : Nat := if e.axis then i % 32 else j % 32

/-- The values of a whole tile converted to its format: the bits of its rows, the exponents of its blocks, the exceptions
(R284, R292, R302). -/
def convertTile (e : TdtEntry) (rm : Nat) (quiet : Bool) (m : List (List Fv)) : List (List Nat) × List Nat × BitVec 5 :=
  let f := e.fmt.toNat
  if isBfp f then
    let k := f - 4
    let bs := (List.range e.expCount).map fun n => quantise k rm (blockValues e m n)
    ((List.range e.rows).map fun i => (List.range e.cols).map fun j =>
        wrapTo (((bs[blockIndex e i j]?.map (·.ms)).getD []).getD (blockPos e i j) 0) k,
      bs.map (·.ex), bs.foldl (fun x b => x ||| b.exc) 0)
  else
    let rs := m.map fun r => r.map (elemBits f rm quiet)
    (rs.map fun r => r.map (·.1), [], rs.foldl (fun x r => r.foldl (fun x v => x ||| v.2) x) 0)

/-- Exponents written from block `n` on. -/
def writeExps (t : Tile) : Nat → List Nat → State → State
  | _, [], s => s
  | n, x :: l, s => writeExps t (n + 1) l (writeExp t n x s)

/-- Write the values of a whole tile. -/
def writeTile (s : State) (t : Tile) (rm : Nat) (quiet : Bool) (m : List (List Fv)) : State × BitVec 5 :=
  let r := convertTile t.desc rm quiet m
  (writeExps t 0 r.2.1 (writeRows t 0 r.1 s), r.2.2)

/-! ### Sums (R296, R297, R300) -/

/-- The terms of a list in groups of `n`. -/
def groupsOf (n : Nat) : Nat → List Fv → List (List Fv)
  | 0, _ => []
  | fuel + 1, l => if l.isEmpty then [] else l.take n :: groupsOf n fuel (l.drop n)

/-- One group added to an accumulator of a format, rounded once. -/
def accumulate (f : Fmt) (r : Nat × BitVec 5) (c : Fv × BitVec 5) : Nat × BitVec 5 :=
  let a := evAdd (flushed f r.1) c.1
  let x := roundEv f 0 a.1
  (x.1, r.2 ||| c.2 ||| a.2 ||| x.2)

/-- The sum of a row of a float tile (R300). -/
def rowSum (vs : List Fv) : Nat × BitVec 5 :=
  (groupsOf 64 vs.length vs).foldl (fun r g => accumulate fmt32 r (evSum g)) (0, 0)

/-- The plane's weight element bits at (j, n). -/
def Plane.elem (p : Plane) (j n : Nat) : Nat := (p.elems.getD j []).getD n 0

/-- The weight scale of row j, as flushed value. -/
def Plane.scale (p : Plane) (j : Nat) : Option Fv :=
  if p.scv then some (flushed fmt32 (p.scales.getD (j / 2 ^ p.sglog) 0)) else none

/-- The terms w × a of positions `lo` to `lo + n − 1` of column `col`, with integer mantissas for BFP weights. -/
def groupTerms (p : Plane) (acts : List Fv) (col lo n : Nat) (zeroed : Bool) : List (Fv × BitVec 5) :=
  (List.range n).map fun x =>
    let j := lo + x
    let w := if isBfp p.fmt then (if zeroed then .zero false else fvInt (signed (p.elem j col) (p.fmt - 4)))
      else elemValue p.fmt (p.elem j col) 0
    evMul w (acts.getD j (.zero false))

/-- c of R296 or R297 for the group from position `lo` on: the exact sum, times the block's power of two and both scales. -/
def groupValue (p : Plane) (acts : List Fv) (sa : Option Fv) (col lo n : Nat) : Fv × BitVec 5 :=
  let ex := (p.exps.getD (lo / 32) []).getD col 0
  let here := (acts.drop lo).take n
  if isBfp p.fmt && (ex == 255 || here.any fvNan) then
    (quietNan, sigExc (here ++ (p.scale lo).toList ++ sa.toList))
  else
    let ts := groupTerms p acts col lo n (isBfp p.fmt && ex == 0)
    let sum := evSum (ts.map (·.1))
    let sv := if isBfp p.fmt then
        (match sum.1 with
        | .fin neg m e => .fin neg m (e + (ex : Int) - 127 - ((p.fmt : Int) - 6))
        | .zero neg => .zero (if ex = 0 then false else neg)
        | v => v)
      else sum.1
    let a := scaledBy sv (p.scale lo)
    let b := scaledBy a.1 sa
    (b.1, ts.foldl (fun x t => x ||| t.2) (sum.2 ||| a.2 ||| b.2))

/-- One output of the Last (R296, R297): `start` is the accumulator's first value. -/
def lastOutput (p : Plane) (acts : List Fv) (sa : Option Fv) (col start : Nat) : Nat × BitVec 5 :=
  let g := if isBfp p.fmt then 32 else 64
  (List.range ((p.k + g - 1) / g)).foldl
    (fun r b => accumulate fmt32 r (groupValue p acts sa col (b * g) (min g (p.k - b * g)))) (start, 0)

end Sys2Proof.Machine
end

