-- ==== Sys2Proof/Machine/Engine.lean ====
section
/-! DEFINITION. Machine/Engine.lean: what engine instructions share at issue: guard slots (R319, R380), queues and reservations
(R305), job numbers and tables (R310, R311), command blocks (R356, R357), capture (R306, R354), and the end of a job
(R312 to R315). -/

namespace Sys2Proof.Machine

/-- The tags of a job number and of a capability. -/
def jobTag : Byte := 10
def capTag : Byte := 11

/-! ### Engines by number -/

/-- The Last, tread unit, copy unit and heliostat of cluster `cl`. -/
def lastOf (cl : Nat) : Nat := cl * 4
def treadOf (cl : Nat) : Nat := cl * 4 + 1
def copyOf (cl : Nat) : Nat := cl * 4 + 2
def scaleOf (cl : Nat) : Nat := cl * 4 + 3
/-- The page swap engine of virtual die `v`. -/
def swapOf (v : Nat) : Nat := 1024 + v

/-- ENG of a job number. -/
def engField (e : Nat) : Nat := if e < 1024 then e % 4 else 4

/-- ECOORD of a job number. -/
def engCoord (e : Nat) : Nat := if e < 1024 then e / 4 * 8 else (e - 1024) * 256

/-- The virtual die of an engine. -/
def engDie (e : Nat) : Nat := engCoord e / 256

/-- Queue entries (R304). -/
def queueCap (e : Nat) : Nat := if e < 1024 then 64 else 256

/-- A job number (R310). -/
def jobWord (e entry : Nat) (seq : BitVec 24) (tenant : Nat) : Word :=
  BitVec.ofNat 64 (engField e + engCoord e * 16 + entry * 2 ^ 15 + seq.toNat * 2 ^ 24 + tenant * 2 ^ 48)

/-! ### Traps by name (R359, R397) -/

def trapCommand (byte blk : Nat) : Trap := mkTrap 30 byte blk
def trapGuard (v : Nat) : Trap := mkTrap 31 v 0

/-! ### The engine form -/

/-- The flags of the engine form (R351). -/
structure EForm where
  x     : BitVec 1
  slot  : BitVec 4
  aq    : BitVec 1
  r     : BitVec 1
  scope : BitVec 2
  deriving DecidableEq, Repr

/-- The port of an engine's cluster serves now: go on; a die being remapped holds the instruction (R440), a die that is lost
or absent raises TileLost. -/
def atDie (s : State) (c : Ctx) (die : Nat) (k : Res) : Res :=
  if 2 ≤ (getDie s die).state then .trap (trapTileLost die 0)
  else if dieHeld s die then .retry s c.t.req c.t.replies
  else k

/-- The guard slot named by a command must be the tenant's (R307, R354). -/
def guardFree (s : State) (t cl : Nat) (f : EForm) : Bool :=
  f.x == 1 && ((getGuard s cl f.slot.toNat).state == 0 || (getGuard s cl f.slot.toNat).tenant != t)

/-- The guard test of R354. -/
def withGuard (s : State) (c : Ctx) (cl : Nat) (f : EForm) (k : Res) : Res :=
  if guardFree s c.who.tenant cl f then .trap (trapGuard f.slot.toNat) else k

/-- The guard a command captures (R354, R384). -/
def guardOf (s : State) (cl : Nat) (f : EForm) : Option (Nat × Nat × BitVec 8) :=
  if f.x = 1 then some (cl, f.slot.toNat, (getGuard s cl f.slot.toNat).gen) else none

/-- What a guard says of a command now (R384): run, hold or discard. -/
inductive Verdict where
  | run
  | hold
  | discard
  deriving DecidableEq, Repr

/-- The verdict of a captured guard. -/
def verdict (s : State) (g : Option (Nat × Nat × BitVec 8)) : Verdict :=
  match g with
  | none => .run
  | some (cl, i, gen) =>
    let e := getGuard s cl i
    if e.gen ≠ gen then .discard
    else match e.state with
      | 1 => .hold
      | 2 => .run
      | _ => .discard

/-! ### Queues (R305, R311) -/

/-- The commands that fill a queue: of a copy unit also the copies and markers that wait on its channels, parked ones apart (R304,
R313, R317). -/
def queueLoad (s : State) (n : Nat) : Nat :=
  (getEngine s n).queue.length
    + (if n < 1024 ∧ n % 4 = 2 then
        ((getCluster s (n / 4)).chans.map fun c => (c.2.queue.filter fun x => !(isParked s n x)).length).sum
      else 0)

/-- A final state of a job (R312). -/
def jobFinal (j : JobEntry) : Bool := decide (4 ≤ j.state)

/-- The entry is withdrawn from the ring (R464). -/
def entryWithdrawn (e : Engine) (i : Nat) : Bool :=
  match tabFind i e.jobs with
  | some j => j.withdrawn
  | none => false

/-- The next entry of the ring: allocation passes over withdrawn ones (R311, R464). -/
def ringNext (e : Engine) : Nat → Nat → Nat
  | 0, i => i % 512
  | n + 1, i => if entryWithdrawn e (i % 512) then ringNext e n (i + 1) else i % 512

/-- An entry that may be given to a new job. -/
def entryFree (e : Engine) (i : Nat) : Bool :=
  match tabFind i e.jobs with
  | some j => jobFinal j && !(j.withdrawn)
  | none => true

/-- The reserving requester to which a freed entry goes: the next one after the last granted (R305). -/
def nextGrant (e : Engine) : Option Nat :=
  (e.reserve.filter fun r => decide (e.granted < r)).head?.or e.reserve.head?

/-- Freed entries are granted, each to the next reserving requester; `free` entries are not in use (R305). -/
def grantFreed (free : Nat) : Nat → Engine → Engine
  | 0, e => e
  | k + 1, e =>
    if e.grants.length < free then
      match nextGrant e with
      | some r => grantFreed free k { e with reserve := setDel r e.reserve, grants := setIns r e.grants, granted := r }
      | none => e
    else e

/-- The engine with every freed entry granted. -/
def granting (s : State) (n : Nat) : Engine :=
  let e := getEngine s n
  grantFreed (queueCap n - queueLoad s n) e.reserve.length e

/-- A requester may take an entry of the queue: one granted to it, or a free one that is granted to nobody (R305). -/
def mayTake (s : State) (n req : Nat) : Bool :=
  let e := granting s n
  e.grants.contains req || (e.reserve.isEmpty && decide (queueLoad s n + e.grants.length < queueCap n))

/-- The next job-table entry in the ring may be given to a new job (R311). -/
def ringFree (e : Engine) : Bool := entryFree e (ringNext e 512 e.next)

/-- The requester number at an engine: a core's own number in its cluster, 8 for the remote port, through which the commands of answered
instructions come (R355) and those of cores of other clusters, a core's coordinate at a swap queue (R304). -/
def requester (core n : Nat) (answered : Bool) : Nat :=
  if n < 1024 then (if answered || clusterOf core != n / 4 then 8 else core % 8) else core

/-! ### Capture (R306, R354) -/

/-- What a capture records beside the issuing line. -/
structure Capture where
  eng  : Nat
  form : EForm
  /-- The cluster of the guard slot. -/
  gcl  : Nat
  d    : Reg
  res  : Option (Reg × Byte)
  post : Option (Nat × Nat)
  op   : CmdOp
  /-- The instruction is an answered one (R355). -/
  answered : Bool

/-- The command a capture makes in entry `i`. -/
def cmdOf (s : State) (c : Ctx) (q : Capture) (i : Nat) : Cmd where
  entry := i
  tenant := c.who.tenant
  job := c.who.job
  prio := c.t.line.prio
  level := c.who.level
  line := c.t.addr
  guard := guardOf s q.gcl q.form
  acq := q.form.aq == 1
  rel := q.form.r == 1
  scope := q.form.scope
  op := q.op
  res := q.res.map (·.1)
  post := q.post
  at_ := 0
  stg := []
  exc := 0
  sent := none

/-- A job just captured. -/
def newJob (seq : BitVec 24) (tenant job : Nat) : JobEntry := ⟨seq, tenant, job, 0, 0, false, false, 0, 0, false⟩

/-- The engine with a new job in entry `i`: its command in the queue by requester `req`, or held outside it (R311, R390). -/
def enqueue (e : Engine) (req i : Nat) (cmd : Cmd) (outside : Bool) : Engine where
  queue := if outside then e.queue else e.queue ++ [cmd]
  running := e.running
  jobs := tabIns i (newJob e.seq cmd.tenant cmd.job) e.jobs
  next := (i + 1) % 512
  seq := e.seq + 1
  reserve := e.reserve
  granted := e.granted
  grants := if outside then e.grants else setDel req e.grants
  held := if outside then e.held ++ [cmd] else e.held
  parked := e.parked

/-- The registers a capture writes: the job number, and a pending result register with its tag. -/
def captureLine (l : Line) (d : Reg) (jw : Word) (res : Option (Reg × Byte)) : Line :=
  let l := setG l d jw jobTag
  match res with
  | none => l
  | some (r, t) => setPending (setTag l r t) r

/-- A capture with ACQ = 1 is a release-side event: the line's earlier accesses are performed first (R223, R240). At the heliostat ACQ
is the acquire of the read (R344). -/
def captureWaits (s : State) (c : Ctx) (q : Capture) : Bool :=
  q.form.aq == 1 && !(decide (q.eng < 1024) && q.eng % 4 == 3)
    && (c.t.stores != 0 || !(readsDone s c.t.tenant c.t.addr))

/-- The line's later accesses come after an acquiring scale read (R344, R378); a scale write is complete once it is captured (R309). -/
def issueScale (q : Capture) (t : LiveLine) : LiveLine :=
  match q.op with
  | .sld _ => if q.form.aq = 1 then { t with await := q.res.map (·.1) } else t
  | _ => t

/-- Capture a command, or wait for a queue entry in the slot (R305, R354). A guarded swap command needs no entry yet (R390). `t` is the
line with what its reads left. -/
def capture (s : State) (c : Ctx) (t : LiveLine) (q : Capture) : Res :=
  if captureWaits s c q then .drain s .accesses
  else
    let e := granting s q.eng
    let req := requester c.core q.eng q.answered
    let outside := decide (1024 ≤ q.eng) && q.form.x == 1
    if ringFree e && (outside || mayTake s q.eng req) then
      let i := ringNext e 512 e.next
      .ok (setEngine s q.eng (enqueue e req i (cmdOf s c q i) outside))
        (issueScale q { t with line := captureLine t.line q.d (jobWord q.eng i e.seq c.who.tenant) q.res })
    else .retry (setEngine s q.eng (if outside || e.grants.contains req then e else { e with reserve := setIns req e.reserve }))
      c.t.req c.t.replies

/-! ### Command blocks (R356, R357) -/

/-- Bits of a block. -/
def bfield (n lo len : Nat) : Nat := nbits n lo len

/-- The first failing check of a list, by byte of the block. -/
def firstBad : List (Nat × Bool) → Option Nat
  | [] => none
  | (b, ok) :: l => if ok then firstBad l else some b

/-- The extension word (R308, R356): no optional field is implemented. -/
def extOk (n : Nat) : Bool :=
  let x := bfield n 448 64
  if nbits x 0 8 = 0 then x == 0 else nbits x 8 1 == 0

/-- CPV, CIDX and CCORE from bit `lo` on: reserved when CPV = 0. -/
def postOk (n lo : Nat) : Bool := bfield n lo 1 == 1 || bfield n (lo + 1) 17 == 0

/-- The completion counter of a block. -/
def postOf (n lo : Nat) : Option (Nat × Nat) :=
  if bfield n lo 1 = 1 then some (bfield n (lo + 7) 11, bfield n (lo + 1) 6) else none

/-- Read the block register `r` names (R356), then go on with its 512 bits. A poisoned block is a deferred MemoryError, and nothing is
captured from it (R404, log entry 73). -/
def withBlock (s : State) (c : Ctx) (r : Reg) (k : Nat → Res) : Res :=
  let va := (getG c.t.line r).toNat
  withLoc s c 64 va false (locate s c.who .load va 0) fun loc =>
    readWords s c 0 va (locPlus loc) 8 0 [] false fun ws bad =>
      if bad then .trap (deferredTrap ⟨none, va, none⟩) else k (wordsNat ws)

/-- The tiles that 32-bit handles name, in order (R196 from step 5). -/
def blockTiles (s : State) (c : Ctx) : List Nat → Except Trap (List Tile)
  | [] => .ok []
  | h :: l =>
    match resolveHandle s c.who.tenant c.t.line.hwin false (BitVec.ofNat 64 h) with
    | .error e => .error (handleTrap 0 e)
    | .ok t => match blockTiles s c l with
      | .error e => .error e
      | .ok ts => .ok (t :: ts)

/-- Checks on an engine operand tile of any kind: the engine's own vault (R358), whole scale groups (R295), the range of the
scale table (R345). -/
def operandOk (cl : Nat) (t : Tile) : Bool :=
  t.cl == cl
    && (!(t.desc.scv && t.desc.axis && isBfp t.desc.fmt.toNat) || decide (5 ≤ t.desc.sglog.toNat))
    && (!(t.desc.scv) || decide (t.desc.scidx.toNat + t.desc.scaleCount ≤ 16384))

/-- Checks on a destination or staging tile (R358). -/
def targetOk (cl : Nat) (t : Tile) : Bool := t.cl == cl && !(t.desc.scv)

/-! ### Jobs (R311, R312, R385) -/

/-- The parts of a job number. -/
def jobEng (w : Word) : Nat := nbits w.toNat 0 4
def jobCoord (w : Word) : Nat := nbits w.toNat 4 11
def jobEntryNo (w : Word) : Nat := nbits w.toNat 15 9
def jobSeq (w : Word) : Nat := nbits w.toNat 24 24
def jobTenant (w : Word) : Nat := nbits w.toNat 48 8

/-- The engine a job number names. -/
def jobEngine (w : Word) : Nat := if jobEng w = 4 then swapOf (jobCoord w / 256) else jobCoord w / 8 * 4 + jobEng w

/-- A job number that breaks R385. -/
def jobBad (w : Word) (tenant : Nat) : Bool :=
  nbits w.toNat 56 8 != 0 || decide (5 ≤ jobEng w) || nbits (jobCoord w) 0 3 != 0
    || (jobEng w == 4 && nbits (jobCoord w) 0 8 != 0) || jobTenant w != tenant

/-- The entry of a job number; none when it is expired (R311). That a number naming an entry which has held no job since reset counts as
expired is the model's choice (log entry 102). -/
def jobEntryOf (s : State) (w : Word) : Option JobEntry :=
  match tabFind (jobEntryNo w) (getEngine s (jobEngine w)).jobs with
  | none => none
  | some j => if j.seq.toNat = jobSeq w ∧ j.tenant = jobTenant w then some j else none

/-- The status word (R312). -/
def statusOf : Option JobEntry → Word
  | none => 7
  | some j => BitVec.ofNat 64 (j.state + j.exc.toNat * 8 + b2n j.rowdrop * 2 ^ 8 + b2n j.abort * 2 ^ 9 + j.fcode.toNat * 2 ^ 16
      + j.detail.toNat * 2 ^ 24)

/-- The job is final (R311). -/
def isFinal : Option JobEntry → Bool
  | none => true
  | some j => jobFinal j

/-- Change a job's entry. -/
def modJob (s : State) (eng entry : Nat) (f : JobEntry → JobEntry) : State :=
  let e := getEngine s eng
  match tabFind entry e.jobs with
  | some j => setEngine s eng { e with jobs := tabIns entry (f j) e.jobs }
  | none => s

/-! ### The end of a job (R313 to R315, R357) -/

/-- A value on its way to a command's result register (R314). -/
def sendValue (s : State) (cmd : Cmd) (v : Word) : State :=
  match cmd.res with
  | none => s
  | some r => sendMsg s cmd.tenant cmd.line (.result r v 0)

/-- The command leaves its engine, wherever it stands there. -/
def leaveEngine (s : State) (eng entry : Nat) : State := setEngine s eng (withoutCmd entry (getEngine s eng))

/-- A command ends with value `v` for its result register and its final status (R313, R314, R357). -/
def endCmd (s : State) (eng : Nat) (cmd : Cmd) (v : Word) (f : JobEntry → JobEntry) : State :=
  finishJob (completionPost (sendValue (leaveEngine s eng cmd.entry) cmd v) cmd) eng cmd.entry f

/-- A command is done. -/
def doneCmd (s : State) (eng : Nat) (cmd : Cmd) (v : Word) (exc : BitVec 5) : State :=
  endCmd s eng cmd v fun j => { j with state := 4, exc := exc, fcode := 0, detail := 0 }

/-- A command is discarded (R320, R321). -/
def discardCmd (s : State) (eng : Nat) (cmd : Cmd) : State := endCmd s eng cmd 0 fun j => { j with state := 5 }

/-- DETAIL of a command that parks or fails: the restart offset of a copy, else 0 (R312). -/
def restartOffset (cmd : Cmd) : BitVec 40 :=
  match cmd.op with
  | .copy _ _ _ _ _ _ _ => BitVec.ofNat 40 cmd.at_
  | _ => 0

/-- A command fails without a record (a kill, R313). -/
def failQuiet (s : State) (eng : Nat) (cmd : Cmd) (code : Byte) : State :=
  endCmd s eng cmd 0 fun j => { j with state := 6, exc := cmd.exc, fcode := code, detail := restartOffset cmd }

/-- The job number of a command. -/
def cmdJob (s : State) (eng : Nat) (cmd : Cmd) : Word :=
  let seq := match tabFind cmd.entry (getEngine s eng).jobs with
    | some j => j.seq
    | none => 0
  jobWord eng cmd.entry seq cmd.tenant

/-- A command fails with a fault record (R315, R398). -/
def failCmd (s : State) (eng : Nat) (cmd : Cmd) (t : Trap) : State :=
  let rec_ : FaultRec := ⟨(cmdJob s eng cmd).toNat, 0, t.code, 0, 1, false, t.addr, t.tdata, cmd.job⟩
  failQuiet (report s cmd.tenant rec_) eng cmd t.code

/-! ### Starting commands (R313, R316, R320, R384) -/

/-- The command's job is running, and it leaves the queue. R313 says that a parked command's entry frees; that the entry frees when the
command starts is the model's choice (log entry 100). -/
def startRunning (s : State) (eng : Nat) (cmd : Cmd) : State :=
  let e := getEngine s eng
  modJob (setEngine s eng { e with queue := e.queue.filter fun c => c.entry != cmd.entry, running := e.running ++ [cmd] })
    eng cmd.entry fun j => { j with state := 2 }

/-- A running command stops at a boundary and parks (R313, R440, R460): its entry frees, and it waits in the parked store. FCODE of a
parked job is not stated (log entry 22). -/
def parkCmd (eng : Nat) (s : State) (cmd : Cmd) : State :=
  let e := getEngine s eng
  let r := freeValue (setEngine s eng { withoutCmd cmd.entry e with parked := e.parked ++ [cmd] })
  modJob r.2 eng cmd.entry fun j => { j with state := 3, fcode := r.1.setWidth 8, detail := restartOffset cmd }

/-- A parked command runs again, from where it stopped (R313). -/
def unparkCmd (s : State) (eng : Nat) (cmd : Cmd) : State :=
  let e := withoutCmd cmd.entry (getEngine s eng)
  modJob (setEngine s eng { e with running := e.running ++ [cmd] }) eng cmd.entry fun j =>
    { j with state := 2, fcode := 0, detail := 0 }

/-- Swap commands that no guard holds any more enter the queue while it has room (R304, R390). -/
def admitSwaps (eng : Nat) : Nat → State → State
  | 0, s => s
  | n + 1, s =>
    let e := granting s eng
    match e.held.find? fun c => c.guard.isNone with
    | none => s
    | some cmd =>
      if e.reserve.isEmpty && decide (queueLoad s eng + e.grants.length < queueCap eng) then
        let e := withoutCmd cmd.entry e
        admitSwaps eng n (setEngine s eng { e with queue := e.queue ++ [cmd] })
      else s

/-- A swap command whose guard is true goes on to the queue (R390); a held job becomes running with its guard (R313). -/
def passSwap (s : State) (eng : Nat) (cmd : Cmd) : State :=
  let e := getEngine s eng
  let free := fun (c : Cmd) => if c.entry = cmd.entry then { c with guard := none } else c
  let s := modJob (setEngine s eng { e with held := e.held.map free }) eng cmd.entry fun j =>
    { j with state := if j.state = 1 then 2 else j.state }
  admitSwaps eng e.held.length s

/-- What a guard's verdict makes of a command that stands at its head, or of a guarded swap command. -/
def obeyGuard (s : State) (eng : Nat) (cmd : Cmd) (run : State → State) : State :=
  match verdict s cmd.guard with
  | .run => run s
  | .hold => modJob s eng cmd.entry fun j => { j with state := 1 }
  | .discard => discardCmd s eng cmd

/-- The commands that obey guard slot `i` of cluster `cl` at once when it is resolved or freed: held heads of the cluster's
engines, and guarded swap commands (R320, R390). -/
def guardedBy (cl i : Nat) (cmd : Cmd) : Bool :=
  match cmd.guard with
  | some (k, j, _) => k == cl && j == i
  | none => false

/-- The held head of engine `n`, when this slot guards it. -/
def heldHead (s : State) (n cl i : Nat) : Option Cmd :=
  match (getEngine s n).queue with
  | cmd :: _ =>
    if guardedBy cl i cmd && (match tabFind cmd.entry (getEngine s n).jobs with
      | some j => j.state == 1
      | none => false) then some cmd else none
  | [] => none

/-- A held command of a cluster engine obeys its slot: it runs (its guard no longer needed), or is discarded. -/
def resolveHead (cl i : Nat) (s : State) (n : Nat) : State :=
  match heldHead s n cl i with
  | none => s
  | some cmd =>
    if verdict s cmd.guard = .discard then discardCmd s n cmd
    else if verdict s cmd.guard = .run then
      let e := getEngine s n
      modJob (setEngine s n { e with queue := e.queue.map fun c => if c.entry = cmd.entry then { c with guard := none } else c })
        n cmd.entry fun j => { j with state := 2 }
    else s

/-- Guarded swap commands obey their slot. -/
def resolveSwaps (cl i : Nat) (s : State) (v : Nat) : State :=
  ((getEngine s (swapOf v)).held.filter (guardedBy cl i)).foldl
    (fun s cmd => obeyGuard s (swapOf v) cmd fun s => passSwap s (swapOf v) cmd) s

/-- A guard slot was resolved or freed: what was held on it runs or is discarded (R320). -/
def resolveGuard (s : State) (cl i : Nat) : State :=
  let s := (List.range 4).foldl (fun s k => resolveHead cl i s (cl * 4 + k)) s
  (List.range 8).foldl (resolveSwaps cl i) s

/-- A slot is freed: its GEN advances (R380, R383). -/
def freeGuard (s : State) (cl i : Nat) : State :=
  resolveGuard (setGuard s cl i { GuardSlot.zero with gen := (getGuard s cl i).gen + 1 }) cl i

/-- A swap command just captured obeys its guard at once (R390). -/
def settleSwap (s : State) (eng : Nat) : State :=
  match (getEngine s eng).held.getLast? with
  | some cmd => if cmd.guard.isSome then obeyGuard s eng cmd fun s => passSwap s eng cmd else s
  | none => s

/-- Do something after a capture. -/
def thenState (r : Res) (f : State → State) : Res :=
  match r with
  | .ok s t => .ok (f s) t
  | r => r

end Sys2Proof.Machine
end

