-- ==== Sys2Proof/Machine/EngineIssue.lean ====
section
/-! DEFINITION. Machine/EngineIssue.lean: the issue of engine instructions (R351 to R394): the Last, the tread unit, the copy unit, the
heliostat and the page swap engines, guard slots, jobs, capabilities and fin. -/

namespace Sys2Proof.Machine

/-! ### The Last (R323, R360 to R365) -/

/-- What the queue will leave in a plane, as far as legality needs it. -/
structure PlaneShape where
  k      : Nat
  n      : Nat
  fmt    : Nat
  tenant : Nat
  job    : Nat
  deriving DecidableEq, Repr

/-- The shape of a plane that is filled. -/
def Plane.shape (p : Plane) : PlaneShape := ⟨p.k, p.n, p.fmt, p.tenant, p.job⟩

/-- The shape of an empty plane. -/
def PlaneShape.none_ : PlaneShape := ⟨0, 0, 0, 0, 0⟩

/-- A pair of shapes, shadow then active, after a queued command (R323). -/
def planesAfter (s : State) (sh : PlaneShape × PlaneShape) (c : Cmd) : PlaneShape × PlaneShape :=
  if verdict s c.guard = .discard then sh
  else match c.op with
    | .lw w => (⟨w.desc.rows, w.desc.cols, w.desc.fmt.toNat, c.tenant, c.job⟩, sh.2)
    | .lswap => (sh.2, sh.1)
    | .lcfg a b =>
      let own := fun (p : PlaneShape) => p.tenant == c.tenant && p.job == c.job
      (if a && own sh.1 then .none_ else sh.1, if b && own sh.2 then .none_ else sh.2)
    | .restore act p => if act then (sh.1, p.shape) else (p.shape, sh.2)
    | _ => sh

/-- The active plane as the queue of the Last of cluster `cl` will leave it (R323). -/
def planeAhead (s : State) (cl : Nat) : PlaneShape :=
  let k := getCluster s cl
  ((k.last.running ++ k.last.parked ++ k.last.queue).foldl (planesAfter s) (k.shadow.shape, k.active.shape)).2

/-- The stationary depth of a weight format (R322). -/
def lastDepth (f : Nat) : Nat := if isBfp f then 1024 / (f - 4) / 32 * 32 else 64

/-- LAST_DEPTH (R322). -/
def lastDepthWord : Word := 0x04040506080A1002

/-- The weight row of R323, with the checks every operand meets. -/
def weightOk (cl : Nat) (t : Tile) : Bool :=
  let f := t.desc.fmt.toNat
  operandOk cl t && ((isBfp f && t.desc.axis) || f == 1 || f == 2)
    && decide (t.desc.rows ≤ lastDepth f) && decide (t.desc.cols ≤ 128)
    && (!(t.desc.scv) || isBfp f || decide (6 ≤ t.desc.sglog.toNat))

/-- Checks of an lstream block, by byte (R323, R358, R362). `p` is the active plane ahead. -/
def streamChecks (s : State) (cl : Nat) (p : PlaneShape) (n : Nat) (act dst : Tile) (stg : Option Tile) : List (Nat × Bool) :=
  let fa := act.desc.fmt.toNat
  let fd := dst.desc.fmt.toNat
  let fh := bfield n 176 1 == 1
  [(0, operandOk cl act && (fa == 1 || fa == 2) && p.k != 0 && act.desc.cols == p.k),
    (4, targetOk cl dst && isFloatFmt fd && dst.desc.rows == act.desc.rows && dst.desc.cols == p.n),
    (8, match stg with
      | some t => targetOk cl t && t.desc.fmt == 0 && t.desc.cols == p.n
      | none => bfield n 64 32 == 0),
    (12, bfield n 96 32 == 0),
    (16, if fh then bfield n 128 2 == 0 else bfield n 128 48 == 0),
    (22, (bfield n 177 1 == 0 || fd == 0) && (bfield n 178 1 == 0 || (isBfp p.fmt && s.accepted.getLsbD 2))
      && (bfield n 179 1 == 0 || fd != 0) && bfield n 180 12 == 0),
    (24, fh || bfield n 192 64 == 0),
    (32, postOk n 256),
    (34, bfield n 274 174 == 0),
    (56, extOk n)]

/-- The handles of an lstream block. -/
def streamHandles (n : Nat) : List Nat :=
  [bfield n 0 32, bfield n 32 32] ++ (if bfield n 176 1 = 1 then [bfield n 64 32] else [])

/-- The work of an lstream block. -/
def streamOp (n : Nat) (act dst : Tile) (stg : Option Tile) : CmdOp :=
  .lstream act dst stg (BitVec.ofNat 48 (bfield n 128 48)) (bfield n 177 1 == 1) (bfield n 178 1 == 1) (bfield n 179 1 == 1)
    (BitVec.ofNat 64 (bfield n 192 64))

/-- A checked command of the Last, or why it is none. -/
def streamCmd (s : State) (c : Ctx) (cl n blk : Nat) : Except Trap (CmdOp × Option (Nat × Nat)) :=
  match blockTiles s c (streamHandles n) with
  | .error e => .error e
  | .ok (act :: dst :: rest) =>
    match firstBad (streamChecks s cl (planeAhead s cl) n act dst rest.head?) with
    | some b => .error (trapCommand b blk)
    | none => .ok (streamOp n act dst rest.head?, postOf n 256)
  | .ok _ => .error (trapCommand 0 blk)

/-- The engine form of a word. -/
def mkForm (x : BitVec 1) (slot : BitVec 4) (aq r : BitVec 1) (scope : BitVec 2) : EForm := ⟨x, slot, aq, r, scope⟩

/-- lw (R360). -/
def execLw (g : BitVec 4) (d a : Reg) (x : BitVec 1) (ss : BitVec 4) (aq r : BitVec 1) (c : BitVec 2) (s : State) :
    Host.Outcome State Fault Refusal :=
  issueWord (hdr g [d, a]) (fun k s =>
    let cl := clusterOf k.core
    let f := mkForm x ss aq r c
    match checkTags k.t.line [(a, [handleTag, 0])] with
    | some e => .trap e
    | none => atDie s k (dieOfCluster cl) <| withGuard s k cl f <|
      match tileOperand s k a with
      | .error e => .trap e
      | .ok t =>
        if weightOk cl t then capture s k k.t ⟨lastOf cl, f, cl, d, none, none, .lw t, false⟩ else .trap (trapCommand 63 0)) s

/-- An engine word without operands: lswap and ldrain. -/
def plainLast (op : CmdOp) (d : Reg) (f : EForm) (c : Ctx) (s : State) : Res :=
  let cl := clusterOf c.core
  atDie s c (dieOfCluster cl) <| withGuard s c cl f <| capture s c c.t ⟨lastOf cl, f, cl, d, none, none, op, false⟩

/-- lswap (R361). -/
def execLswap (g : BitVec 4) (d : Reg) (x : BitVec 1) (ss : BitVec 4) (aq r : BitVec 1) (c : BitVec 2) (s : State) :
    Host.Outcome State Fault Refusal :=
  issueWord (hdr g [d]) (plainLast .lswap d (mkForm x ss aq r c)) s

/-- ldrain (R364). -/
def execLdrain (g : BitVec 4) (d : Reg) (x : BitVec 1) (ss : BitVec 4) (aq r : BitVec 1) (c : BitVec 2) (s : State) :
    Host.Outcome State Fault Refusal :=
  issueWord (hdr g [d]) (plainLast .ldrain d (mkForm x ss aq r c)) s

/-- lstream (R362, R363). -/
def execLstream (g : BitVec 4) (d a : Reg) (x : BitVec 1) (ss : BitVec 4) (aq r : BitVec 1) (c : BitVec 2) (s : State) :
    Host.Outcome State Fault Refusal :=
  issueWord (hdr g [d, a]) (fun k s =>
    let cl := clusterOf k.core
    let f := mkForm x ss aq r c
    let va := (getG k.t.line a).toNat
    match checkTags k.t.line [(a, [0])] with
    | some e => .trap e
    | none => atDie s k (dieOfCluster cl) <| withGuard s k cl f <| withBlock s k a fun n =>
      match streamCmd s k cl n va with
      | .error e => .trap e
      | .ok (op, post) => capture s k k.t ⟨lastOf cl, f, cl, d, none, post, op, false⟩) s

/-- lcfg (R365). -/
def execLcfg (g : BitVec 4) (d a : Reg) (x : BitVec 1) (ss : BitVec 4) (aq r : BitVec 1) (c : BitVec 2) (s : State) :
    Host.Outcome State Fault Refusal :=
  issueWord (hdr g [d, a]) (fun k s =>
    let cl := clusterOf k.core
    let f := mkForm x ss aq r c
    let w := getG k.t.line a
    match checkTags k.t.line [(a, [0])] with
    | some e => .trap e
    | none => atDie s k (dieOfCluster cl) <| withGuard s k cl f <|
      if 4 ≤ w.toNat then .trap (trapRange a)
      else capture s k k.t ⟨lastOf cl, f, cl, d, none, none, .lcfg (wbit w 0) (wbit w 1), false⟩) s

/-! ### lrem (R331, R332, R366, R367) -/

/-- The generation of a tenant's capabilities (R332). -/
def capGenOf (s : State) (t : Nat) : Nat := (getTenant s t).capGen.toNat

/-- Why a target refuses a capability (R332, R397): 0 tenant, 1 die or cluster, 2 right, 3 generation, 4 reserved bits. -/
def capRefusal (s : State) (t : Nat) (cap : Word) (tgt fn : Nat) : Option Nat :=
  let w := cap.toNat
  let right := if fn = 2 ∨ fn = 3 then 48 else if fn = 4 then 50 else 49
  if nbits w 0 8 ≠ t then some 0
  else if nbits w (8 + dieOf tgt) 1 = 0 ∨ nbits w (16 + tgt / 8 % 32) 1 = 0 then some 1
  else if nbits w right 1 = 0 then some 2
  else if nbits w 52 12 ≠ capGenOf s t then some 3
  else if nbits w 51 1 ≠ 0 then some 4
  else none

/-- Checks of a remote Last block, by byte (R366). -/
def remoteChecks (n : Nat) : List (Nat × Bool) :=
  let fn := bfield n 12 4
  let ar := bfield n 21 2
  [(0, bfield n 0 3 == 0), (1, bfield n 11 1 == 0 && decide (fn < 5)),
    (2, (bfield n 16 1 == 1 || bfield n 17 4 == 0) && (if ar = 0 then bfield n 23 2 == 0 else bfield n 23 2 != 0)
      && bfield n 25 39 == 0),
    (8, if fn = 0 then bfield n 96 32 == 0 else if fn = 2 ∨ fn = 4 then true else bfield n 64 64 == 0),
    (16, bfield n 128 320 == 0), (56, extOk n)]

/-- A refusal of the target (R332). -/
def capRefused (why : Nat) : Res := .trap (mkTrap 32 why 0)

/-- A command of an lrem that passes, or a refusal: `k` goes on with the command. Every failure at the target is a refusal, that of the
stream block's address among them (R367). -/
def remoteCmd (s : State) (c : Ctx) (cl fn opa : Nat) (k : CmdOp → Option (Nat × Nat) → Res) : Res :=
  match fn with
  | 0 =>
    match resolveHandle s c.who.tenant c.t.line.hwin false (BitVec.ofNat 64 opa) with
    | .error _ => capRefused 5
    | .ok t => if weightOk cl t then k (.lw t) none else capRefused 5
  | 1 => k .lswap none
  | 2 =>
    match addrTrap 64 opa false with
    | some _ => capRefused 5
    | none => match locate s c.who .load opa 0 with
      | .error (.trap _) => capRefused 5
      | .error e => stopRes s c e
      | .ok loc =>
        readWords s c 8 opa (locPlus loc) 8 0 [] false fun ws bad =>
          if bad then capRefused 5
          else match streamCmd s c cl (wordsNat ws) opa with
            | .error _ => capRefused 5
            | .ok (op, post) => k op post
  | 3 => k .ldrain none
  | _ => if 4 ≤ opa then capRefused 5 else k (.lcfg (nbits opa 0 1 == 1) (nbits opa 1 1 == 1)) none

/-- lrem (R367). -/
def execLrem (g : BitVec 4) (d a b : Reg) (s : State) : Host.Outcome State Fault Refusal :=
  issueWord (hdr g [d, a, b]) (fun c s =>
    match checkTags c.t.line [(a, [capTag, 0]), (b, [0])] with
    | some e => .trap e
    | none => withBlock s c b fun n =>
      let blk := (getG c.t.line b).toNat
      match firstBad (remoteChecks n) with
      | some i => .trap (trapCommand i blk)
      | none =>
        let tgt := bfield n 0 11
        let cl := clusterOf tgt
        let fn := bfield n 12 4
        let f : EForm := ⟨BitVec.ofNat 1 (bfield n 16 1), BitVec.ofNat 4 (bfield n 17 4), BitVec.ofNat 1 (bfield n 21 1),
          BitVec.ofNat 1 (bfield n 22 1), BitVec.ofNat 2 (bfield n 23 2)⟩
        match capRefusal s c.who.tenant (getG c.t.line a) tgt fn with
        | some why => capRefused why
        | none =>
          if 2 ≤ (getDie s (dieOf tgt)).state then capRefused 5
          else if dieHeld s (dieOf tgt) then .retry s c.t.req c.t.replies
          else if guardFree s c.who.tenant cl f then capRefused 5
          else remoteCmd s c cl fn (bfield n 64 64) fun op post =>
            capture s c c.t ⟨lastOf cl, f, cl, d, none, post, op, true⟩) s

/-! ### The tread unit (R334, R335, R368 to R370) -/

/-- Operands of a tread function: DST, SRC1, SRC2, SRC3 as R368 gives; `rreg` puts tred's result in a register. -/
def treadUses (fn : Nat) (rreg : Bool) : Bool × Bool × Bool :=
  (!(fn == 9 && rreg), decide (fn < 5) || fn == 10, fn == 2 || fn == 10)

/-- An operand matches a shape, or is repeated across it (R335). -/
def broadcasts (t : Tile) (rows cols : Nat) : Bool :=
  (t.desc.rows == rows || t.desc.rows == 1) && (t.desc.cols == cols || t.desc.cols == 1)

/-- A float, BFP or integer source for arithmetic; integers carry no scales there (R334). -/
def floatSrc (t : Tile) : Bool := !(isIntFmt t.desc.fmt.toNat)
def intSrc (t : Tile) : Bool := isIntFmt t.desc.fmt.toNat && !(t.desc.scv)

/-- A destination of the kind of the sources, without blocks (R334). -/
def sameKind (src dst : Tile) : Bool :=
  if isIntFmt src.desc.fmt.toNat then isIntFmt dst.desc.fmt.toNat else isFloatFmt dst.desc.fmt.toNat

/-- The tiles of a tread block. -/
structure TreadTiles where
  dst  : Option Tile
  src1 : Tile
  src2 : Option Tile
  src3 : Option Tile

/-- The tile the shapes follow (R370). -/
def TreadTiles.shape (t : TreadTiles) (fn : Nat) : Tile := if fn = 10 then t.src2.getD t.src1 else t.src1

/-- DST is legal for the function (R334, R358, R370). -/
def dstOk (cl fn : Nat) (t : TreadTiles) : Bool :=
  let sh := t.shape fn
  match t.dst with
  | none => true
  | some d =>
    targetOk cl d
      && (match fn with
        | 9 => d.desc.rows == sh.desc.rows && d.desc.cols == 1
        | 11 => d.desc.rows == sh.desc.cols && d.desc.cols == sh.desc.rows
        | _ => d.desc.rows == sh.desc.rows && d.desc.cols == sh.desc.cols)
      && (match fn with
        | 5 | 6 | 7 => isFloatFmt d.desc.fmt.toNat
        | 8 => operandOk cl d
        | 9 => d.desc.fmt == (if isIntFmt t.src1.desc.fmt.toNat then 4 else 0)
        | 10 => sameKind sh d
        | 11 => d.desc.fmt == t.src1.desc.fmt
        | _ => sameKind sh d)

/-- SRC1 is legal for the function. -/
def src1Ok (cl fn : Nat) (rreg : Bool) (t : TreadTiles) : Bool :=
  let sh := t.shape fn
  operandOk cl t.src1
    && (match fn with
      | 5 | 6 | 7 => floatSrc t.src1
      | 8 => true
      | 9 => (floatSrc t.src1 || intSrc t.src1) && (!rreg || t.src1.desc.rows == 1)
      | 10 => t.src1.desc.fmt == 3 && !(t.src1.desc.scv) && broadcasts t.src1 sh.desc.rows sh.desc.cols
      | 11 => !(isBfp t.src1.desc.fmt.toNat)
      | _ => floatSrc t.src1 || intSrc t.src1)

/-- A second or third source is legal. -/
def srcOk (cl fn : Nat) (t : TreadTiles) (x : Option Tile) : Bool :=
  let sh := t.shape fn
  match x with
  | none => true
  | some y =>
    operandOk cl y && (floatSrc y || intSrc y) && broadcasts y sh.desc.rows sh.desc.cols
      && (isIntFmt y.desc.fmt.toNat == isIntFmt sh.desc.fmt.toNat)

/-- Checks of a tread block, by byte (R369, R370, R394). -/
def treadChecks (cl fn n : Nat) (b d : Reg) (t : TreadTiles) : List (Nat × Bool) :=
  let rreg := bfield n 131 1 == 1
  [(0, if t.dst.isSome then dstOk cl fn t else bfield n 0 32 == 0),
    (4, src1Ok cl fn rreg t),
    (8, if t.src2.isSome then srcOk cl fn t t.src2 else bfield n 64 32 == 0),
    (12, if t.src3.isSome then srcOk cl fn t t.src3 else bfield n 96 32 == 0),
    (16, (if fn = 9 then bfield n 128 2 != 3 else bfield n 128 2 == 0) && (bfield n 130 1 == 0 || fn == 8) && (!rreg || fn == 9)
      && postOk n 132),
    (18, bfield n 150 298 == 0),
    (56, extOk n),
    (63, if rreg then b != d else b == 0)]

/-- The tiles of a tread block in block order, or the trap of a handle. -/
def treadTiles (s : State) (c : Ctx) (fn n : Nat) : Except Trap TreadTiles :=
  let u := treadUses fn (bfield n 131 1 == 1)
  let one := fun (use : Bool) (lo : Nat) => blockTiles s c (if use then [bfield n lo 32] else [])
  match one u.1 0 with
  | .error e => .error e
  | .ok dst => match one true 32 with
    | .error e => .error e
    | .ok [] => .error (trapCommand 4 0)
    | .ok (src1 :: _) => match one u.2.1 64 with
      | .error e => .error e
      | .ok src2 => match one u.2.2 96 with
        | .error e => .error e
        | .ok src3 => .ok ⟨dst.head?, src1, src2.head?, src3.head?⟩

/-- The tag of tred's result register (R334, R370). -/
def tredTag (t : TreadTiles) : Byte := if isIntFmt t.src1.desc.fmt.toNat then 0 else 5

/-- A tread instruction (R368): function `fn`. -/
def treadIssue (fn : Nat) (d a b : Reg) (f : EForm) (k : Ctx) (s : State) : Res :=
  let cl := clusterOf k.core
  let va := (getG k.t.line a).toNat
  match checkTags k.t.line [(a, [0])] with
  | some e => .trap e
  | none => atDie s k (dieOfCluster cl) <| withGuard s k cl f <| withBlock s k a fun n =>
    match treadTiles s k fn n with
    | .error e => .trap e
    | .ok t =>
      match firstBad (treadChecks cl fn n b d t) with
      | some i => .trap (trapCommand i va)
      | none =>
        capture s k k.t
          ⟨treadOf cl, f, cl, d, if bfield n 131 1 = 1 then some (b, tredTag t) else none, postOf n 132,
            .tread fn t.dst (some t.src1) t.src2 t.src3 (bfield n 128 2) (bfield n 130 1 == 1), false⟩

def execTadd (g : BitVec 4) (d a : Reg) (x : BitVec 1) (ss : BitVec 4) (aq r : BitVec 1) (c : BitVec 2) (s : State) :
    Host.Outcome State Fault Refusal :=
  issueWord (hdr g [d, a]) (treadIssue 0 d a 0 (mkForm x ss aq r c)) s

def execTmul (g : BitVec 4) (d a : Reg) (x : BitVec 1) (ss : BitVec 4) (aq r : BitVec 1) (c : BitVec 2) (s : State) :
    Host.Outcome State Fault Refusal :=
  issueWord (hdr g [d, a]) (treadIssue 1 d a 0 (mkForm x ss aq r c)) s

def execTfma (g : BitVec 4) (d a : Reg) (x : BitVec 1) (ss : BitVec 4) (aq r : BitVec 1) (c : BitVec 2) (s : State) :
    Host.Outcome State Fault Refusal :=
  issueWord (hdr g [d, a]) (treadIssue 2 d a 0 (mkForm x ss aq r c)) s

def execTmax (g : BitVec 4) (d a : Reg) (x : BitVec 1) (ss : BitVec 4) (aq r : BitVec 1) (c : BitVec 2) (s : State) :
    Host.Outcome State Fault Refusal :=
  issueWord (hdr g [d, a]) (treadIssue 3 d a 0 (mkForm x ss aq r c)) s

def execTmin (g : BitVec 4) (d a : Reg) (x : BitVec 1) (ss : BitVec 4) (aq r : BitVec 1) (c : BitVec 2) (s : State) :
    Host.Outcome State Fault Refusal :=
  issueWord (hdr g [d, a]) (treadIssue 4 d a 0 (mkForm x ss aq r c)) s

def execTexp2 (g : BitVec 4) (d a : Reg) (x : BitVec 1) (ss : BitVec 4) (aq r : BitVec 1) (c : BitVec 2) (s : State) :
    Host.Outcome State Fault Refusal :=
  issueWord (hdr g [d, a]) (treadIssue 5 d a 0 (mkForm x ss aq r c)) s

def execTrcp (g : BitVec 4) (d a : Reg) (x : BitVec 1) (ss : BitVec 4) (aq r : BitVec 1) (c : BitVec 2) (s : State) :
    Host.Outcome State Fault Refusal :=
  issueWord (hdr g [d, a]) (treadIssue 6 d a 0 (mkForm x ss aq r c)) s

def execTrsqrt (g : BitVec 4) (d a : Reg) (x : BitVec 1) (ss : BitVec 4) (aq r : BitVec 1) (c : BitVec 2) (s : State) :
    Host.Outcome State Fault Refusal :=
  issueWord (hdr g [d, a]) (treadIssue 7 d a 0 (mkForm x ss aq r c)) s

def execTcvt (g : BitVec 4) (d a : Reg) (x : BitVec 1) (ss : BitVec 4) (aq r : BitVec 1) (c : BitVec 2) (s : State) :
    Host.Outcome State Fault Refusal :=
  issueWord (hdr g [d, a]) (treadIssue 8 d a 0 (mkForm x ss aq r c)) s

/-- tred: b names the result register when the block's RREG is 1. A pending b delays its issue before the block is read, g0 too
(R22, R354, log entry 74). -/
def execTred (g : BitVec 4) (d a b : Reg) (x : BitVec 1) (ss : BitVec 4) (aq r : BitVec 1) (c : BitVec 2) (s : State) :
    Host.Outcome State Fault Refusal :=
  issueWord (hdr g [d, a, b]) (treadIssue 9 d a b (mkForm x ss aq r c)) s

def execTsel (g : BitVec 4) (d a : Reg) (x : BitVec 1) (ss : BitVec 4) (aq r : BitVec 1) (c : BitVec 2) (s : State) :
    Host.Outcome State Fault Refusal :=
  issueWord (hdr g [d, a]) (treadIssue 10 d a 0 (mkForm x ss aq r c)) s

def execTtrn (g : BitVec 4) (d a : Reg) (x : BitVec 1) (ss : BitVec 4) (aq r : BitVec 1) (c : BitVec 2) (s : State) :
    Host.Outcome State Fault Refusal :=
  issueWord (hdr g [d, a]) (treadIssue 11 d a 0 (mkForm x ss aq r c)) s

/-! ### The copy unit (R336, R337, R371 to R375) -/

/-- The cluster whose vault or local store an address lies in. -/
def windowCluster (va : Nat) : Option Nat :=
  match regionOf va with
  | .vault cl _ => some cl
  | .localStore core _ => some (clusterOf core)
  | _ => none

/-- DPAT keeps R198. -/
def dpatOk (w : Nat) : Bool :=
  decide (nbits w 0 4 ≤ 10) && nbits w 4 8 != 0 && nbits w 15 1 == 0 && nbits w 16 6 == 0 && nbits w 33 31 == 0

/-- The virtual ranges a copy of `len` bytes writes. -/
def copyRanges (dst len : Nat) (dist : Bool) (dpat : Nat) : List (Nat × Nat) :=
  if dist then
    let b := 2 ^ (nbits dpat 0 4 + 6)
    let l := dealOrder dpat
    (List.range l.length).filterMap fun i =>
      let blocks := (len + b - 1) / b
      let mine := (blocks - i + l.length - 1) / l.length
      if mine = 0 ∨ blocks ≤ i then none
      else
        let last := i + (mine - 1) * l.length
        some (dst + l.getD i 0 * 2 ^ 17 + nbits dpat 16 17, (mine - 1) * b + min b (len - last * b))
  else [(dst, len)]

/-- The address is one that a copy may not name as destination: in a mailbox file, a TDT or a reserved window offset (R372). One in the
reserved device region above the window fails the copy at its first segment (R182, R315). -/
def copyDstBad (va : Nat) : Bool :=
  match regionOf va with
  | .mailbox _ _ => true
  | .tdt _ _ => true
  | .reserved => decide (va < windowBase + 2 ^ 40)
  | _ => false

/-- Checks of a copy block, by byte (R371 to R373). `req` says cpyd. -/
def copyChecks (n : Nat) (req : Bool) : List (Nat × Bool) :=
  let src := bfield n 0 56
  let dst := bfield n 64 56
  let len := bfield n 128 32 + 1
  let dist := bfield n 164 1 == 1
  let dpat := bfield n 192 64
  [(7, bfield n 56 8 == 0),
    (8, (!dist || (match regionOf dst with
        | .localStore core off => core % 8 == 0 && off == 0
        | _ => false))
      && !((copyRanges dst len dist dpat).any fun r => overlaps (src, len) r)),
    (15, bfield n 120 8 == 0),
    (20, (bfield n 163 1 == 0 || (windowCluster dst).isSome) && postOk n 165),
    (22, bfield n 183 9 == 0),
    (24, if dist then dpatOk dpat else dpat == 0),
    (32, if req then bfield n 256 3 == 0 else bfield n 256 11 == 0),
    (33, bfield n 267 181 == 0),
    (56, extOk n)]

/-- Memory that cluster `u` owns (R336). -/
def unitOwns (s : State) (u : Nat) : Loc → Bool
  | .cell k =>
    if k < windowBase then homeDie s k == some (dieOfCluster u)
    else if k - windowBase < 2 ^ 32 then (k - windowBase) / 2 ^ 24 == u
    else clusterOf ((k - windowBase - 2 ^ 32) / 2 ^ 17) == u
  | _ => false

/-- The push mask of a destination cluster lets cluster `u` in (R337). -/
def pushAllowed (s : State) (t u dst : Nat) : Bool :=
  match windowCluster dst with
  | none => true
  | some k => (tabGet (BitVec.allOnes 256) k (getTenant s t).push).getLsbD u

/-- The work of a copy block. -/
def copyOpOf (n : Nat) : CmdOp :=
  .copy (bfield n 0 56) (bfield n 64 56) (bfield n 128 32 + 1) (bfield n 160 3) (bfield n 163 1 == 1) (bfield n 164 1 == 1)
    (BitVec.ofNat 64 (bfield n 192 64))

/-- The issue of a copy by unit `u` once its block is read (R372); of cpyd the unit tests the guard slot as part of its answer (R354). -/
def copyIssue (req : Bool) (d : Reg) (f : EForm) (k : Ctx) (s : State) (u n va : Nat) : Res :=
  match firstBad (copyChecks n req) with
  | some i => .trap (trapCommand i va)
  | none =>
    match locate s k.who .load (bfield n 0 56) 0 with
    | .error e => stopRes s k e
    | .ok loc =>
      if unitOwns s u loc = false then .trap (trapCommand 0 va)
      else if copyDstBad (bfield n 64 56) then .trap (trapCommand 8 va)
      else atDie s k (dieOfCluster u) <|
        if req = true ∧ guardFree s k.who.tenant u f = true then .trap (trapGuard f.slot.toNat)
        else if pushAllowed s k.who.tenant u (bfield n 64 56) = false then
          .trap (mkTrap 33 ((windowCluster (bfield n 64 56)).getD 0 * 8) (bfield n 64 56))
        else capture s k k.t ⟨copyOf u, f, u, d, none, postOf n 165, copyOpOf n, true⟩

/-- cpy (R372). -/
def execCpy (g : BitVec 4) (d a : Reg) (x : BitVec 1) (ss : BitVec 4) (aq r : BitVec 1) (c : BitVec 2) (s : State) :
    Host.Outcome State Fault Refusal :=
  issueWord (hdr g [d, a]) (fun k s =>
    let u := clusterOf k.core
    let f := mkForm x ss aq r c
    match checkTags k.t.line [(a, [0])] with
    | some e => .trap e
    | none => withGuard s k u f <| withBlock s k a fun n =>
      copyIssue false d f k s u n (getG k.t.line a).toNat) s

/-- cpyd: the block first, then the guard slot of the cluster it names (R354, R372). -/
def execCpyd (g : BitVec 4) (d a : Reg) (x : BitVec 1) (ss : BitVec 4) (aq r : BitVec 1) (c : BitVec 2) (s : State) :
    Host.Outcome State Fault Refusal :=
  issueWord (hdr g [d, a]) (fun k s =>
    let f := mkForm x ss aq r c
    match checkTags k.t.line [(a, [0])] with
    | some e => .trap e
    | none => withBlock s k a fun n =>
      copyIssue true d f k s (clusterOf (bfield n 256 11)) n (getG k.t.line a).toNat) s

/-- A channel name that breaks R374. -/
def channelBad (w : Word) : Bool := decide (2 ^ 14 ≤ w.toNat) || nbits w.toNat 3 3 != 0

/-- The guard test at a named cluster, before the rest of the name is checked (R354): of a name out of range it is the cluster that the
name's coordinate field gives. -/
def atGuard (s : State) (k : Ctx) (u : Nat) (f : EForm) (r : Res) : Res :=
  if f.x = 1 then atDie s k (dieOfCluster u) <| withGuard s k u f r else r

/-- A command on a named channel. -/
def channelIssue (mk : Nat → CmdOp) (d a : Reg) (res : Option Reg) (f : EForm) (k : Ctx) (s : State) : Res :=
  let w := getG k.t.line a
  let u := clusterOf (nbits w.toNat 3 11)
  match checkTags k.t.line [(a, [0])] with
  | some e => .trap e
  | none =>
    atGuard s k u f <|
      if channelBad w then .trap (trapRange a)
      else atDie s k (dieOfCluster u) <|
        capture s k k.t ⟨copyOf u, f, u, d, res.map fun r => (r, 0), none, mk (nbits w.toNat 0 3), false⟩

/-- cwm (R374): the copy unit performs it ahead of queued copies. -/
def execCwm (g : BitVec 4) (d a b : Reg) (x : BitVec 1) (ss : BitVec 4) (aq r : BitVec 1) (c : BitVec 2) (s : State) :
    Host.Outcome State Fault Refusal :=
  issueWord (hdr g [d, a, b]) (channelIssue .cwm d a (some b) (mkForm x ss aq r c)) s

/-- chan (R375). -/
def execChan (g : BitVec 4) (d a : Reg) (x : BitVec 1) (ss : BitVec 4) (aq r : BitVec 1) (c : BitVec 2) (s : State) :
    Host.Outcome State Fault Refusal :=
  issueWord (hdr g [d, a]) (channelIssue .chan d a none (mkForm x ss aq r c)) s

/-! ### The heliostat (R344, R376 to R378) -/

/-- A scale entry name that breaks R376. -/
def scaleNameBad (w : Word) : Bool := decide (2 ^ 35 ≤ w.toNat) || nbits w.toNat 14 3 != 0

/-- The shared issue of scmc and sld. -/
def scaleIssue (mk : Nat → CmdOp) (write : Bool) (d a : Reg) (vals : List (Reg × List Byte)) (res : Option Reg) (f : EForm)
    (k : Ctx) (s : State) : Res :=
  let w := getG k.t.line a
  let u := clusterOf (nbits w.toNat 14 11)
  let j := nbits w.toNat 0 14
  match checkTags k.t.line ((a, [0]) :: vals) with
  | some e => .trap e
  | none =>
    atGuard s k u f <|
      if scaleNameBad w then .trap (trapRange a)
      else atDie s k (dieOfCluster u) <|
        if owns s k.who.tenant (localGranule (helioCore s u) (65536 + 4 * j)) then
          capture s k k.t ⟨scaleOf u, f, u, d, res.map fun r => (r, 5), none, mk j, true⟩
        else .trap (trapPermission write false true (scaleKey s u j))

/-- scmc (R377): with REL = 1 the write is a release (R221, R344). -/
def execScmc (g : BitVec 4) (d a b : Reg) (x : BitVec 1) (ss : BitVec 4) (aq r : BitVec 1) (c : BitVec 2) (s : State) :
    Host.Outcome State Fault Refusal :=
  issueWord (hdrRel g [d, a, b] (r == 1)) (fun k s =>
    scaleIssue (fun j => .scmc j ((getG k.t.line b).setWidth 32)) true d a [(b, [5, 0])] none (mkForm x ss aq r c) k s) s

/-- sld (R378). -/
def execSld (g : BitVec 4) (d a b : Reg) (x : BitVec 1) (ss : BitVec 4) (aq r : BitVec 1) (c : BitVec 2) (s : State) :
    Host.Outcome State Fault Refusal :=
  issueWord (hdr g [d, a, b]) (scaleIssue .sld false d a [] (some b) (mkForm x ss aq r c)) s

/-! ### Page swap instructions (R390, R391) -/

/-- The die whose page swap engine serves a page (R390): of its frame, or of its flash port. The frame of a remote page is on another
member; its command, which finds a page that is not swappable (R446), goes to the issuing core's die (log entry 20). -/
def swapDie (s : State) (cl : Nat) (w : Word) : Option Nat :=
  if leafRemote w then some (dieOfCluster cl)
  else if leafSwd w then some (nbits (leafAddr w) 37 3) else homeDie s (leafAddr w * 65536)

/-- A swap instruction: the checks of R206 orders 1 to 3 as a load, then the engine (R390). -/
def swapIssue (mk : Nat → CmdOp) (d a : Reg) (res : Option Reg) (f : EForm) (k : Ctx) (s : State) : Res :=
  let va := (getG k.t.line a).toNat
  let cl := clusterOf k.core
  match checkTags k.t.line [(a, [0])] with
  | some e => .trap e
  | none => withGuard s k cl f <|
    if 2 ^ 56 ≤ va then .trap (trapPageFault false va)
    else if regionOf va = .reserved then .trap (trapPageFault false va)
    else if isWindow va then .trap (trapCommand 63 0)
    else
      let leaf := findLeaf s k.who va
      match checkLeaf s k.who .load va leaf, leaf with
      | .error (.trap e), _ => .trap e
      | .error .hold, _ => .retry s k.t.req k.t.replies
      | _, none => .trap (trapPageFault false va)
      | _, some (_, w) =>
        match swapDie s cl w with
          | none => .trap (trapPageFault false va)
          | some v => atDie s k v <|
            thenState (capture s k k.t ⟨swapOf v, f, cl, d, res.map fun r => (r, 0), none, mk va, false⟩) fun s =>
              if f.x = 1 then settleSwap s (swapOf v) else s

/-- swpin (R390). -/
def execSwpin (g : BitVec 4) (d a : Reg) (x : BitVec 1) (ss : BitVec 4) (aq r : BitVec 1) (c : BitVec 2) (s : State) :
    Host.Outcome State Fault Refusal :=
  issueWord (hdr g [d, a]) (swapIssue .swpin d a none (mkForm x ss aq r c)) s

/-- swpout (R390). -/
def execSwpout (g : BitVec 4) (d a : Reg) (x : BitVec 1) (ss : BitVec 4) (aq r : BitVec 1) (c : BitVec 2) (s : State) :
    Host.Outcome State Fault Refusal :=
  issueWord (hdr g [d, a]) (swapIssue .swpout d a none (mkForm x ss aq r c)) s

/-- swpq (R391). -/
def execSwpq (g : BitVec 4) (d a b : Reg) (x : BitVec 1) (ss : BitVec 4) (aq r : BitVec 1) (c : BitVec 2) (s : State) :
    Host.Outcome State Fault Refusal :=
  issueWord (hdr g [d, a, b]) (swapIssue .swpq d a (some b) (mkForm x ss aq r c)) s

/-! ### Guard slots (R380 to R383) -/

/-- A guard name (R380). -/
def guardName (cl i : Nat) (gen : BitVec 8) : Word := BitVec.ofNat 64 (i + cl * 8 * 16 + gen.toNat * 2 ^ 15 + 2 ^ 23)

/-- gslot (R381). -/
def execGslot (g : BitVec 4) (d a : Reg) (s : State) : Host.Outcome State Fault Refusal :=
  issueWord (hdr g [d, a]) (fun c s =>
    match checkTags c.t.line [(a, [0])] with
    | some e => .trap e
    | none =>
      let i := (getG c.t.line a).toNat
      let cl := clusterOf c.core
      if 16 ≤ i then .trap (trapRange a)
      else atDie s c (dieOfCluster cl) <|
        let e := getGuard s cl i
        if e.state = 0 then
          .ok (setGuard s cl i ⟨1, c.who.tenant, c.who.job, e.gen⟩)
            { c.t with line := setG c.t.line d (guardName cl i e.gen) 0 }
        else .ok s { c.t with line := setG c.t.line d 0 0 }) s

/-- The slot that register `a` names, checked (R380). That bits [6:4], the core within its cluster, must be 0 is the model's choice (log
entry 103). -/
def withName (s : State) (c : Ctx) (a : Reg) (more : Option Trap) (k : Nat → Nat → GuardSlot → Res) : Res :=
  let w := (getG c.t.line a).toNat
  let cl := clusterOf (nbits w 4 11)
  if 2 ^ 24 ≤ w ∨ nbits w 23 1 = 0 ∨ nbits w 4 3 ≠ 0 then .trap (trapRange a)
  else match more with
    | some e => .trap e
    | none => atDie s c (dieOfCluster cl) <|
      let e := getGuard s cl (nbits w 0 4)
      if e.state = 0 ∨ e.gen.toNat ≠ nbits w 15 8 ∨ e.tenant ≠ c.who.tenant then .trap (trapGuard w)
      else k cl (nbits w 0 4) e

/-- gset (R382). -/
def execGset (g : BitVec 4) (d a b : Reg) (s : State) : Host.Outcome State Fault Refusal :=
  issueWord (hdr g [d, a, b]) (fun c s =>
    match checkTags c.t.line [(a, [0]), (b, [0])] with
    | some e => .trap e
    | none =>
      let v := (getG c.t.line b).toNat
      withName s c a (if 2 ≤ v then some (trapRange b) else none) fun cl i e =>
        if e.state = 1 then
          .ok (resolveGuard (setGuard s cl i { e with state := if v = 1 then 2 else 3 }) cl i)
            { c.t with line := setG c.t.line d 1 0 }
        else .ok s { c.t with line := setG c.t.line d 0 0 }) s

/-- gfree (R383). -/
def execGfree (g : BitVec 4) (a : Reg) (s : State) : Host.Outcome State Fault Refusal :=
  issueWord (hdr g [a]) (fun c s =>
    match checkTags c.t.line [(a, [0])] with
    | some e => .trap e
    | none => withName s c a none fun cl i _ => .ok (freeGuard s cl i) c.t) s

/-! ### Jobs (R385 to R388) -/

/-- The job that register `a` names, checked; a die being remapped holds the read. -/
def withJob (s : State) (c : Ctx) (a : Reg) (k : Option JobEntry → Res) : Res :=
  match checkTags c.t.line [(a, [jobTag, 0])] with
  | some e => .trap e
  | none =>
    let w := getG c.t.line a
    if jobBad w c.who.tenant then .trap (trapRange a)
    else if dieHeld s (engDie (jobEngine w)) then .retry s c.t.req c.t.replies
    else k (jobEntryOf s w)

/-- jwait (R386). -/
def execJwait (g : BitVec 4) (a : Reg) (s : State) : Host.Outcome State Fault Refusal :=
  issueWord (hdr g [a]) (fun c s => withJob s c a fun j =>
    if isFinal j then .ok s c.t else .wait s (waitTag 8 (nbits (getG c.t.line a).toNat 0 60))) s

/-- jtest (R387). -/
def execJtest (g : BitVec 4) (d a : Reg) (s : State) : Host.Outcome State Fault Refusal :=
  issueWord (hdr g [a]) (fun c s => withJob s c a fun j =>
    .ok s { c.t with line := setQ c.t.line d (if isFinal j then 0xFF else 0) }) s

/-- jstat (R388). -/
def execJstat (g : BitVec 4) (d a : Reg) (s : State) : Host.Outcome State Fault Refusal :=
  issueWord (hdr g [d, a]) (fun c s => withJob s c a fun j =>
    .ok s { c.t with line := setG c.t.line d (statusOf j) 0 }) s

/-! ### Capabilities (R392, R393) -/

/-- capmint (R392). -/
def execCapmint (g : BitVec 4) (d a : Reg) (s : State) : Host.Outcome State Fault Refusal :=
  issueWord (hdr g [d, a]) (fun c s =>
    match checkTags c.t.line [(a, [0])] with
    | some e => .trap e
    | none =>
      let w := (getG c.t.line a).toNat
      if nbits w 0 8 ≠ 0 ∨ nbits w 51 13 ≠ 0 then .trap (trapRange a)
      else
        let v := BitVec.ofNat 64 (w + c.who.tenant + capGenOf s c.who.tenant * 2 ^ 52)
        .ok s { c.t with line := setG c.t.line d v capTag }) s

/-- caprev (R393): every port holds the new generation in this one step (log entry 21). -/
def execCaprev (g : BitVec 4) (s : State) : Host.Outcome State Fault Refusal :=
  issueWord (hdrPriv g [] 1 (.caprev g)) (fun c s =>
    .ok (modTenant s c.who.tenant fun x => { x with capGen := x.capGen + 1 }) c.t) s

/-! ### fin (R389) -/

/-- The row of a line is released in its command. -/
def releaseRow (row a : Nat) (c : Cmd) : Cmd :=
  { c with stg := c.stg.map fun r => if r.srow = row ∧ r.line = a then { r with state := 2 } else r }

/-- fin: the staging row is released to the Last. -/
def execFin (g : BitVec 4) (s : State) : Host.Outcome State Fault Refusal :=
  issueWord (hdr g []) (fun c s =>
    match c.t.line.fin, c.t.staging with
    | true, some (cl, row) =>
      if dieHeld s (dieOfCluster cl) then .retry s c.t.req c.t.replies
      else if drained s c.t = false then .drain s .all
      else
        let e := getEngine s (lastOf cl)
        let f := releaseRow row c.t.addr
        .ok (setEngine s (lastOf cl) (mapEngine f e)) { c.t with staging := none }
    | _, _ => .trap (mkTrap 34 0 0)) s

end Sys2Proof.Machine
end

