-- ==== Sys2Proof/Machine/Queue.lean ====
section
/-! DEFINITION. Machine/Queue.lean: virtual queues: table entries (R150), pushes (R151, R177), deq and qlen (R178), qmake
(R175), qfree (R176), and residency. -/

namespace Sys2Proof.Machine

/-- A queue table entry (R150). -/
structure QEntry where
  gen     : BitVec 12
  state   : BitVec 2
  owner   : BitVec 11
  log2cap : BitVec 5
  mbv     : Bool
  mbx     : BitVec 6
  mbcore  : BitVec 11
  image   : BitVec 56
  head    : BitVec 32
  tail    : BitVec 32
  deriving DecidableEq, Repr

/-- The entry a table key holds. -/
def readEntry (m : Memory) (k : Nat) : QEntry :=
  let w := (memWord m k).toNat
  let v := (memWord m (k + 16)).toNat
  { gen := BitVec.ofNat 12 w
    state := BitVec.ofNat 2 (w / 2 ^ 12)
    owner := BitVec.ofNat 11 (w / 2 ^ 14)
    log2cap := BitVec.ofNat 5 (w / 2 ^ 25)
    mbv := nbits w 30 1 == 1
    mbx := BitVec.ofNat 6 (w / 2 ^ 32)
    mbcore := BitVec.ofNat 11 (w / 2 ^ 38)
    image := (memWord m (k + 8)).setWidth 56
    head := BitVec.ofNat 32 v
    tail := BitVec.ofNat 32 (v / 2 ^ 32) }

/-- The first, second and third word of an entry. -/
def entryWords (e : QEntry) : List Nat :=
  [e.gen.toNat + e.state.toNat * 2 ^ 12 + e.owner.toNat * 2 ^ 14 + e.log2cap.toNat * 2 ^ 25 + b2n e.mbv * 2 ^ 30
      + e.mbx.toNat * 2 ^ 32 + e.mbcore.toNat * 2 ^ 38,
    e.image.toNat, e.head.toNat + e.tail.toNat * 2 ^ 32]

/-- Write an entry; the table is ordinary memory that the device keeps current (R150). -/
def writeEntry (s : State) (k : Nat) (e : QEntry) : State :=
  let ws := entryWords e
  let s := writeLoc s (.cell k) 8 (ws.getD 0 0)
  let s := writeLoc s (.cell (k + 8)) 8 (ws.getD 1 0)
  writeLoc s (.cell (k + 16)) 8 (ws.getD 2 0)

/-- A location of the tenant's own DRAM: a remote page or a window counts as unmapped (R150, R447). -/
def tableLoc (s : State) (who : Who) (va : Nat) : Except Stop Nat :=
  match locate s who .store va 0 with
  | .error e => .error e
  | .ok (.cell k) => if k < windowBase then .ok k else .error (.trap (trapPageFault true va))
  | .ok _ => .error (.trap (trapPageFault true va))

/-- The queue number and generation of a name. -/
def queueNum (name : Nat) : Nat := nbits name 0 20

/-- The generation of a name. -/
def queueGen (name : Nat) : Nat := nbits name 20 12

/-- The address of a table entry. -/
def entryVa (s : State) (t q : Nat) : Nat := (getTenant s t).qtabBase.toNat + 32 * q

/-- The key of a table entry, checked as a store with CTX = 0 (R150). -/
def entryLoc (s : State) (t job : Nat) (via : Via) (q : Nat) : Except Stop Nat :=
  tableLoc s ⟨t, job, 0, via⟩ (entryVa s t q)

/-- The name names this live entry; a number outside the table names a free one. -/
def namesLive (s : State) (t name : Nat) (e : QEntry) : Bool :=
  decide (queueNum name < (getTenant s t).qtabLen) && e.state != 0 && e.gen.toNat == queueGen name

/-- Queue `q` of tenant `t` in a queue buffer. -/
def isQueue (t q : Nat) (r : ResQueue) : Bool := r.tenant == t && r.qnum == q

/-- The elements of a resident queue. -/
def residentQueue (s : State) (t q owner : Nat) : Option ResQueue := (getCore s owner).queues.find? (isQueue t q)

/-- Replace a resident queue. -/
def setResident (s : State) (owner : Nat) (r : ResQueue) : State :=
  let k := getCore s owner
  setCore s owner { k with queues := k.queues.map fun x => if isQueue r.tenant r.qnum x then r else x }

/-- HEAD and TAIL now: in the buffer when resident. -/
def queueEnds (s : State) (t q : Nat) (e : QEntry) : BitVec 32 × BitVec 32 :=
  if e.state = 2 then
    match residentQueue s t q e.owner.toNat with
    | some r => (r.head, r.head + BitVec.ofNat 32 r.elems.length)
    | none => (e.head, e.tail)
  else (e.head, e.tail)

/-- The address of element `i` in the image. -/
def elemVa (e : QEntry) (i : BitVec 32) : Nat := e.image.toNat + 8 * (i.toNat % 2 ^ e.log2cap.toNat)

/-- The elements a queue buffer holds. -/
def bufferLoad (k : Core) : Nat := (k.queues.map fun r => r.elems.length).sum

/-- What becomes of a push (R151); `unreadable` when the table entry at this address is poisoned (R404). -/
inductive Push where
  | done (s : State)
  | dropped
  | held (s : State)
  | unreadable (va : Nat)

/-- The post of a bound counter follows the append (R150, R177). -/
def boundPost (s : State) (t : Nat) (e : QEntry) : State :=
  if e.mbv then postOrBounce s t (e.mbcore.toNat * 64 + e.mbx.toNat) 1 else s

/-- A push at its queue by an agent of tenant `t`; a moving queue's agent holds it till the move ends (R151). A page of the image that
fails R206 orders 1 to 3 drops the push as one of the entry does, which the spec says of the entry's page only (log entry 96). -/
def pushQueue (s : State) (t job name : Nat) (v : Word) : Push :=
  let q := queueNum name
  match entryLoc s t job .walk q with
  | .error (.page va) => .held (startSwapIn s t va)
  | .error .hold => .held s
  | .error (.trap _) => .dropped
  | .ok k =>
    let e := readEntry s.memory k
    let ends := queueEnds s t q e
    if poisoned s.memory k 32 then .unreadable (entryVa s t q)
    else if namesLive s t name e = false then .dropped
    else if e.state = 3 then .held s
    else if (ends.2 - ends.1).toNat = 2 ^ e.log2cap.toNat then .dropped
    else if e.state = 2 then
      match residentQueue s t q e.owner.toNat with
      | none => .dropped
      | some r =>
        if 2048 ≤ bufferLoad (getCore s e.owner.toNat) ∨ dieHeld s (dieOf e.owner.toNat) then .held s
        else .done (boundPost (setResident s e.owner.toNat { r with elems := r.elems ++ [v] }) t e)
    else match tableLoc s ⟨t, job, 0, .walk⟩ (elemVa e e.tail) with
      | .error (.page va) => .held (startSwapIn s t va)
      | .error .hold => .held s
      | .error (.trap _) => .dropped
      | .ok i =>
        .done (boundPost (writeEntry (writeLoc s (.cell i) 8 v.toNat) k { e with tail := e.tail + 1 }) t e)

/-- The register checks of the queue instructions: tags, and the name's range. -/
def queueTrap (l : Line) (a : Reg) : Option Trap :=
  match checkTags l [(a, [0])] with
  | some e => some e
  | none => if 2 ^ 32 ≤ (getG l a).toNat then some (trapRange a) else none

/-- An earlier posted push of the line to this queue is still on its way (R151). -/
def pushAhead (s : State) (t a name id : Nat) : Bool :=
  s.net.any fun p => p.tenant == t && p.line == a && decide (p.id < id) && (match p.body with
    | .push n _ => n == name
    | _ => false)

/-- Where a push packet goes: the slice of its table entry on this member, whose address is the packet's TARGET (R499). -/
def pushLoc : Loc := .cell 0

/-- enq: posted, or with ACK answered (R177). -/
def execEnq (g : BitVec 4) (a b : Reg) (c : BitVec 2) (s : State) : Host.Outcome State Fault Refusal :=
  issueWord (hdrRel g [a, b] (c != 0)) (fun c s =>
    match queueTrap c.t.line a with
    | some e => .trap e
    | none =>
      let name := (getG c.t.line a).toNat
      let v := getG c.t.line b
      if ackOf c then
        match entryLoc s c.who.tenant c.who.job (.core c.core) (queueNum name) with
        | .error e => stopRes s c e
        | .ok _ =>
          if pushAhead s c.t.tenant c.t.addr name s.nextId then .retry s c.t.req c.t.replies
          else match pushQueue s c.who.tenant c.who.job name v with
            | .done s' => .ok s' c.t
            | .dropped => .trapIn (bounce s c.who.tenant) (mkTrap 19 2 0)
            | .held s' => .retry s' c.t.req c.t.replies
            | .unreadable va => .ok s (noteError c.t true none va)
      else .ok (sendPkt s (mkPkt s c (.push name v) false (entryVa s c.who.tenant (queueNum name)) pushLoc)) (postedLine c.t)) s

/-- The first swapped page among the `n` pages of an image from `b` on. -/
def imageSwapped (s : State) (who : Who) (b : Nat) : Nat → Option Nat
  | 0 => none
  | n + 1 =>
    match tableLoc s who b with
    | .error (.page va) => some va
    | _ => imageSwapped s who (b + 65536) n

/-- The 64 KiB pages of an image of capacity 2^`cap`. -/
def imagePages (cap : Nat) : Nat := (8 * 2 ^ cap + 65535) / 65536

/-- The checks of an instruction that acts on a named queue at once (R178); a poisoned entry is a deferred MemoryError for the line
`lost`, which is the line as such a read leaves it (R404). -/
def withQueue (s : State) (c : Ctx) (a : Reg) (lost : State × LiveLine) (r : Option Reg) (k : Nat → QEntry → Res) : Res :=
  match queueTrap c.t.line a with
  | some e => .trap e
  | none =>
    let name := (getG c.t.line a).toNat
    match entryLoc s c.who.tenant c.who.job (.core c.core) (queueNum name) with
    | .error e => stopRes s c e
    | .ok key =>
      let e := readEntry s.memory key
      if poisoned s.memory key 32 then .ok lost.1 (noteError lost.2 true r (entryVa s c.who.tenant (queueNum name)))
      else if namesLive s c.who.tenant name e = false then .trap (mkTrap 20 name 0)
      else if e.state = 2 ∧ dieHeld s (dieOf e.owner.toNat) = true then .retry s c.t.req c.t.replies
      else k key e

/-- What deq and qlen share: a swapped page of the queue's image makes them wait for it (R178), and a queue that is moving keeps them
in their slot till the move ends (R151). -/
def withQueueEnd (s : State) (c : Ctx) (a : Reg) (lost : State × LiveLine) (r : Reg) (k : Nat → QEntry → Res) : Res :=
  withQueue s c a lost (some r) fun key e =>
    match imageSwapped s c.who e.image.toNat (imagePages e.log2cap.toNat) with
    | some va => stopRes s c (.page va)
    | none => if e.state = 3 then .retry s c.t.req c.t.replies else k key e

/-- gD and the predicate field a deq writes. -/
def deqResult (c : Ctx) (d q : Reg) (v : Word) (some_ : Bool) : LiveLine :=
  { c.t with line := setQ (setG c.t.line d v 0) q (if some_ then 0xFF else 0) }

/-- What a deq of an entry that cannot be read leaves: gD is 0 (R404), and whether qD is set the spec does not state (log entry 5). -/
def deqUnread (s : State) (c : Ctx) (d q : Reg) : State × LiveLine :=
  ((freeValue s).2, deqResult c d q 0 ((freeValue s).1.getLsbD 0))

/-- deq removes the head element, or reports empty (R178). In state 1 the page of HEAD's element must pass R206 even when the queue is
empty, which the spec does not say (log entry 97). -/
def execDeq (g : BitVec 4) (d a aq : Reg) (_c : BitVec 2) (s : State) : Host.Outcome State Fault Refusal :=
  issueWord (hdr g [d, a]) (fun c s =>
    withQueueEnd s c a (deqUnread s c d aq) d fun key e =>
      let t := c.who.tenant
      let q := queueNum (getG c.t.line a).toNat
      let ends := queueEnds s t q e
      if e.state = 2 then
        match residentQueue s t q e.owner.toNat with
        | some r => match r.elems with
          | v :: rest =>
            .ok (setResident s e.owner.toNat { r with elems := rest, head := r.head + 1 }) (deqResult c d aq v true)
          | [] => .ok s (deqResult c d aq 0 false)
        | none => .ok s (deqResult c d aq 0 false)
      else match tableLoc s c.who (elemVa e e.head) with
        | .error x => stopRes s c x
        | .ok i =>
          if ends.2 = ends.1 then .ok s (deqResult c d aq 0 false)
          else
            let bad := poisoned s.memory i 8
            .ok (writeEntry s key { e with head := e.head + 1 })
              (noteError (deqResult c d aq (if bad then 0 else memWord s.memory i) true) bad (some d) (elemVa e e.head))) s

/-- qlen reads TAIL − HEAD (R178); in state 1 it tests the page of HEAD's element as deq does (log entry 97). -/
def execQlen (g : BitVec 4) (d a : Reg) (s : State) : Host.Outcome State Fault Refusal :=
  issueWord (hdr g [d, a]) (fun c s =>
    withQueueEnd s c a (s, { c.t with line := setG c.t.line d 0 0 }) d fun _ e =>
      let ends := queueEnds s c.who.tenant (queueNum (getG c.t.line a).toNat) e
      let t := { c.t with line := setG c.t.line d ((ends.2 - ends.1).setWidth 64) 0 }
      if e.state = 2 then .ok s t
      else match tableLoc s c.who (elemVa e e.head) with
        | .error x => stopRes s c x
        | .ok _ => .ok s t) s

/-- The first stop on the pages of an image of `n` bytes at `b` (R175). -/
def imageStop (s : State) (who : Who) (b : Nat) : Nat → Option Stop
  | 0 => none
  | n + 1 =>
    match tableLoc s who b with
    | .error e => some e
    | .ok _ => imageStop s who (b + 65536) n

/-- qmake (R175); the TDATA of its alignment trap is log entry 81. -/
def execQmake (g : BitVec 4) (d a b : Reg) (s : State) : Host.Outcome State Fault Refusal :=
  issueWord (hdr g [d, a, b]) (fun c s =>
    match checkTags c.t.line [(a, [0]), (b, [0])] with
    | some e => .trap e
    | none =>
      let x := (getG c.t.line a).toNat
      let base := (getG c.t.line b).toNat
      let q := nbits x 0 20
      let cap := nbits x 20 5
      if 2 ^ 43 ≤ x ∨ (getTenant s c.who.tenant).qtabLen ≤ q ∨ cap < 4 ∨ 20 < cap then .trap (trapRange a)
      else match addrTrap (8 * 2 ^ cap) base true with
        | some e => .trap e
        | none =>
          match imageStop s c.who base (imagePages cap) with
          | some e => stopRes s c e
          | none => match entryLoc s c.who.tenant c.who.job (.core c.core) q with
            | .error e => stopRes s c e
            | .ok key =>
              let e := readEntry s.memory key
              if poisoned s.memory key 32 then
                .ok s (noteError { c.t with line := setG c.t.line d 0 0 } true (some d) (entryVa s c.who.tenant q))
              else if e.state ≠ 0 then .trap (mkTrap 21 q 0)
              else
                .ok (writeEntry s key
                    { e with
                      state := 1, log2cap := BitVec.ofNat 5 cap, mbv := nbits x 25 1 == 1,
                      mbx := BitVec.ofNat 6 (x / 2 ^ 26), mbcore := BitVec.ofNat 11 (x / 2 ^ 32),
                      image := BitVec.ofNat 56 base, head := 0, tail := 0 })
                  { c.t with line := setG c.t.line d (BitVec.ofNat 64 (q + e.gen.toNat * 2 ^ 20)) 0 }) s

/-- A queue's entry becomes free and its elements are gone (R176). -/
def freeQueue (s : State) (t q key : Nat) (e : QEntry) : State :=
  let s := writeEntry s key { e with state := 0, gen := e.gen + 1 }
  let k := getCore s e.owner.toNat
  setCore s e.owner.toNat { k with queues := k.queues.filter fun r => !(isQueue t q r) }

/-- qfree (R176). -/
def execQfree (g : BitVec 4) (a : Reg) (s : State) : Host.Outcome State Fault Refusal :=
  issueWord (hdr g [a]) (fun c s =>
    withQueue s c a (s, c.t) none fun key e => .ok (freeQueue s c.who.tenant (queueNum (getG c.t.line a).toNat) key e) c.t) s

/-- A push packet, routed by the present die map (R439), reaches its queue (R151); one whose entry is poisoned is not performed, and its
line takes a deferred MemoryError (R404). -/
def execQueuePush (id : Nat) (s : State) : Host.Outcome State Fault Refusal :=
  match findPkt s id with
  | none => .next s
  | some p =>
    match p.body with
    | .push name v =>
      if p.dst = vmodOf s p.tenant p.job ∧ served s p = true ∧ p.dmgen = s.dmgen ∧ pushAhead s p.tenant p.line name p.id = false then
        match pushQueue s p.tenant p.job name v with
        | .done s' => .next (acknowledge (dropPkt s' id) p)
        | .held s' => .next s'
        | .dropped => .next (sendAnswer (dropPkt s id) p .nack)
        | .unreadable va => .next (deferError (acknowledge (dropPkt s id) p) p.tenant p.line p.job ⟨none, va, none⟩)
      else .next s
    | _ => .next s

/-- A nack of a dropped push returns to its sender (R151). -/
def execQueuePushNack (id : Nat) (s : State) : Host.Outcome State Fault Refusal :=
  match findPkt s id with
  | none => .next s
  | some p =>
    match p.body with
    | .nack =>
      let s' := bounce (dropPkt s id) p.tenant
      if p.dst ≠ vmodOf s p.tenant p.job ∨ served s p = false then .next s
      else .next (if p.ans then deliverAnswer s' p.tenant p.line p.name 0 else storeDone s' p.tenant p.line)
    | _ => .next s

/-- The elements of a queue's image, HEAD first: `n` of them from index `i`; none when one cannot be read, since a queue buffer holds
no poison (R404). -/
def imageElems (s : State) (who : Who) (e : QEntry) : Nat → BitVec 32 → Option (List Word)
  | 0, _ => some []
  | n + 1, i =>
    match tableLoc s who (elemVa e i) with
    | .ok k => if poisoned s.memory k 8 then none else (imageElems s who e n (i + 1)).map fun l => memWord s.memory k :: l
    | .error _ => none

/-- Write elements to a queue's image from index `i` on. -/
def imageWrite (who : Who) (e : QEntry) : List Word → BitVec 32 → State → Option State
  | [], _, s => some s
  | v :: l, i, s =>
    match tableLoc s who (elemVa e i) with
    | .ok k => imageWrite who e l (i + 1) (writeLoc s (.cell k) 8 v.toNat)
    | .error _ => none

/-- A core's queue buffer has room for a queue of `n` elements, on a die that is in use (R151). -/
def bufferRoom (s : State) (core n : Nat) : Bool :=
  let k := getCore s core
  decide (k.queues.length < 16) && decide (bufferLoad k + n ≤ 2048) && decide ((getDie s (dieOf core)).state < 2)

/-- The core's queue buffer without a queue. -/
def dropResident (s : State) (t q core : Nat) : State :=
  let k := getCore s core
  setCore s core { k with queues := k.queues.filter fun x => !(isQueue t q x) }

/-- A move out of the buffer of the owner ends: the elements stand in the image (R151). A swapped image page is brought in first. -/
def endMoveOut (s : State) (who : Who) (q key : Nat) (e : QEntry) (r : ResQueue) : State :=
  match imageSwapped s who e.image.toNat (imagePages e.log2cap.toNat) with
  | some va => startSwapIn s who.tenant va
  | none => match imageWrite who e r.elems r.head s with
    | none => s
    | some s => writeEntry (dropResident s who.tenant q e.owner.toNat) key
        { e with state := 1, head := r.head, tail := r.head + BitVec.ofNat 32 r.elems.length }

/-- A move into the buffer of the owner ends: the queue is resident there, or, without room, stays in its image (R151). -/
def endMoveIn (s : State) (who : Who) (q key : Nat) (e : QEntry) : State :=
  let core := e.owner.toNat
  match imageSwapped s who e.image.toNat (imagePages e.log2cap.toNat) with
  | some va => startSwapIn s who.tenant va
  | none =>
    let k := getCore s core
    match imageElems s who e (e.tail - e.head).toNat e.head, bufferRoom s core (e.tail - e.head).toNat with
    | some l, true =>
      writeEntry (setCore s core { k with queues := k.queues ++ [⟨who.tenant, q, l, e.head⟩] }) key { e with state := 2 }
    | _, _ => writeEntry s key { e with state := 1 }

/-- QUEUE_RESIDENCY_CHANGE: a move of a queue into a core's queue buffer or back to its image begins, STATE 3, or ends (R150, R151). -/
def execQueueResidencyChange (tn qnum core : Nat) (s : State) : Host.Outcome State Fault Refusal :=
  let who : Who := ⟨tn, 0, 0, .walk⟩
  if (getTenant s tn).qtabLen ≤ qnum ∨ 2048 ≤ core then .next s
  else match entryLoc s tn 0 .walk qnum with
  | .error _ => .next s
  | .ok key =>
    let e := readEntry s.memory key
    match e.state.toNat with
    | 1 => if bufferRoom s core (e.tail - e.head).toNat then
        .next (writeEntry s key { e with state := 3, owner := BitVec.ofNat 11 core }) else .next s
    | 2 => .next (writeEntry s key { e with state := 3 })
    | 3 => match residentQueue s tn qnum e.owner.toNat with
      | some r => .next (endMoveOut s who qnum key e r)
      | none => .next (endMoveIn s who qnum key e)
    | _ => .next s

end Sys2Proof.Machine
end

