-- ==== Sys2Proof/Machine/EngineRun.lean ====
section
/-! DEFINITION. Machine/EngineRun.lean: commands at work: their start, faults and completion (R313, R315, R316), the Last's rows
and staging (R324 to R330), tread operations (R368), and copy segments (R338 to R342). -/

namespace Sys2Proof.Machine

/-- Engines of a die work while it is online (R438, R440), and a command of a job that a gang switch stops does not; a page
under way at a swap engine comes to its end first (R460). -/
def mayWork (s : State) (eng : Nat) (c : Cmd) : Bool :=
  if cutOpen s then false
  else if 1024 ≤ eng then decide ((getDie s (engDie eng)).state < 2)
  else (getDie s (engDie eng)).state == 0 && !(jobFrozen s c.tenant c.job)

/-! ### The bytes of tiles -/

/-- The vault offsets of the words of a tile's ranges. -/
def tileWords (e : TdtEntry) : List Nat :=
  e.ranges.flatMap fun r => (List.range (r.2 / 8)).map fun i => r.1 + 8 * i

/-- Some byte of a tile is poisoned (R404). -/
def tilePoisoned (s : State) (t : Tile) : Option Nat :=
  if s.memory.poison.isEmpty then none
  else ((tileWords t.desc).map (tileKey t.cl t.desc)).find? fun k => poisoned s.memory k 8

/-- The failure of a command's access to a tile: a granule not owned, poison where it reads, a scale entry not owned (R315,
R345, R404). -/
def tileFault (s : State) (tenant : Nat) (t : Tile) (write : Bool) : Option Trap :=
  match tileNotOwned s tenant t.cl t.desc with
  | some o => some (trapPermission write false true (vaultKey t.cl o))
  | none => match scaleNotOwned s t tenant with
    | some j => some (trapPermission false false true (scaleKey s t.cl j))
    | none => if write then none else (tilePoisoned s t).map fun k => mkTrap 24 0 k

/-- The tiles of a command that it reads, and those it writes. -/
def cmdTiles : CmdOp → List Tile × List Tile
  | .lw w => ([w], [])
  | .lstream act dst stg _ acc _ _ _ => (act :: (if acc then [dst] else []), dst :: stg.toList)
  | .tread _ dst a b c _ _ => (a.toList ++ b.toList ++ c.toList, dst.toList)
  | _ => ([], [])

/-- Two tiles share a 256-byte block of their vault: swizzles keep to these blocks (R187). -/
def tilesMeet (a b : Tile) : Bool :=
  let wide := fun (r : Nat × Nat) => (r.1 / 256 * 256, (r.1 + r.2 + 255) / 256 * 256 - r.1 / 256 * 256)
  a.cl == b.cl && a.desc.ranges.any fun r => b.desc.ranges.any fun q => overlaps (wide r) (wide q)

/-- The command of a stream still owes writes that a later command would meet (R316). -/
def owesTo (later c : Cmd) : Bool :=
  let l := cmdTiles later.op
  (cmdTiles c.op).2.any fun w => (l.1 ++ l.2).any (tilesMeet w)

/-! ### Starting (R313, R316, R317) -/

/-- The command changes a plane of the Last. -/
def isPlaneOp : CmdOp → Bool
  | .lw _ => true
  | .lswap => true
  | .lcfg _ _ => true
  | .restore _ _ => true
  | _ => false

/-- The command restores a plane (R468). -/
def isRestore : CmdOp → Bool
  | .restore _ _ => true
  | _ => false

/-- The rows of a stream. -/
def streamRows : CmdOp → Nat
  | .lstream act _ _ _ _ _ _ _ => act.desc.rows
  | _ => 0

/-- Every stream under way has read its last row (R324). -/
def streamsRead (e : Engine) : Bool := e.running.all fun c => decide (streamRows c.op ≤ c.at_)

/-- The Last may start a command now (R316, R361). -/
def lastMayStart (e : Engine) (c : Cmd) : Bool :=
  !(e.running.any fun x => isPlaneOp x.op)
    && (match c.op with
      | .lw _ => !(e.running.any (owesTo c))
      | .lstream _ _ _ _ _ _ _ _ => streamsRead e && !(e.running.any (owesTo c))
      | .ldrain => true
      | _ => streamsRead e)

/-- The page of a swap command now: level, page entry. -/
def swapPage (s : State) (c : Cmd) (va : Nat) : Option (Nat × Word) := walkTable (getTenant s c.tenant) va

/-- Blocks of the largest images a page of a level can take (R348). -/
def pageReserve (level : Nat) : Nat := 17 * 2 ^ (levelShift level - 16)

/-- Begin an invalidation (R411); `all` and `global` as the instruction asks. -/
def beginInval (s : State) (all global : Bool) (tenant page : Nat) : Nat × State :=
  let r := freshId s
  (r.1, { r.2 with invals := r.2.invals ++ [⟨r.1, all, global, tenant, page, []⟩] })

/-- A swap-out may be accepted (R348, R349). -/
def swapOutOk (s : State) (c : Cmd) (va : Nat) : Option (Nat × Word) :=
  match swapPage s c va with
  | some (level, w) =>
    let x := getTenant s c.tenant
    if leafV w && leafSwp w && !(leafSwd w) && (tabFind (pteKey level va) x.moves).isNone
        && decide (x.flashUse + pageReserve level ≤ x.allot) then some (level, w) else none
  | none => none

/-- The blocks taken on the flash of die `v`: of its images, and of the room reserved for pages on their way out. -/
def flashTaken (s : State) (v : Nat) : List (Nat × Nat) :=
  ((s.flash.filter fun e => e.1 / 2 ^ 37 == v).map fun e => (e.1 % 2 ^ 37, e.2.blocks))
    ++ s.tenants.flatMap fun x => (x.2.moves.filter fun e => e.2.outbound && e.2.floc / 2 ^ 37 == v).map fun e =>
      (e.2.floc % 2 ^ 37, pageReserve e.2.level)

/-- A flash location on die `v` for `n` blocks that nothing else takes, the device's choice (R347, R348). -/
def flashPlace (s : State) (v n : Nat) : Nat × State :=
  let taken := flashTaken s v
  let r := choose s (2 ^ 37)
  let ok := fun (b : Nat) => decide (b + n ≤ 2 ^ 37) && !(taken.any fun x => overlaps x (b, n))
  (v * 2 ^ 37 + ((r.1 :: 0 :: taken.map fun x => x.1 + x.2).find? ok).getD 0, r.2)

/-- Accept a swap-out: the entry names a flash location, its room is reserved, and the invalidation begins (R348, R349). -/
def acceptSwapOut (s : State) (c : Cmd) (v va level : Nat) (w : Word) : State :=
  let place := flashPlace s v (pageReserve level)
  let floc := place.1
  let inv := beginInval place.2 false false c.tenant (pageBase level va)
  let s := setLeaf inv.2 c.tenant level va (leafWith w true floc)
  modTenant s c.tenant fun x =>
    { x with flashUse := x.flashUse + pageReserve level,
             moves := tabIns (pteKey level va) ⟨level, true, some (leafAddr w * 65536), floc, some inv.1⟩ x.moves }

/-- A swap command begins its work (R349, R390). -/
def startSwap (s : State) (eng : Nat) (c : Cmd) : State :=
  match c.op with
  | .swpin va => startSwapIn s c.tenant va
  | .swpout va =>
    match swapOutOk s c va with
    | some (level, w) => acceptSwapOut s c (eng - 1024) va level w
    | none => failCmd s eng c (mkTrap 67 0 (pageAddr s c.tenant va))
  | _ => s

/-- A swap query that has not answered yet keeps its place in the order (R391). -/
def isQuery (c : Cmd) : Bool :=
  match c.op with
  | .swpq _ => true
  | _ => false

/-- The copy that a channel may start now: nothing is on the channel, and its first queued command is a copy that may work
(R317). -/
def channelNext (s : State) (cl ch : Nat) : Option Cmd :=
  let c := getChan s cl ch
  match c.cur, c.queue with
  | none, cmd :: _ =>
    (match cmd.op with
      | .copy _ _ _ _ _ _ _ => if mayWork s (copyOf cl) cmd then some cmd else none
      | _ => none)
  | _, _ => none

/-- A channel starts its next copy (R339). -/
def channelStart (s : State) (cl ch : Nat) (cmd : Cmd) : State :=
  let c := getChan s cl ch
  modJob (setChan s cl ch
      { c with wm := cmd.at_, cst := 1, cseq := c.cseq + 1, tenant := cmd.tenant, cur := some cmd, queue := c.queue.drop 1 })
    (copyOf cl) cmd.entry fun j => { j with state := 2, fcode := 0, detail := 0 }

/-- The channel of a command of the copy unit. -/
def opChannel : CmdOp → Nat
  | .copy _ _ _ ch _ _ _ => ch
  | .cwm ch => ch
  | .chan ch => ch
  | _ => 0

/-- A copy or channel marker goes from the unit's queue to its channel's (R317). -/
def toChannel (s : State) (cl : Nat) (cmd : Cmd) : State :=
  let e := getEngine s (copyOf cl)
  let s := setEngine s (copyOf cl) { e with queue := e.queue.filter fun c => c.entry != cmd.entry }
  let c := getChan s cl (opChannel cmd.op)
  setChan s cl (opChannel cmd.op) { c with queue := c.queue ++ [cmd] }

/-- The command that may start at an engine: the head of its queue; at a copy unit a `cwm` goes ahead of queued copies (R374). -/
def headCmd (s : State) (eng : Nat) : Option Cmd :=
  let e := getEngine s eng
  if eng < 1024 ∧ eng % 4 = 2 then
    (e.queue.find? fun c => (match c.op with
      | .cwm _ => verdict s c.guard != .hold
      | _ => false)).or e.queue.head?
  else e.queue.head?

/-- The engine may start the command now, its guard apart. -/
def mayStart (s : State) (eng : Nat) (c : Cmd) : Bool :=
  let e := getEngine s eng
  (getDie s (engDie eng)).state == 0 && !(jobFrozen s c.tenant c.job)
    && (if 1024 ≤ eng then !(e.running.any isQuery)
      else match eng % 4 with
        | 0 => lastMayStart e c
        | 2 => true
        | _ => e.running.isEmpty)

/-- What running means at the start, by engine. -/
def runCmd (s : State) (eng : Nat) (c : Cmd) : State :=
  if 1024 ≤ eng then startSwap (startRunning s eng c) eng c
  else if eng % 4 = 2 then
    match c.op with
    | .cwm _ => startRunning s eng c
    | _ => toChannel s (eng / 4) c
  else startRunning s eng c

/-- A parked command that may run again: its job is open and, at a Last, no plane of its job is still to be restored (R440, R468). -/
def parkedNext (s : State) (eng : Nat) : Option Cmd :=
  let e := getEngine s eng
  e.parked.find? fun c =>
    mayWork s eng c && !(e.queue.any fun x => x.tenant == c.tenant && x.job == c.job && isRestore x.op)

/-- COMMAND_START: a parked command runs again, a channel starts its next copy, or the queue's head runs, is held or is discarded
(R313, R384); swap commands whose guard is true enter their queue (R390). -/
def execCommandStart (eng : Nat) (s : State) : Host.Outcome State Fault Refusal :=
  let s := if eng < 1024 then s else admitSwaps eng (getEngine s eng).held.length s
  let next := if eng < 1024 ∧ eng % 4 = 2 then
      (List.range 8).findSome? fun ch => (channelNext s (eng / 4) ch).map fun c => (ch, c)
    else none
  match parkedNext s eng, next with
  | some c, _ => .next (unparkCmd s eng c)
  | none, some (ch, c) => .next (channelStart s (eng / 4) ch c)
  | none, none =>
    match headCmd s eng with
    | none => .next s
    | some c => if mayStart s eng c then .next (obeyGuard s eng c fun s => runCmd s eng c) else .next s

/-! ### The Last at work -/

/-- The plane an lw fills (R324, R360). -/
def loadPlane (s : State) (c : Cmd) (t : Tile) : Plane where
  k := t.desc.rows
  n := t.desc.cols
  fmt := t.desc.fmt.toNat
  tenant := c.tenant
  job := c.job
  elems := (List.range t.desc.rows).map fun i => (List.range t.desc.cols).map (tileBits s t i)
  exps := (List.range (blocks32 t.desc.rows)).map fun m => (List.range t.desc.cols).map fun j => tileExp s t (m * t.desc.cols + j)
  scv := t.desc.scv
  sglog := t.desc.sglog.toNat
  scales := if t.desc.scv then
      (List.range t.desc.scaleCount).map fun j => scaleBits s t.cl (t.desc.scidx.toNat + j)
    else []

/-- The accumulated FP32 words of activation row i, and their exceptions (R296, R297, R299). -/
def streamRow (s : State) (p : Plane) (act dst : Tile) (acc : Bool) (i : Nat) : List (Nat × BitVec 5) :=
  let acts := (List.range p.k).map (tileElem s act i)
  (List.range p.n).map fun col => lastOutput p acts (rowScale s act i) col (if acc then tileBits s dst i col else 0)

/-- The exceptions of a row. -/
def rowExc (r : List (Nat × BitVec 5)) : BitVec 5 := r.foldl (fun x v => x ||| v.2) 0

/-- FP32 words converted to a destination format (R302, R326). -/
def drainRow (dst : Tile) (rtz : Bool) (r : List Nat) : List (Nat × BitVec 5) :=
  r.map fun x => elemBits dst.desc.fmt.toNat (b2n rtz) false (flushed fmt32 x)

/-- Replace a running command. -/
def putRunning (s : State) (eng : Nat) (c : Cmd) : State :=
  let e := getEngine s eng
  setEngine s eng { e with running := e.running.map fun x => if x.entry = c.entry then c else x }

/-- One row of a stream without finishing threads: computed, converted and written (R326). -/
def streamOne (p : Plane) (act dst : Tile) (acc rtz : Bool) (r : State × Cmd) : State × Cmd :=
  let row := streamRow r.1 p act dst acc r.2.at_
  let out := drainRow dst rtz (row.map (·.1))
  (writeRow dst r.2.at_ (out.map (·.1)) r.1, { r.2 with at_ := r.2.at_ + 1, exc := r.2.exc ||| rowExc row ||| rowExc out })

/-- `n` rows. -/
def streamMany (p : Plane) (act dst : Tile) (acc rtz : Bool) : Nat → State × Cmd → State × Cmd
  | 0, r => r
  | n + 1, r => streamMany p act dst acc rtz n (streamOne p act dst acc rtz r)

/-- A plane that this command may empty (R365). -/
def emptied (c : Cmd) (b : Bool) (p : Plane) : Plane :=
  if b && p.tenant == c.tenant && p.job == c.job then Plane.zero else p

/-- The plane of a stream is not its own job's (R324). -/
def planeForeign (s : State) (cl : Nat) (c : Cmd) : Bool :=
  let p := (getCluster s cl).active
  p.k == 0 || p.tenant != c.tenant || p.job != c.job

/-- Advance a command of the Last of cluster `cl` (R360 to R365). -/
def lastComplete (s : State) (cl : Nat) (c : Cmd) : State :=
  let eng := lastOf cl
  let k := getCluster s cl
  match c.op with
  | .lw t => doneCmd (setCluster s cl { k with shadow := loadPlane s c t }) eng c 0 0
  | .lswap => doneCmd (setCluster s cl { k with shadow := k.active, active := k.shadow }) eng c 0 0
  | .lcfg a b => doneCmd (setCluster s cl { k with shadow := emptied c a k.shadow, active := emptied c b k.active }) eng c 0 0
  | .restore act p => doneCmd (setCluster s cl (if act then { k with active := p } else { k with shadow := p })) eng c 0 0
  | .ldrain =>
    match k.last.running with
    | x :: _ => if x.entry = c.entry then doneCmd s eng c 0 0 else s
    | [] => s
  | .lstream act dst none _ acc _ rtz _ =>
    let r := choose s (act.desc.rows - c.at_)
    let x := streamMany k.active act dst acc rtz (r.1 + 1) (r.2, c)
    if act.desc.rows ≤ x.2.at_ then doneCmd x.1 eng x.2 0 x.2.exc else putRunning x.1 eng x.2
  | .lstream act _ (some _) _ _ _ _ _ =>
    if act.desc.rows ≤ c.at_ ∧ c.stg.isEmpty then doneCmd s eng c 0 c.exc else s
  | _ => s

/-! ### The tread unit at work (R368) -/

/-- An operand's value at (i, j) of the shape, repeated where it is smaller (R335). -/
def operandAt (s : State) (t : Tile) (i j : Nat) : Fv × BitVec 5 :=
  tileValue s t (if t.desc.rows = 1 then 0 else i) (if t.desc.cols = 1 then 0 else j)

/-- An operand that may be absent. -/
def operandOpt (s : State) (t : Option Tile) (i j : Nat) : Fv × BitVec 5 :=
  match t with
  | some t => operandAt s t i j
  | none => (.zero false, 0)

/-- The exact element result of an elementwise function. -/
def treadElem (s : State) (fn : Nat) (x y z : Option Tile) (i j : Nat) : Fv × BitVec 5 :=
  let a := operandOpt s x i j
  let b := operandOpt s y i j
  let c := operandOpt s z i j
  match fn with
  | 0 => let r := evAdd a.1 b.1; (r.1, a.2 ||| b.2 ||| r.2)
  | 1 => let r := evMul a.1 b.1; (r.1, a.2 ||| b.2 ||| r.2)
  | 2 => let p := evMul a.1 b.1
         let r := evAdd p.1 c.1
         (r.1, a.2 ||| b.2 ||| c.2 ||| p.2 ||| r.2)
  | 3 => let r := evPick true a.1 b.1; (r.1, a.2 ||| b.2 ||| r.2)
  | 4 => let r := evPick false a.1 b.1; (r.1, a.2 ||| b.2 ||| r.2)
  | 5 => let r := evExp2 a.1; (r.1, a.2 ||| r.2)
  | 6 => let r := evRcp a.1; (r.1, a.2 ||| r.2)
  | 7 => let r := evRsqrt a.1; (r.1, a.2 ||| r.2)
  | 8 => a
  | _ => if fvZero a.1 then c else b

/-- A row reduced (R300): the exact value a destination or register rounds, and the exceptions. -/
def reduceRow (s : State) (t : Tile) (red i : Nat) : Fv × BitVec 5 :=
  let vs := (List.range t.desc.cols).map (tileValue s t i)
  let exc := vs.foldl (fun x v => x ||| v.2) 0
  match vs.map (·.1) with
  | [] => (.zero false, exc)
  | v :: l =>
    if red = 0 then
      if isIntFmt t.desc.fmt.toNat then let r := evSum (v :: l); (r.1, exc ||| r.2)
      else let r := rowSum (v :: l); (flushed fmt32 r.1, exc ||| r.2)
    else
      let r := l.foldl (fun (r : Fv × BitVec 5) x => ((evPick (red == 1) r.1 x).1, r.2 ||| (evPick (red == 1) r.1 x).2)) (v, exc)
      r

/-- The exact values of a destination. -/
def treadValues (s : State) (fn : Nat) (dst : Tile) (x y z : Option Tile) (red : Nat) : List (List Fv) × BitVec 5 :=
  let rs := (List.range dst.desc.rows).map fun i => (List.range dst.desc.cols).map fun j =>
    if fn = 9 then (match x with
      | some t => reduceRow s t red i
      | none => (.zero false, 0))
    else treadElem s fn x y z i j
  (rs.map fun r => r.map (·.1), rs.foldl (fun e r => r.foldl (fun e v => e ||| v.2) e) 0)

/-- The register result of tred (R370). -/
def tredValue (t : Tile) (r : Fv × BitVec 5) : Word × BitVec 5 :=
  if isIntFmt t.desc.fmt.toNat then
    (BitVec.ofInt 64 (evToInt 0 (-(2 ^ 63 : Nat)) ((2 ^ 63 : Nat) - 1) r.1).1, 0)
  else let b := roundEv fmt32 0 r.1; (BitVec.ofNat 64 b.1, r.2 ||| b.2)

/-- ttrn: the bits of the source, rows and columns exchanged. -/
def transpose (s : State) (t dst : Tile) : State :=
  writeRows dst 0 ((List.range dst.desc.rows).map fun j => (List.range dst.desc.cols).map fun i => tileBits s t i j) s

/-- Perform a tread command (R368). -/
def treadComplete (s : State) (eng : Nat) (c : Cmd) : State :=
  match c.op with
  | .tread fn dst x y z red rtz =>
    match dst, x with
    | some d, some t =>
      if fn = 11 then doneCmd (transpose s t d) eng c 0 0
      else
        let v := treadValues s fn d x y z red
        let r := writeTile s d (b2n rtz) (fn != 8 && fn != 10) v.1
        doneCmd r.1 eng c 0 (v.2 ||| r.2)
    | none, some t =>
      let r := tredValue t (reduceRow s t red 0)
      doneCmd s eng c r.1 r.2
    | _, none => s
  | _ => s

/-! ### The heliostat, channels and swap queries -/

/-- The register of a channel (R339). -/
def channelWord (c : Channel) : Word := BitVec.ofNat 64 (c.wm + c.cst * 2 ^ 40 + c.cseq.toNat * 2 ^ 48)

/-- A chan marker stands at the front of its channel, with no copy before it under way (R375). -/
def markerAt (s : State) (cl entry : Nat) : Option (Nat × Cmd) :=
  (List.range 8).findSome? fun ch =>
    let c := getChan s cl ch
    match c.cur, c.queue with
    | none, cmd :: _ => if cmd.entry = entry ∧ cmd.op = .chan ch then some (ch, cmd) else none
    | _, _ => none

/-- PST of a page (R391). -/
def pageState (s : State) (t va : Nat) : Nat × Word :=
  match walkTable (getTenant s t) va with
  | none => (4, 0)
  | some (level, w) =>
    (if !(leafSwp w) then 4
      else match tabFind (pteKey level va) (getTenant s t).moves with
        | some m => if m.outbound then 1 else 3
        | none => if leafSwd w then 2 else 0, w)

/-- A swap command reaches its end (R390): swapped, resident again, or at once. -/
def swapComplete (s : State) (eng : Nat) (c : Cmd) : State :=
  match c.op with
  | .swpq va =>
    let p := pageState s c.tenant va
    doneCmd s eng c (BitVec.ofNat 64 (p.1 + b2n (leafZe p.2) * 8 + leafRc p.2 * 16)) 0
  | .swpin va => if (pageState s c.tenant va).1 = 0 ∨ (pageState s c.tenant va).1 = 4 then doneCmd s eng c 0 0 else s
  | _ => s

/-! ### Faults of running commands (R315) -/

/-- What a running command of a cluster engine or swap engine meets now, if it fails. -/
def cmdFault (s : State) (eng : Nat) (c : Cmd) : Option Trap :=
  let tiles := cmdTiles c.op
  match (tiles.1.findSome? fun t => tileFault s c.tenant t false).or (tiles.2.findSome? fun t => tileFault s c.tenant t true) with
  | some e => some e
  | none =>
    match c.op with
    | .lstream _ _ _ _ _ _ _ _ => if planeForeign s (eng / 4) c ∧ c.at_ < streamRows c.op then some (mkTrap 65 0 0) else none
    | .scmc j _ =>
      if owns s c.tenant (localGranule (helioCore s (eng / 4)) (65536 + 4 * j)) then none
      else some (trapPermission true false true (scaleKey s (eng / 4) j))
    | .sld j =>
      if owns s c.tenant (localGranule (helioCore s (eng / 4)) (65536 + 4 * j)) = false then
        some (trapPermission false false true (scaleKey s (eng / 4) j))
      else if poisoned s.memory (scaleKey s (eng / 4) j) 4 then some (mkTrap 24 0 (scaleKey s (eng / 4) j))
      else none
    | .swpin va => if (swapPage s c va).isNone then some (trapPageFault false va) else none
    | .swpq va => if (swapPage s c va).isNone then some (trapPageFault false va) else none
    | _ => none

/-- The running command of an entry. -/
def runningCmd (s : State) (eng entry : Nat) : Option Cmd := (getEngine s eng).running.find? fun c => c.entry == entry

/-! ### Copies (R336 to R342, R372) -/

/-- The bytes of the segment that starts at the watermark: to the next 4 KiB boundary of the source or of the destination, and
to the end of a dealt block. -/
def segmentLen (src dst len : Nat) (dist : Bool) (dpat o : Nat) : Nat :=
  let d := copyDest dst dist dpat o
  let n := min (len - o) (min (4096 - (src + o) % 4096) (4096 - d % 4096))
  if dist then min n (dealBlock dpat - o % dealBlock dpat) else n

/-- What a segment comes to before any byte moves: its places, a failure, a swapped page, or a held port. -/
inductive Seg where
  | go (src : Nat) (dst : Loc)
  | fail (t : Trap)
  | page (va : Nat)
  | held
  deriving DecidableEq, Repr

/-- Check a segment (R372): the source as a load and owned by the unit, the destination as a store. -/
def checkSegment (s : State) (cl : Nat) (c : Cmd) (va da n : Nat) : Seg :=
  let who : Who := ⟨c.tenant, c.job, c.level, .cluster cl⟩
  match locate s who .load va 0 with
  | .error (.trap e) => .fail e
  | .error (.page p) => .page p
  | .error .hold => .held
  | .ok ls =>
    if unitOwns s cl ls = false then .fail (mkTrap 66 c.at_ va)
    else match locate s who .store da 0 with
      | .error (.trap e) => .fail e
      | .error (.page p) => .page p
      | .error .hold => .held
      | .ok (.mbox _ _) => .fail (trapPermission true false false da)
      | .ok ld => match ls with
        | .cell k =>
          if (List.range n).any fun i => poisoned s.memory (k + i) 1 then .fail (mkTrap 24 0 va) else .go k ld
        | _ => .fail (mkTrap 66 c.at_ va)

/-- The words of [lo, hi) whose last byte lies at or above `from_`. -/
def wordsIn (lo from_ hi : Nat) : List Nat :=
  ((List.range ((hi - lo) / 8 + 1)).map fun i => (lo + 7) / 8 * 8 + 8 * i).filter fun w =>
    decide (w + 8 ≤ hi) && decide (from_ < w + 8)

/-- Set the full/empty bits of words as they are written (R341). -/
def fillWords (l : List Nat) (s : State) : State :=
  l.foldl (fun s w => if feAt s.memory w then s else wakeFullEmpty { s with memory := fePut s.memory w true } w) s

/-- Bytes written to a key, 8 bytes of one word at a time. -/
def putBytes : List Byte → Nat → State → State
  | [], _, s => s
  | b :: l, k, s => putBytes l (k + 1) (writeLoc s (.cell k) 1 b.toNat)

/-- The writes of a segment to another member, each within one 8-byte word (R447). -/
def remoteWrites (s : State) (cl : Nat) (c : Cmd) (k da : Nat) (v p : Nat) : Nat → Nat → State × Nat
  | 0, _ => (s, 0)
  | fuel + 1, n =>
    if n = 0 then (s, 0)
    else
      let m := min n (8 - p % 8)
      let pk : Pkt :=
        { id := s.nextId, name := s.nextId, body := .write m (BitVec.ofNat 64 (memRead s.memory k m)) none, ans := false,
          src := vmodOf s c.tenant c.job, dst := v, tenant := c.tenant, job := c.job, line := copyMark cl c.entry,
          core := cl * 8, target := da, loc := .remote v p, dmgen := s.dmgen, bufClass := 0, bufId := 0, vc := 0 }
      let r := remoteWrites (sendPkt s pk) cl c (k + m) (da + m) v (p + m) fuel (n - m)
      (r.1, r.2 + 1)

/-- Put a copy back on its channel with its watermark raised to `wm`. -/
def raiseMark (s : State) (cl ch : Nat) (c : Cmd) (wm : Nat) : State :=
  let k := getChan s cl ch
  setChan s cl ch { k with wm := wm, cur := some { c with at_ := wm, sent := none } }

/-- The copy of a channel is over: CST shows how, the channel is free (R339, R342). -/
def leaveChannel (s : State) (cl ch cst : Nat) : State :=
  let k := getChan s cl ch
  setChan s cl ch { k with cst := cst, cur := none }

/-- After a segment: the copy is done when its last byte is delivered. -/
def afterSegment (s : State) (cl ch : Nat) (c : Cmd) (wm len : Nat) : State :=
  let s := raiseMark s cl ch c wm
  if len ≤ wm then doneCmd (leaveChannel s cl ch 3) (copyOf cl) c 0 0 else s

/-- The copy of a channel parks (R342, R440, R460). The FCODE of a parked job is not stated (log entry 22). -/
def parkOnChannel (s : State) (cl ch : Nat) (c : Cmd) : State :=
  let r := freeValue s
  modJob (setChan r.2 cl ch { getChan r.2 cl ch with cst := 2 }) (copyOf cl) c.entry fun j =>
    { j with state := 3, fcode := r.1.setWidth 8, detail := restartOffset c }

/-- A parked copy of a channel runs again, from its restart offset (R313, R350). -/
def unparkOnChannel (s : State) (cl ch : Nat) (c : Cmd) : State :=
  modJob (setChan s cl ch { getChan s cl ch with cst := 1 }) (copyOf cl) c.entry fun j =>
    { j with state := 2, fcode := 0, detail := 0 }

/-- A segment touches a swapped page: the copy starts the swap-in and parks until the page lands (R342). A page that was on its way out
is resident again at once (R349), and the copy goes on. -/
def parkCopy (s : State) (cl ch : Nat) (c : Cmd) (va : Nat) : State :=
  let s := startSwapIn s c.tenant va
  match walkTable (getTenant s c.tenant) va with
  | some (_, w) => if leafSwd w then parkOnChannel s cl ch c else s
  | none => s

/-- COPY_SEGMENT: the copy of a channel delivers its next segment, or parks (R338, R342). -/
def execCopySegment (cl ch : Nat) (s : State) : Host.Outcome State Fault Refusal :=
  let k := getChan s cl ch
  match k.cur with
  | none => .next s
  | some c =>
    match c.op with
    | .copy src dst len _ setf dist dpat =>
      if mayWork s (copyOf cl) c = false ∨ k.cst ≠ 1 then .next s
      else
        let n := segmentLen src dst len dist dpat.toNat c.at_
        match c.sent with
        | some 0 => .next (afterSegment s cl ch c (c.at_ + n) len)
        | some _ => .next s
        | none =>
          let da := copyDest dst dist dpat.toNat c.at_
          match checkSegment s cl c (src + c.at_) da n with
          | .fail _ => .next s
          | .held => .next s
          | .page va => .next (parkCopy s cl ch c va)
          | .go key (.remote v p) =>
            let r := remoteWrites s cl c key da v p (n + 1) n
            .next (setChan r.1 cl ch { k with cur := some { c with sent := some r.2 } })
          | .go key (.cell d) =>
            let s' := putBytes (memBytes s.memory key n) d s
            let base := if dist then d - c.at_ % dealBlock dpat.toNat else d - c.at_
            let s' := if setf then fillWords (wordsIn base d (d + n)) s' else s'
            .next (afterSegment s' cl ch c (c.at_ + n) len)
          | .go _ _ => .next s
    | _ => .next s

/-- The copy that stands on a channel with this job entry. -/
def copyAt (s : State) (cl entry : Nat) : Option (Nat × Cmd) :=
  (List.range 8).findSome? fun ch =>
    match (getChan s cl ch).cur with
    | some c => if c.entry = entry then some (ch, c) else none
    | none => none

/-- COMMAND_COMPLETION: a running command does the rest of its work, or its next rows, and becomes done with its last access
(R313, R316). -/
def execCommandCompletion (eng entry : Nat) (s : State) : Host.Outcome State Fault Refusal :=
  match runningCmd s eng entry with
  | some c =>
    if mayWork s eng c = false ∨ (cmdFault s eng c).isSome then .next s
    else if 1024 ≤ eng then .next (swapComplete s eng c)
    else match eng % 4 with
      | 0 => .next (lastComplete s (eng / 4) c)
      | 1 => .next (treadComplete s eng c)
      | 2 => match c.op with
        | .cwm ch =>
          let k := getChan s (eng / 4) ch
          .next (doneCmd s eng c (if k.tenant = c.tenant then channelWord k else 0) 0)
        | _ => .next s
      | _ => match c.op with
        | .scmc j v => .next (doneCmd (writeLoc s (.cell (scaleKey s (eng / 4) j)) 4 v.toNat) eng c 0 0)
        | .sld j => .next (doneCmd s eng c (BitVec.ofNat 64 (scaleBits s (eng / 4) j)) 0)
        | _ => .next s
  | none =>
    if 1024 ≤ eng ∨ eng % 4 ≠ 2 then .next s
    else match markerAt s (eng / 4) entry with
      | none => .next s
      | some (ch, c) =>
        if mayWork s eng c then
          let k := getChan s (eng / 4) ch
          .next (doneCmd (setChan s (eng / 4) ch { k with queue := k.queue.drop 1 }) eng c 0 0)
        else .next s

/-! ### Staging (R327 to R330) -/

/-- Staging rows a command uses. -/
def stagingRows (t : Tile) : Nat := min t.desc.rows 8

/-- The finishing thread of a delivered row (R328). -/
def finishingLine (c : Cmd) (stg : Tile) (hentry : BitVec 48) (arg : Word) (i srow : Nat) : Line :=
  { Line.zero with
    g := (((Line.zero.g.set 0 (BitVec.ofNat 64 i)).set 1 (BitVec.ofNat 64 stg.handle.toNat)).set 2 arg).set 3 (BitVec.ofNat 64 srow)
    tag := Line.zero.tag.set 1 handleTag
    pc := hentry
    tenant := BitVec.ofNat 8 c.tenant
    job := BitVec.ofNat 16 c.job
    prio := c.prio
    fin := true }

/-- The row waits in staging for its finishing thread. -/
def rowWaiting (r : StgRow) : Bool := r.state == 0

/-- The stream of a Last that still has rows to deliver to finishing threads, or a row that waits for one. -/
def deliveringCmd (s : State) (cl : Nat) : Option Cmd :=
  (getEngine s (lastOf cl)).running.find? fun c => match c.op with
    | .lstream act _ (some _) _ _ _ _ _ => decide (c.at_ < act.desc.rows) || c.stg.any rowWaiting
    | _ => false

/-- The finishing thread of a delivered row of command `c` of the Last of cluster `cl` is created on `core`; with no free pool line, or no
room in the CL1, the row waits in staging (R125, R138, R328). -/
def finishRow (s : State) (cl core : Nat) (c : Cmd) (stg : Tile) (hentry : BitVec 48) (arg : Word) (r : StgRow) : State :=
  if cl1Room s core = false then s
  else match poolTake s c.tenant with
    | none => poolRefused s c.tenant
    | some (a, s') =>
      if addrHeld s c.tenant a then s
      else
      let rows := c.stg.map fun x => if x = r then { r with state := 1, line := a } else x
      putLine (putRunning s' (lastOf cl) { c with stg := rows })
        { LiveLine.new c.tenant a (.cl1 core) (finishingLine c stg hentry arg r.row r.srow) with
          pool := true, staging := some (cl, r.srow), lastCl := cl }

/-- STAGING_DELIVERY: a drained row goes to a free staging row, and its finishing thread is created on a core of the cluster
(R327, R328); while a row waits for its thread, the Last pauses. -/
def execStagingDelivery (cl core : Nat) (s : State) : Host.Outcome State Fault Refusal :=
  match deliveringCmd s cl with
  | none => .next s
  | some c =>
    match c.op with
    | .lstream act dst (some stg) hentry acc _ _ arg =>
      let srow := c.at_ % stagingRows stg
      if clusterOf core ≠ cl ∨ mayWork s (lastOf cl) c = false ∨ (cmdFault s (lastOf cl) c).isSome = true then .next s
      else match c.stg.find? rowWaiting with
        | some r => .next (finishRow s cl core c stg hentry arg r)
        | none =>
          if c.stg.any fun r => r.srow == srow then .next s
          else
            let row := streamRow s (getCluster s cl).active act dst acc c.at_
            let s' := writeRow stg srow (row.map (·.1)) s
            let r : StgRow := ⟨srow, c.at_, 0, 0⟩
            let c' := { c with at_ := c.at_ + 1, stg := c.stg ++ [r], exc := c.exc ||| rowExc row }
            .next (finishRow (putRunning s' (lastOf cl) c') cl core c' stg hentry arg r)
    | _ => .next s

/-- STAGING_ROW_WRITE: a released staging row is converted and written to its destination row (R329). -/
def execStagingRowWrite (cl row : Nat) (s : State) : Host.Outcome State Fault Refusal :=
  match (getEngine s (lastOf cl)).running.find? fun c => c.stg.any fun r => r.srow == row && r.state == 2 with
  | none => .next s
  | some c =>
    match c.op, c.stg.find? fun r => r.srow == row && r.state == 2 with
    | .lstream _ dst (some stg) _ _ _ rtz _, some r =>
      if mayWork s (lastOf cl) c = false ∨ (cmdFault s (lastOf cl) c).isSome then .next s
      else
        let out := drainRow dst rtz ((List.range dst.desc.cols).map (tileBits s stg row))
        let s' := writeRow dst r.row (out.map (·.1)) s
        .next (putRunning s' (lastOf cl)
          { c with stg := c.stg.filter fun x => !(x.srow == row && x.state == 2), exc := c.exc ||| rowExc out })
    | _, _ => .next s

end Sys2Proof.Machine
end

