-- ==== Sys2Proof/Machine/Swap.lean ====
section
/-! DEFINITION. Machine/Swap.lean: the page swap engines: unit images (R303, R348), the page state table (R349), landings and read
errors (R350). -/

namespace Sys2Proof.Machine

/-! ### Unit images (R303, R348) -/

/-- k of a recoding. -/
def recodeBits (rc : Nat) : Nat := 10 - 2 * rc

/-- A list cut into pieces of `n`. -/
def piecesOf {α : Type} (n : Nat) : Nat → List α → List (List α)
  | 0, _ => []
  | fuel + 1, l => l.take n :: piecesOf n fuel (l.drop n)

/-- A 64-byte block as 32 BF16 values. -/
def blockVals (b : List Byte) : List Fv := (piecesOf 2 32 b).map fun x => flushed fmtB16 (leNat x)

/-- A block as stored: its exponent and payload, and whether it is all-zero (R348). -/
def storeBlock (rc : Nat) (b : List Byte) : Nat × List Byte × Bool :=
  if rc = 0 then (0, b, b.all (· == 0))
  else
    let k := recodeBits rc
    let q := quantise k 0 (blockVals b)
    (q.ex, natLe (packElems k (q.ms.map fun m => wrapTo m k)) (4 * k), q.ex == 0)

/-- The image of one 64 KiB unit. -/
def unitImage (rc : Nat) (ze : Bool) (unit : List Byte) : List Byte :=
  let bs := (piecesOf 64 1024 unit).map (storeBlock rc)
  let kept := if ze then bs.filter fun b => !(b.2.2) else bs
  let bitmap := if ze then
      natLe ((bs.foldl (fun (r : Nat × Nat) b => (r.1 + b2n (!(b.2.2)) * 2 ^ r.2, r.2 + 1)) (0, 0)).1) 128
    else []
  let exps := if rc = 0 then [] else kept.map fun b => BitVec.ofNat 8 b.1
  let body := bitmap ++ exps ++ kept.flatMap (·.2.1)
  let len := 64 + body.length
  let blocks := (len + 4095) / 4096
  natLe (rc + b2n ze * 4) 2 ++ natLe kept.length 2 ++ natLe blocks 2 ++ List.replicate 58 0 ++ body
    ++ List.replicate (blocks * 4096 - len) 0

/-- A stored block back as 64 bytes (R303). -/
def loadBlock (rc ex : Nat) (payload : List Byte) : List Byte :=
  if rc = 0 then payload
  else
    let k := recodeBits rc
    let n := leNat payload
    (List.range 32).flatMap fun i => natLe (roundEv fmtB16 0 (bfpValue k (n / 2 ^ (k * i) % 2 ^ k) ex)).1 2

/-- The blocks of a unit put back in their places. -/
def placeBlocks (bitmap : Nat) (ze : Bool) : Nat → Nat → List (List Byte) → List Byte
  | 0, _, _ => []
  | n + 1, i, l =>
    if ze && bitmap / 2 ^ i % 2 == 0 then List.replicate 64 0 ++ placeBlocks bitmap ze n (i + 1) l
    else match l with
      | b :: t => b ++ placeBlocks bitmap ze n (i + 1) t
      | [] => List.replicate 64 0 ++ placeBlocks bitmap ze n (i + 1) []

/-- The unit of an image. -/
def unitOf (img : List Byte) : List Byte :=
  let rc := leNat (img.take 1) % 4
  let ze := leNat (img.take 1) / 4 % 2 == 1
  let count := leNat ((img.drop 2).take 2)
  let body := img.drop 64
  let bitmap := if ze then leNat (body.take 128) else 0
  let body := if ze then body.drop 128 else body
  let exps := if rc = 0 then [] else body.take count
  let body := if rc = 0 then body else body.drop count
  let size := if rc = 0 then 64 else 4 * recodeBits rc
  let ps := piecesOf size count body
  placeBlocks bitmap ze 1024 0 ((List.range count).map fun i => loadBlock rc ((exps.getD i 0).toNat) (ps.getD i []))

/-- The images of a page's units, from its frame. -/
def pageImages (s : State) (level : Nat) (w : Word) (frame : Nat) : List (List Byte) :=
  (List.range (2 ^ (levelShift level - 16))).map fun u =>
    unitImage (leafRc w) (leafZe w) (memBytes s.memory (frame + u * 65536) 65536)

/-- The 4 KiB blocks of images. -/
def imageBlocks (l : List (List Byte)) : Nat := (l.map fun i => i.length / 4096).sum

/-! ### Moves -/

/-- The move of the page that holds an address, with its level and entry. -/
def pageMove (s : State) (t va : Nat) : Option (Nat × Word × PageMove) :=
  match walkTable (getTenant s t) va with
  | some (level, w) => (tabFind (pteKey level va) (getTenant s t).moves).map fun m => (level, w, m)
  | none => none

/-- Every marker of a move's invalidation has returned (R349, R411). -/
def markersBack (s : State) (m : PageMove) : Bool :=
  match m.inval with
  | some id => !(s.invals.any fun i => i.id == id)
  | none => true

/-- A frame goes back to the tenant's pool (R349). -/
def giveFrame (s : State) (t frame level : Nat) : State :=
  modTenant s t fun x => { x with frames := x.frames ++ [frame * 4 + level], frameNote := false }

/-- Some byte of a frame is poisoned (R404). -/
def framePoisoned (s : State) (frame level : Nat) : Bool :=
  s.memory.poison.any fun p => decide (frame ≤ p) && decide (p < frame + 2 ^ levelShift level)

/-- SWAP_OUT_IMAGE_WRITTEN: the image is written and the page is swapped; its frame returns to the pool, the room its images do
not use is released, and the job is done (R348, R349). -/
def execSwapOutImageWritten (tn : Nat) (page : Word) (s : State) : Host.Outcome State Fault Refusal :=
  let va := page.toNat
  match pageMove s tn va with
  | none => .next s
  | some (level, w, m) =>
    match m.outbound, m.frame with
    | true, some frame =>
      if markersBack s m = false ∨ (getDie s (m.floc / 2 ^ 37)).state ≠ 0
          ∨ framePoisoned s frame level = true then .next s
      else
        let units := pageImages s level w frame
        let used := imageBlocks units
        let s := modTenant s tn fun x =>
          { x with moves := tabDel (pteKey level va) x.moves, flashUse := x.flashUse - (pageReserve level - used) }
        let s := giveFrame { s with flash := tabIns m.floc ⟨tn, used, units⟩ s.flash } tn frame level
        .next (match swapOutJob s tn level va with
          | some (eng, c) => doneCmd s eng c 0 0
          | none => s)
    | _, _ => .next s

/-- SWAP_IN_FRAME_GRANT: a swap-in that waits on the pool takes a frame that came back (R350). -/
def execSwapInFrameGrant (tn : Nat) (page : Word) (s : State) : Host.Outcome State Fault Refusal :=
  let va := page.toNat
  match pageMove s tn va with
  | none => .next s
  | some (level, _, m) =>
    match m.outbound, m.frame, (getTenant s tn).frames.find? fun f => f % 4 == level with
    | false, none, some f =>
      .next (modTenant s tn fun x =>
        { x with frames := x.frames.erase f, moves := tabIns (pteKey level va) { m with frame := some (f / 4) } x.moves })
    | _, _, _ => .next s

/-- The next segment of a copy touches this page of tenant `t`. -/
def touchesPage (t level va : Nat) (c : Cmd) : Bool :=
  match c.op with
  | .copy src dst _ _ _ dist dpat =>
    let on := fun x => pageBase level x == pageBase level va
    c.tenant == t && (on (src + c.at_) || on (copyDest dst dist dpat.toNat c.at_))
  | _ => false

/-- The copy of a channel that is parked on a page of tenant `t` (R342). -/
def parkedOn (t level va : Nat) (k : Channel) : Option Cmd := k.cur.filter fun c => k.cst == 2 && touchesPage t level va c

/-- A parked copy resumes when its page lands (R313, R350), unless a gang switch stops its job (R340, R460). -/
def resumeCopies (s : State) (t level va : Nat) : State :=
  (List.range 2048).foldl (fun s n =>
    let cl := n / 8
    let k := getChan s cl (n % 8)
    match parkedOn t level va k with
    | none => s
    | some c => if jobFrozen s c.tenant c.job then s else unparkOnChannel s cl (n % 8) c) s

/-- Write the units of an image into a frame. -/
def writeUnits (frame : Nat) : List (List Byte) → Memory → Memory
  | [], m => m
  | u :: l, m => writeUnits (frame + 65536) l (memPut m frame (unitOf u))

/-- The elements of queue `q`, whose entry `e` is at `key`, or its image are on die `v` while the entry survives; those of a queue moving
out still stand in its buffer (R443). -/
def queueLost (s : State) (v t q key : Nat) (e : QEntry) : Bool :=
  let size := 8 * 2 ^ e.log2cap.toNat
  let image := (List.range ((size + 65535) / 65536 + 1)).any fun i =>
    let va := e.image.toNat / 65536 * 65536 + 65536 * i
    match cellOf s t va with
    | some k => decide (va < e.image.toNat + size) && homeDie s k == some v
    | none => false
  let buffered := e.state == 2 || (e.state == 3 && (residentQueue s t q e.owner.toNat).isSome)
  e.state != 0 && homeDie s key != some v && ((buffered && dieOf e.owner.toNat == v) || image)

/-- Queue `q` of tenant `t` becomes free if die `v` took it, now or when the page of its entry lands (R443). -/
def loseQueue (t : Nat) (s : State) (x : Nat × Nat) : State :=
  match cellOf s t (entryVa s t x.2) with
  | some key => if queueLost s x.1 t x.2 key (readEntry s.memory key) then freeQueue s t x.2 key (readEntry s.memory key) else s
  | none => modTenant s t fun y => { y with lostQueues := y.lostQueues ++ [x] }

/-- Free the lost queues of a tenant whose entries can be reached now. -/
def flushQueues (s : State) (t : Nat) : State :=
  (getTenant s t).lostQueues.foldl (loseQueue t) (modTenant s t fun y => { y with lostQueues := [] })

/-- The page is resident in a frame: its entry, its flash location and allotment, its waiters, its held records, its parked copies
(R349, R350, R399). -/
def landPage (s : State) (tn va level frame floc : Nat) (w : Word) (img : FlashImage) : State :=
  let m := writeUnits frame img.units (memScrub s.memory frame (2 ^ levelShift level))
  let s := setLeaf { s with memory := m, flash := tabDel floc s.flash } tn level va (leafWith w false (frame / 65536))
  let s := modTenant s tn fun x =>
    { x with moves := tabDel (pteKey level va) x.moves, flashUse := x.flashUse - img.blocks }
  let s := flushQueues (flushAll s tn) tn
  resumeCopies (wakePage s tn level va) tn level va

/-- PAGE_LANDING: a swap-in completes (R350). -/
def execPageLanding (tn : Nat) (page : Word) (s : State) : Host.Outcome State Fault Refusal :=
  let va := page.toNat
  match pageMove s tn va with
  | none => .next s
  | some (level, w, m) =>
    match m.outbound, m.frame, tabFind m.floc s.flash with
    | false, some frame, some img =>
      if img.tenant = tn ∧ (getDie s (m.floc / 2 ^ 37)).state = 0 ∧ dieHeld s ((homeDie s frame).getD 0) = false then
        .next (landPage s tn va level frame m.floc w img)
      else .next s
    | _, _, _ => .next s

/-- A line that waits for the page is parked, with a SwapIn record (R350). -/
def failWaiter (s : State) (level va : Nat) (x : LiveLine) : State :=
  let s := editLine s x fun l => { l with wait := waitTag 10 0 }
  match contentOf s x with
  | some l => report s x.tenant ⟨x.addr, l.pc, 68, x.line.tlvl, 0, false, BitVec.ofNat 64 (pageBase level va), 0, l.job.toNat⟩
  | none => s

/-- The copies parked on a page at channel `n`, its current one and those that came back to its queue, fail (R350). -/
def failChannel (tn level va : Nat) (trap : Trap) (s : State) (n : Nat) : State :=
  let cl := n / 8
  let eng := copyOf cl
  let s := match parkedOn tn level va (getChan s cl (n % 8)) with
    | none => s
    | some c => failCmd (leaveChannel s cl (n % 8) 4) eng c trap
  let k := getChan s cl (n % 8)
  let gone := fun (c : Cmd) => isParked s eng c && touchesPage tn level va c
  (k.queue.filter gone).foldl (fun s c => failCmd s eng c trap)
    (setChan s cl (n % 8) { k with queue := k.queue.filter fun c => !(gone c) })

/-- The parked copies on a page that gang switches have saved fail (R350, R464). -/
def failSaved (tn level va : Nat) (trap : Trap) (s : State) : State :=
  let gone := fun (c : SavedCmd) => isParked s c.eng c.cmd && touchesPage tn level va c.cmd
  let hit := (s.switches.flatMap (·.cmds)).filter gone
  hit.foldl (fun s c => modJob (failCmd s c.eng c.cmd trap) c.eng c.cmd.entry fun e => { e with withdrawn := false })
    { s with switches := s.switches.map fun w => { w with cmds := w.cmds.filter fun c => !(gone c) } }

/-- Every command that waits for the page fails with SwapIn (R350). -/
def failPageCmds (s : State) (tn level va : Nat) : State :=
  let trap := mkTrap 68 0 (pageBase level va)
  let s := failSaved tn level va trap ((List.range 2048).foldl (failChannel tn level va trap) s)
  (List.range 8).foldl (fun s v =>
    ((getEngine s (swapOf v)).running.filter fun c => (match c.op with
      | .swpin a => c.tenant == tn && pageBase level a == pageBase level va
      | _ => false)).foldl (fun s c => failCmd s (swapOf v) c trap) s) s

/-- A swap-in meets a flash error: the page stays swapped, the frame returns, its waiters and parked commands fail (R349, R350). -/
def failSwapIn (s : State) (tn va : Nat) : State :=
  match pageMove s tn va with
  | none => s
  | some (level, _, m) =>
    match m.outbound, m.frame with
    | false, some frame =>
      let s := giveFrame (modTenant s tn fun x => { x with moves := tabDel (pteKey level va) x.moves }) tn frame level
      let waits := s.lines.filter fun x =>
        x.tenant == tn && waitKind (tagOf s x) == 5 && pageBase level (waitTarget (tagOf s x)) == pageBase level va
      failPageCmds (waits.foldl (fun s x => failWaiter s level va x) s) tn level va
    | _, _ => s

/-- A swap-out ends early: its page is resident again, and what waited for that page is written (R349, R399). -/
def undoSwapOut (s : State) (t level va : Nat) (w : Word) (m : PageMove) : State :=
  flushQueues (flushAll (swapAbort s t level va w m) t) t

/-- A swap-out whose frame cannot be read ends as failed (R315, R404). R349 has no row for it; that the page is resident again is the
model's choice (log entry 101). -/
def unreadableOut (s : State) (c : Cmd) (eng va : Nat) : State :=
  match pageMove s c.tenant va with
  | some (level, w, m) => undoSwapOut (failCmd s eng c (mkTrap 24 0 va)) c.tenant level va w m
  | none => s

/-- The frame of an outbound page is poisoned. -/
def frameUnreadable (s : State) (t va : Nat) : Bool :=
  match pageMove s t va with
  | some (level, _, m) => m.outbound && framePoisoned s (m.frame.getD 0) level
  | none => false

/-- COMMAND_FAULT: a running command that meets a failure ends as failed (R315). -/
def execCommandFault (eng entry : Nat) (s : State) : Host.Outcome State Fault Refusal :=
  match runningCmd s eng entry with
  | some c =>
    if mayWork s eng c then
      match cmdFault s eng c with
      | some t => .next (failCmd s eng c t)
      | none => match c.op with
        | .swpout va => if frameUnreadable s c.tenant va then .next (unreadableOut s c eng va) else .next s
        | _ => .next s
    else .next s
  | none =>
    if 1024 ≤ eng ∨ eng % 4 ≠ 2 then .next s
    else match copyAt s (eng / 4) entry with
      | none => .next s
      | some (ch, c) =>
        match c.op with
        | .copy src dst len _ _ dist dpat =>
          if mayWork s eng c = false ∨ (getChan s (eng / 4) ch).cst ≠ 1 ∨ c.sent ≠ none then .next s
          else match checkSegment s (eng / 4) c (src + c.at_) (copyDest dst dist dpat.toNat c.at_)
              (segmentLen src dst len dist dpat.toNat c.at_) with
            | .fail t => .next (failCmd (leaveChannel s (eng / 4) ch 4) eng c t)
            | _ => .next s
        | _ => .next s

end Sys2Proof.Machine
end

