-- ==== Sys2Proof/Machine/Jobs.lean ====
section
/-! DEFINITION. Machine/Jobs.lean: when a job is live (R134), what its end frees (R256, R320), and the kill of a job (R409). -/

namespace Sys2Proof.Machine

/-! ### Commands wherever they stand -/

/-- The numbers of the engines. -/
def engineNumbers (s : State) : List Nat :=
  (s.clusters.flatMap fun e => (List.range 4).map fun i => e.1 * 4 + i) ++ (List.range 8).map swapOf

/-- Every captured command that has not ended: at an engine, on a channel, or saved by a gang switch. -/
def allCmds (s : State) : List Cmd :=
  (engineNumbers s).flatMap (fun n => engineCmds (getEngine s n))
    ++ s.clusters.flatMap (fun e => e.2.chans.flatMap fun c => c.2.cur.toList ++ c.2.queue)
    ++ s.switches.flatMap fun w => w.cmds.map (·.cmd)

/-- The channels of the module: cluster and number. -/
def channelNumbers (s : State) : List (Nat × Nat) :=
  s.clusters.flatMap fun e => (List.range 8).map fun i => (e.1, i)

/-- End the commands of an engine that meet a test. -/
def endAtEngine (p : Nat → Cmd → Bool) (fin : State → Nat → Cmd → State) (s : State) (n : Nat) : State :=
  ((engineCmds (getEngine s n)).filter (p n)).foldl (fun s c => fin s n c) s

/-- End the copy of a channel and its queued commands that meet a test. -/
def endAtChannel (p : Nat → Cmd → Bool) (fin : State → Nat → Cmd → State) (s : State) (x : Nat × Nat) : State :=
  let n := copyOf x.1
  let k := getChan s x.1 x.2
  let s := match k.cur with
    | some c => if p n c then fin (leaveChannel s x.1 x.2 4) n c else s
    | none => s
  let gone := k.queue.filter (p n)
  let k := getChan s x.1 x.2
  gone.foldl (fun s c => fin s n c) (setChan s x.1 x.2 { k with queue := k.queue.filter fun c => !(p n c) })

/-- End every command on the module that meets a test, gang switches apart. -/
def endCmds (s : State) (p : Nat → Cmd → Bool) (fin : State → Nat → Cmd → State) : State :=
  (channelNumbers s).foldl (endAtChannel p fin) ((engineNumbers s).foldl (endAtEngine p fin) s)

/-- The page of a swap-out that is under way, to be undone when its command ends early (R349). -/
def outboundOf (s : State) (eng : Nat) (c : Cmd) : Option (Nat × Nat × Word × PageMove) :=
  match c.op with
  | .swpout va =>
    if (getEngine s eng).running.any fun x => x.entry == c.entry then
      match pageMove s c.tenant va with
      | some (level, w, m) => if m.outbound then some (va, level, w, m) else none
      | none => none
    else none
  | _ => none

/-- A command fails with FCODE Killed (R313), its outbound page resident again (R349). -/
def killCmd (s : State) (eng : Nat) (c : Cmd) : State :=
  let out := outboundOf s eng c
  let s := failQuiet s eng c 64
  match out with
  | some (va, level, w, m) => undoSwapOut s c.tenant level va w m
  | none => s

/-! ### Live jobs (R134) -/

/-- A record or command of this job. -/
def recordIs (t j : Nat) (r : TaskRec) : Bool := r.tenant == t && r.job == j
def cmdIs (t j : Nat) (c : Cmd) : Bool := c.tenant == t && c.job == j

/-- A packet of this job. -/
def pktIs (t j : Nat) (p : Pkt) : Bool := p.tenant == t && p.job == j

/-- A line, a task record or a command of the job exists on this module (R134). -/
def jobLive (s : State) (t j : Nat) : Bool :=
  (allLines s).any (fun x => x.tenant == t && jobOf s x == j)
    || s.cores.any (fun e => (e.2.ring ++ e.2.deque).any (recordIs t j))
    || (allCmds s).any (cmdIs t j)

/-! ### The end of a job (R256, R320) -/

/-- Every guard slot that meets a test is freed, its GEN advanced (R320, R380). -/
def freeGuards (s : State) (p : GuardSlot → Bool) : State :=
  (s.clusters.map (·.1)).foldl (fun s cl => (List.range 16).foldl (fun s i =>
    if (getGuard s cl i).state ≠ 0 ∧ p (getGuard s cl i) = true then freeGuard s cl i else s) s) s

/-- The entries of a window freed, GEN + 1 (R256). -/
def freedWindow (x : Slice) (w : Window) : Slice :=
  { x with entries := (List.range w.len).foldl (fun t i =>
      tabPut TicketEntry.zero (w.base + i) (freedTicket (tabGet TicketEntry.zero (w.base + i) t)) t) x.entries }

/-- A slice without the windows that meet a test. -/
def withoutWindows (p : Window → Bool) (x : Slice) : Slice :=
  let y := (x.windows.filter p).foldl freedWindow x
  { y with windows := y.windows.filter fun w => !(p w) }

/-- Every window that meets a test is gone, its entries freed. -/
def endWindows (s : State) (p : Window → Bool) : State :=
  { s with slices := s.slices.map fun e => (e.1, withoutWindows p e.2) }

/-- What the end of a job frees: its guard slots and its tickets with their windows. -/
def endJob (s : State) (t j : Nat) : State :=
  endWindows (freeGuards s fun g => g.tenant == t && g.job == j) fun w => w.tenant == t && w.job == j

/-! ### Kill (R408, R409, R472) -/

/-- The save area of a job is discarded: its saved commands end as killed (R472). -/
def dropSwitch (s : State) (t j : Nat) : State :=
  let mine := fun (w : Switch) => w.tenant == t && w.job == j
  let s := ((s.switches.filter mine).flatMap (·.cmds)).foldl (fun s c =>
    modJob (failQuiet s c.eng c.cmd 64) c.eng c.cmd.entry fun e => { e with withdrawn := false }) s
  { s with switches := s.switches.filter fun w => !(mine w) }

/-- Kill every line that meets a test. -/
def killLines (s : State) (p : LiveLine → Bool) : State := (s.lines.filter p).foldl killLine s

/-- Every task record that meets a test is gone, with no decrement of its join counter. -/
def dropRecords (s : State) (p : TaskRec → Bool) : State :=
  let core := fun (c : Core) => { c with deque := c.deque.filter fun r => !(p r), ring := c.ring.filter fun r => !(p r) }
  { s with cores := s.cores.map fun e => (e.1, core e.2) }

/-- Every packet that meets a test is gone. -/
def dropPkts (s : State) (p : Pkt → Bool) : State :=
  { s with net := s.net.filter fun x => !(p x), watch := s.watch.filter fun x => !(p x) }

/-- Kill a job (R409): its commands, lines, records, tickets and packets. -/
def killJob (s : State) (t j : Nat) : State :=
  let s := endCmds s (fun _ c => cmdIs t j c) killCmd
  let s := dropSwitch s t j
  let s := killLines s fun x => x.tenant == t && jobOf s x == j
  let s := dropPkts (dropRecords s (recordIs t j)) (pktIs t j)
  endJob s t j

end Sys2Proof.Machine
end

