-- ==== Sys2Proof/Machine/Service.lean ====
section
/-! DEFINITION. Machine/Service.lean: the firmware services of R415, called by a level-1 `trap`, by a SERVICE message, or run as a
row of their own. -/

namespace Sys2Proof.Machine

/-- What a service comes to: done with a result for g0, or not yet. -/
inductive Served where
  | done (s : State) (v : Nat)
  | notYet (s : State)

/-! ### Frames (R200, R210) -/

/-- No frame in use overlaps a frame of `level` at `base`. -/
def frameFree (s : State) (base level : Nat) : Bool :=
  !(s.used.any fun e => decide (e.1 < base + 2 ^ levelShift level) && decide (base < e.1 + 2 ^ levelShift e.2.2))

/-- A frame that may be given out: mappable DRAM, free, of a die that is online or moving, which a program does not see (R200, R438,
R441). -/
def frameGood (s : State) (level base : Nat) : Bool :=
  frameOk level base && frameFree s base level && (match virtOf s (base / 2 ^ 38) with
    | some v => decide ((getDie s v).state < 2)
    | none => false)

/-- A remap holds the die of a frame (R440). -/
def frameHeld (s : State) (base : Nat) : Bool := (homeDie s base).any (dieHeld s)

/-- Where a free frame of `level` must lie if there is one: at the start of a die's DRAM or behind a frame in use. -/
def frameCandidates (s : State) (level : Nat) : List Nat :=
  let z := 2 ^ levelShift level
  (List.range 8).map (· * 2 ^ 38) ++ s.used.map fun e => (e.1 + 2 ^ levelShift e.2.2 + z - 1) / z * z

/-- A frame that may be taken, the device's choice; one on a die that a remap holds only when there is no other. -/
def findFrame (s : State) (level : Nat) : Option Nat × State :=
  let per := dieBytes / 2 ^ levelShift level
  let r := choose s (8 * per)
  let first := r.1 / per * 2 ^ 38 + r.1 % per * 2 ^ levelShift level
  let good := (first :: frameCandidates s level).filter (frameGood s level)
  ((good.find? fun b => !(frameHeld s b)).or good.head?, r.2)

/-- Take a frame for tenant `t`, the device's choice. -/
def takeFrame (s : State) (t level : Nat) : Option (Nat × State) :=
  let r := findFrame s level
  r.1.map fun b => (b, { r.2 with used := tabIns b (t, level) r.2.used })

/-- A frame goes back to the free frames, written zero (R210). -/
def freeFrame (s : State) (base level : Nat) : State :=
  { s with used := tabDel base s.used, memory := memScrub s.memory base (2 ^ levelShift level) }

/-- A packet of tenant `t` that names a page by its virtual address, in a save area or come out of one, is still on its way to the `n`
bytes at `va` (R429, R461). -/
def sweptInto (s : State) (t va n : Nat) : Bool :=
  let into := fun (p : Pkt) => p.tenant == t && (match p.loc with
    | .virt x => decide (va ≤ x) && decide (x < va + n)
    | _ => false)
  s.net.any into || s.switches.any fun w => (w.pkts ++ w.late).any into

/-- A packet still on its way to the `n` bytes from key `k` up, in flight or in a save area, or a ticket fetch that has still to read
there. -/
def pktInto (s : State) (k n : Nat) : Bool :=
  let into := fun (p : Pkt) => match p.loc with
    | .cell x => decide (k ≤ x) && decide (x < k + n)
    | _ => false
  s.net.any into || s.switches.any (fun w => (w.pkts ++ w.late).any into)
    || s.slices.any fun v => v.2.entries.any fun e =>
      e.2.state == 1 && e.2.got.isNone && decide (k ≤ e.2.key) && decide (e.2.key < k + n)

/-! ### Table entries -/

/-- The addresses a table entry covers. -/
def pteSpan (key : Nat) : Nat × Nat :=
  let level := key / 2 ^ 56
  (key % 2 ^ 56 * 2 ^ levelShift level, 2 ^ levelShift level)

/-- A mapping of the tenant overlaps the page. -/
def mappedIn (s : State) (t va n : Nat) : Bool :=
  (getTenant s t).ptab.any fun e => overlaps (pteSpan e.1) (va, n)

/-- Every TLB of the module drops the entries that meet a test (R410, R411). -/
def dropTlb (s : State) (p : TlbEntry → Bool) : State :=
  { s with
    cores := s.cores.map fun e => (e.1, { e.2 with tlb := e.2.tlb.filter fun x => !(p x) })
    clusters := s.clusters.map fun e => (e.1, { e.2 with tlb := e.2.tlb.filter fun x => !(p x) }) }

/-- The attribute bits [11:2] of g3, and the bits outside them. -/
def attrBits (g3 : Nat) : Nat := nbits g3 2 10 * 4
def attrBad (g3 : Nat) : Bool := g3 != attrBits g3

/-- Attributes firmware refuses: X = 1, SWD = 1, a reserved combination (R205), recoding not accepted (R482). -/
def attrRefused (s : State) (g3 level : Nat) (w : Word) : Bool :=
  nbits g3 4 1 == 1 || nbits g3 7 1 == 1 || leafShapeBad level w || (leafRc w != 0 && !(s.accepted.getLsbD 5))

/-- MAP. -/
def svcMap (s : State) (t g1 g2 g3 : Nat) : Served :=
  if 2 < g2 ∨ windowBase ≤ g1 ∨ g1 % 2 ^ levelShift g2 ≠ 0 ∨ attrBad g3 = true then .done s 7
  else if attrRefused s g3 g2 (BitVec.ofNat 64 (3 + attrBits g3)) then .done s 3
  else if mappedIn s t g1 (2 ^ levelShift g2) then .done s 2
  else match takeFrame s t g2 with
    | none => .done s 1
    | some (b, s') =>
      if frameHeld s b then .notYet s
      else .done (setLeaf { s' with memory := memScrub s'.memory b (2 ^ levelShift g2) } t g2 g1
        (BitVec.ofNat 64 (3 + attrBits g3 + b))) 0

/-- The page at an address, checked as UNMAP and PROTECT check it: a result, or level and entry. -/
def svcPage (s : State) (t g1 : Nat) : Except Nat (Nat × Word) :=
  if windowBase ≤ g1 ∨ g1 % 65536 ≠ 0 then .error 7
  else match walkTable (getTenant s t) g1 with
    | none => .error 4
    | some (level, w) => if g1 % 2 ^ levelShift level ≠ 0 then .error 7 else if leafV w then .ok (level, w) else .error 4

/-- A page between states goes back to the state it left (R349). -/
def undoMove (s : State) (t va level : Nat) (w : Word) : State :=
  match tabFind (pteKey level va) (getTenant s t).moves with
  | none => s
  | some m =>
    if m.outbound then undoSwapOut s t level va w m
    else
      let s := modTenant s t fun x => { x with moves := tabDel (pteKey level va) x.moves }
      match m.frame with
      | some f => giveFrame s t f level
      | none => s

/-- The storage of a page that is between no states goes back: its frame, or its flash location. -/
def freePage (s : State) (t level : Nat) (w : Word) : State :=
  if leafSwd w then
    match tabFind (leafAddr w) s.flash with
    | some img =>
      modTenant { s with flash := tabDel (leafAddr w) s.flash } t fun x => { x with flashUse := x.flashUse - img.blocks }
    | none => s
  else if leafRemote w then s
  else freeFrame s (leafAddr w * 65536) level

/-- UNMAP, once no access is on its way to the frame; threads and copies that wait for the page try again. -/
def svcUnmap (s : State) (t g1 : Nat) : Served :=
  match svcPage s t g1 with
  | .error v => .done s v
  | .ok (level, w) =>
    let s1 := undoMove s t g1 level w
    let w1 := ((walkTable (getTenant s1 t) g1).map (·.2)).getD w
    if sweptInto s t g1 (2 ^ levelShift level) || (!(leafSwd w1) && !(leafRemote w1) && pktInto s (leafAddr w1 * 65536) (2 ^ levelShift level)) then
      .notYet s
    else
      let s := freePage s1 t level w1
      let s := modTenant s t fun x => { x with ptab := tabDel (pteKey level g1) x.ptab }
      let s := dropTlb s fun e => tlbHits t g1 e
      .done (resumeCopies (wakePage s t level g1) t level g1) 0

/-- A leaf with the attributes PROTECT replaces. -/
def protectedLeaf (w : Word) (g3 : Nat) : Word :=
  BitVec.ofNat 64 (nbits w.toNat 0 2 + nbits g3 2 2 * 4 + nbits w.toNat 4 1 * 16 + nbits g3 5 2 * 32 + nbits w.toNat 7 1 * 128
    + nbits g3 8 4 * 256 + nbits w.toNat 12 52 * 2 ^ 12)

/-- An access of the tenant to the page was started before and has not been performed (R411). -/
def accessTo (s : State) (all global : Bool) (t page : Nat) : Bool :=
  s.net.any fun p => (global || p.tenant == t) && (all || p.target / 65536 == page / 65536) && decide (p.target < windowBase)
    && isAccess p

/-- PROTECT, once accesses under the old entry have been performed. -/
def svcProtect (s : State) (t g1 g3 : Nat) : Served :=
  if attrBad g3 then .done s 7
  else match svcPage s t g1 with
    | .error v => .done s v
    | .ok (level, w) =>
      let w1 := protectedLeaf w g3
      if leafX w then .done s 5
      else if attrRefused s g3 level w1 then .done s 3
      else if !(leafSwd w) && pktInto s (leafAddr w * 65536) (2 ^ levelShift level) then .notYet s
      else .done (dropTlb (setLeaf s t level g1 w1) fun e => tlbHits t g1 e) 0

/-! ### Granules (R185, R210) -/

/-- A granule at a window address: its key, its first cell, its size, its die, and whether it may be owned (R184). -/
def granuleAt (s : State) (va : Nat) : Option (Nat × Nat × Nat × Nat × Bool) :=
  match regionOf va with
  | .vault cl off => some (vaultGranule cl off, vaultKey cl (off / 65536 * 65536), 65536, dieOfCluster cl,
      decide (off < vaultData s cl))
  | .localStore c off => some (localGranule c off, localKey c (off / 4096 * 4096), 4096, dieOf c, true)
  | _ => none

/-- The key and size of a granule of the ownership table. -/
def granulePlace (gr : Nat) : Nat × Nat :=
  if gr < 2 ^ 20 then (vaultKey (gr / 256) (gr % 256 * 65536), 65536)
  else (localKey ((gr - 2 ^ 20) / 32) ((gr - 2 ^ 20) % 32 * 4096), 4096)

/-- A scrub has cleared full bits of the `n` bytes from key `k` up, as they stood in `m`: the waits on their words are woken (R147). -/
def wakeEmptied (s : State) (m : Memory) (k n : Nat) : State :=
  sendWakes s fun x w => waitKind w == 2 && (match cellOf s x.tenant (waitTarget w) with
    | some i => m.full.any fun f => decide (k ≤ f) && decide (f < k + n) && i / 256 == f / 256
    | none => false)

/-- The clearing that a talloc asked for still has to be done in granule `gr` (R185, R194). -/
def scrubIn (s : State) (gr : Nat) : Bool :=
  s.clusters.any fun k => k.2.tdt.any fun e => e.2.state == 1 && e.2.ranges.any fun r =>
    decide (vaultGranule k.1 r.1 ≤ gr) && decide (gr ≤ vaultGranule k.1 (r.1 + r.2 - 1))

/-- GRANT: take or give back. A granule of an offline or lost die is not free (R438). -/
def svcGrant (s : State) (t g1 g2 : Nat) : Served :=
  match (if g2 < 2 ∧ g1 < 2 ^ 56 then granuleAt s g1 else none) with
  | none => .done s 7
  | some (gr, k, n, die, ownable) =>
    if g2 = 1 then
      if ownable = false ∨ (tabFind gr s.owner).isSome = true ∨ 2 ≤ (getDie s die).state then .done s 6
      else if dieHeld s die ∨ pktInto s k n = true then .notYet s
      else .done { s with owner := tabIns gr t s.owner, memory := memScrub s.memory k n } 0
    else if owns s t gr = false then .done s 6
    else if dieHeld s die ∨ pktInto s k n = true ∨ scrubIn s gr = true then .notYet s
    else .done (wakeEmptied { s with owner := tabDel gr s.owner, memory := memScrub s.memory k n } s.memory k n) 0

/-! ### Push masks, jobs, allotments, counters -/

/-- PUSHMASK. -/
def svcPushmask (s : State) (t g1 g2 : Nat) : Served :=
  if 2048 ≤ g1 ∨ g1 % 8 ≠ 0 ∨ g2 % 32 ≠ 0 then .done s 7
  else match locate s ⟨t, 0, 1, .walk⟩ .load g2 0 with
    | .error (.page va) => .notYet (startSwapIn s t va)
    | .error .hold => .notYet s
    | .error (.trap _) => .done s 7
    | .ok loc =>
      if locPoisoned s loc 32 || isRemote loc then .done s 7
      else
        .done (modTenant s t fun x =>
          { x with push := tabPut (BitVec.allOnes 256) (g1 / 8) (BitVec.ofNat 256 (readLoc s t loc 32)) x.push }) 0

/-- KILLJOB. -/
def svcKilljob (s : State) (t g1 : Nat) : Served := if 65536 ≤ g1 then .done s 7 else .done (killJob s t g1) 0

/-- SWAPALLOT: the request rounded up to 4 KiB, or less, the device's choice; never below what the images hold. -/
def svcSwapallot (s : State) (t g1 : Nat) : Served :=
  let want := min ((g1 + 4095) / 4096) (2 ^ 52 - 1)
  let r := choose s (want + 1)
  let granted := max (want - r.1) (getTenant r.2 t).flashUse
  .done (modTenant r.2 t fun x => { x with allot := granted }) (granted * 4096)

/-- COUNTER: take or give back (R148). -/
def svcCounter (s : State) (t g1 g2 : Nat) : Served :=
  if 2 ^ 17 ≤ g1 ∨ 2 ≤ g2 then .done s 7
  else
    let c := counterCore g1
    let e := getCounter s c (counterIndex g1)
    if 2 ≤ (getDie s (dieOf c)).state then .done s 8
    else if dieHeld s (dieOf c) then .notYet s
    else if g2 = 1 then
      if e.valid then .done s 8 else .done (setCounter s c (counterIndex g1) ⟨0, 0, t, true, false⟩) 0
    else if e.valid = true ∧ e.tenant = t then .done (wakeCounter (setCounter s c (counterIndex g1) Counter0) g1) 0
    else .done s 8

/-- Service `n` for tenant `t` (R415). -/
def service (s : State) (t n g1 g2 g3 : Nat) : Served :=
  match n with
  | 1 => svcMap s t g1 g2 g3
  | 2 => svcUnmap s t g1
  | 3 => svcProtect s t g1 g3
  | 4 => svcGrant s t g1 g2
  | 5 => svcPushmask s t g1 g2
  | 6 => svcKilljob s t g1
  | 7 => svcSwapallot s t g1
  | 8 => svcCounter s t g1 g2
  | _ => .done s (2 ^ 64 - 1)

/-! ### The rows of the services -/

/-- A service that firmware runs for a live tenant; its result stands in `svc`. -/
def runService (s : State) (t n : Nat) (g1 g2 g3 : Word) : Host.Outcome State Fault Refusal :=
  if (getTenant s t).live then
    match service s t n g1.toNat g2.toNat g3.toNat with
    | .done s' v => .next { s' with svc := BitVec.ofNat 64 v }
    | .notYet s' => .next s'
  else .next s

def execMap (tn : Nat) (g1 g2 g3 : Word) (s : State) : Host.Outcome State Fault Refusal := runService s tn 1 g1 g2 g3

def execUnmap (tn : Nat) (g1 : Word) (s : State) : Host.Outcome State Fault Refusal := runService s tn 2 g1 0 0

def execProtect (tn : Nat) (g1 g3 : Word) (s : State) : Host.Outcome State Fault Refusal := runService s tn 3 g1 0 g3

def execGrantTake (tn : Nat) (g1 : Word) (s : State) : Host.Outcome State Fault Refusal := runService s tn 4 g1 1 0

def execGrantGiveBack (tn : Nat) (g1 : Word) (s : State) : Host.Outcome State Fault Refusal := runService s tn 4 g1 0 0

def execPushmask (tn : Nat) (g1 g2 : Word) (s : State) : Host.Outcome State Fault Refusal := runService s tn 5 g1 g2 0

def execKilljob (tn : Nat) (g1 : Word) (s : State) : Host.Outcome State Fault Refusal := runService s tn 6 g1 0 0

def execSwapallot (tn : Nat) (g1 : Word) (s : State) : Host.Outcome State Fault Refusal := runService s tn 7 g1 0 0

def execCounterTake (tn : Nat) (g1 : Word) (s : State) : Host.Outcome State Fault Refusal := runService s tn 8 g1 1 0

def execCounterGiveBack (tn : Nat) (g1 : Word) (s : State) : Host.Outcome State Fault Refusal := runService s tn 8 g1 0 0

end Sys2Proof.Machine
end

