-- ==== Sys2Proof/Machine/System.lean ====
section
/-! DEFINITION. Machine/System.lean: the system instructions of a thread (R416 to R427): trap, the status registers, the return
from a trap, line control, tlbinv, halt and seal. `transit` and `gsw` stand with the units they start. -/

namespace Sys2Proof.Machine

/-! ### trap (R417) -/

/-- A service asked by the issuing line: its result in g0 (R415); a caller that its own KILLJOB kills is gone. -/
def serviceCall (n : Nat) (c : Ctx) (s : State) : Res :=
  let g := fun i => (getG c.t.line i).toNat
  match service s c.who.tenant n (g 1) (g 2) (g 3) with
  | .notYet s' => .retry s' c.t.req c.t.replies
  | .done s' v =>
    if n = 6 ∧ v = 0 ∧ g 1 = c.who.job then .leave (killLine s' c.t)
    else .ok s' { c.t with line := setG c.t.line 0 (BitVec.ofNat 64 v) 0 }

/-- The level of the issuing line. -/
def issuingLevel (s : State) : Nat :=
  match s.thr with
  | some t => t.line.tlvl.toNat
  | none => 0

/-- trap: a firmware service at level 1, which reads g1 to g3 and writes g0; SoftTrap at levels 0 and 2. -/
def execTrap (g : BitVec 4) (i : BitVec 16) (s : State) : Host.Outcome State Fault Refusal :=
  issueWord (hdr g (if issuingLevel s = 1 then [0, 1, 2, 3] else [])) (fun c s =>
    if c.who.level = 1 then serviceCall i.toNat c s else .trap (mkTrap 13 i.toNat 0)) s

/-! ### Status registers (R413, R414, R418) -/

/-- GUARD_STATE: 16 fields of 4 bits (R319). -/
def guardStateWord (s : State) (cl t : Nat) : Word :=
  BitVec.ofNat 64 ((List.range 16).foldl (fun n i =>
    let e := getGuard s cl i
    n + (e.state + b2n (e.state != 0 && e.tenant == t) * 4) * 16 ^ i) 0)

/-- LS_GRANT (R185). -/
def lsGrant (s : State) (core t : Nat) : Nat :=
  (List.range 32).foldl (fun n i => n + b2n (owns s t (localGranule core (4096 * i))) * 2 ^ i) 0

/-- The value of status register `n` for a line on core `core`; none for an unassigned number. -/
def csrValue (s : State) (l : Line) (core n : Nat) : Option Word :=
  let x := getTenant s l.tenant.toNat
  let cl := clusterOf core
  let nat := fun v => some (BitVec.ofNat 64 v)
  match n with
  | 0x000 => nat core
  | 0x001 => nat l.tenant.toNat
  | 0x002 => some (s.accepted.extractLsb' 0 64)
  | 0x003 => some (s.accepted.extractLsb' 64 64)
  | 0x004 => some (s.accepted.extractLsb' 128 64)
  | 0x005 => some (s.accepted.extractLsb' 192 64)
  | 0x008 => nat (l.rmode.toNat + l.fen.toNat * 4)
  | 0x009 => nat l.fflg.toNat
  | 0x00A => nat l.hwin.toNat
  | 0x010 => nat 64
  | 0x011 => some lastDepthWord
  | 0x012 => nat 0x10001000
  | 0x013 => nat ((getCluster s cl).cl2Mib * 8192)
  | 0x014 => nat (vaultData s cl)
  | 0x015 => nat (lsGrant s core l.tenant.toNat)
  | 0x016 => some (guardStateWord s cl l.tenant.toNat)
  | 0x017 => nat (helioCore s cl)
  | 0x018 => nat x.qbounce.toNat
  | 0x019 => nat x.tkNull.toNat
  | 0x01A => nat (poolFree s l.tenant.toNat)
  | 0x01B => nat (getCore s core).spillLog
  | 0x020 => some x.trapvec
  | 0x021 => some x.fqBase
  | 0x022 => nat x.fqLog2
  | 0x023 => nat x.fqHead.toNat
  | 0x024 => nat x.fqTail.toNat
  | 0x025 => nat x.fqLost.toNat
  | 0x026 => nat x.fqMbx.toNat
  | 0x028 => some x.ctxBase
  | 0x029 => nat x.ctxLines
  | 0x02A => some x.qtabBase
  | 0x02B => nat x.qtabLen
  | 0x02C => nat x.tkQuota
  | _ => none

/-- The lowest level that reaches a register (R413). -/
def csrLevel (n : Nat) : Nat := if n < 0x20 then 0 else 1

/-- csrr. -/
def execCsrr (g : BitVec 4) (d : Reg) (n : BitVec 16) (s : State) : Host.Outcome State Fault Refusal :=
  issueWord (hdrPriv g [d] (csrLevel n.toNat) (.csrr g d n)) (fun c s =>
    match csrValue s c.t.line c.core n.toNat with
    | some v => .ok s { c.t with line := setG c.t.line d v 0 }
    | none => .trap (trapEmulation ((encodeNat (.csrr g d n)).getD 0))) s

/-- A queue of the tenant is not free, or its entry cannot be read now. -/
inductive QueuesSeen where
  | free
  | busy
  | wait (va : Nat)
  | hold
  deriving DecidableEq, Repr

/-- Look at the table entries from number `q` up. An entry whose page is not mapped names a free queue. -/
def queuesFrom (s : State) (t : Nat) : Nat → Nat → QueuesSeen
  | 0, _ => .free
  | n + 1, q =>
    match entryLoc s t 0 .walk q with
    | .ok k => if (readEntry s.memory k).state ≠ 0 then .busy else queuesFrom s t n (q + 1)
    | .error (.page va) => .wait va
    | .error .hold => .hold
    | .error (.trap _) => queuesFrom s t n (q + 1)

/-- A write of `v` to a T register is refused (R414). -/
def csrBad (x : Tenant) (t : State) (tn n v : Nat) : Bool :=
  match n with
  | 0x020 => decide (2 ^ 56 ≤ v) || v % 2048 != 0
  | 0x021 => decide (2 ^ 56 ≤ v) || v % (32 * 2 ^ x.fqLog2) != 0 || x.fqHead != x.fqTail
  | 0x022 => decide (v < 4) || decide (16 < v) || x.fqBase.toNat % (32 * 2 ^ v) != 0 || x.fqHead != x.fqTail
  | 0x023 => decide (2 ^ 32 ≤ v) || decide ((x.fqTail - x.fqHead).toNat < (BitVec.ofNat 32 v - x.fqHead).toNat)
  | 0x026 => decide (2 ^ 18 ≤ v)
  | 0x028 => decide (2 ^ 56 ≤ v) || v % 65536 != 0 || poolFree t tn != x.ctxLines
  | 0x029 => poolFree t tn != x.ctxLines
  | 0x02A => decide (2 ^ 56 ≤ v) || v % 32 != 0
  | 0x02B => decide (2 ^ 20 < v)
  | 0x02C => v == 0 || decide (1024 < v)
  | _ => true

/-- The tenant with a T register written. -/
def csrSet (x : Tenant) (n v : Nat) : Tenant :=
  match n with
  | 0x020 => { x with trapvec := BitVec.ofNat 64 v }
  | 0x021 => { x with fqBase := BitVec.ofNat 64 v }
  | 0x022 => { x with fqLog2 := v }
  | 0x023 => { x with fqHead := BitVec.ofNat 32 v }
  | 0x026 => { x with fqMbx := BitVec.ofNat 18 v }
  | 0x028 => { x with ctxBase := BitVec.ofNat 64 v }
  | 0x029 => { x with ctxLines := v, poolNote := x.poolNote && v == 0 }
  | 0x02A => { x with qtabBase := BitVec.ofNat 64 v }
  | 0x02B => { x with qtabLen := v }
  | 0x02C => { x with tkQuota := v }
  | _ => x

/-- csrw of register `n` from gA (R414, R418, R30). -/
def writeCsr (n : Nat) (a : Reg) (c : Ctx) (s : State) : Res :=
  match checkTags c.t.line [(a, [0])] with
  | some e => .trap e
  | none =>
    let l := c.t.line
    let v := (getG l a).toNat
    let t := c.who.tenant
    let x := getTenant s t
    match n with
    | 0x008 => .ok s { c.t with line := { l with rmode := BitVec.ofNat 2 v, fen := BitVec.ofNat 5 (v / 4) } }
    | 0x009 => .ok s { c.t with line := { l with fflg := BitVec.ofNat 5 v } }
    | 0x00A => if 2 ^ 32 ≤ v then .trap (trapRange a) else .ok s { c.t with line := { l with hwin := BitVec.ofNat 32 v } }
    | _ =>
      if csrBad x s t n v then .trap (trapRange a)
      else
        let done := Res.ok (modTenant s t fun x => csrSet x n v) c.t
        if n = 0x02A ∨ n = 0x02B then
          match queuesFrom s t x.qtabLen 0 with
          | .free => done
          | .busy => .trap (trapRange a)
          | .wait va => .retry (startSwapIn s t va) c.t.req c.t.replies
          | .hold => .retry s c.t.req c.t.replies
        else done

/-- The issue of a csrw of register `n`. -/
def issueCsrw (g : BitVec 4) (a : Reg) (n : BitVec 16) (s : State) : Host.Outcome State Fault Refusal :=
  issueWord (hdrPriv g [a] (csrLevel n.toNat) (.csrw g a n)) (writeCsr n.toNat a) s

def execCsrw (g : BitVec 4) (a : Reg) (n : BitVec 16) (s : State) : Host.Outcome State Fault Refusal := issueCsrw g a n s

/-- csrw to FMODE (R30). -/
def execFmodeWrite (g : BitVec 4) (a : Reg) (s : State) : Host.Outcome State Fault Refusal := issueCsrw g a 0x008 s

/-- csrw to FFLAGS (R44). -/
def execFflagsWrite (g : BitVec 4) (a : Reg) (s : State) : Host.Outcome State Fault Refusal := issueCsrw g a 0x009 s

/-- csrw to FQ_HEAD (R414). -/
def execFqHeadWrite (g : BitVec 4) (a : Reg) (s : State) : Host.Outcome State Fault Refusal := issueCsrw g a 0x023 s

/-- csrw to CTXPOOL_BASE (R138). -/
def execCtxpoolBaseWrite (g : BitVec 4) (a : Reg) (s : State) : Host.Outcome State Fault Refusal := issueCsrw g a 0x028 s

/-- csrw to CTXPOOL_LINES (R138). -/
def execCtxpoolLinesWrite (g : BitVec 4) (a : Reg) (s : State) : Host.Outcome State Fault Refusal := issueCsrw g a 0x029 s

/-! ### Claimed lines (R407, R419 to R422) -/

/-- The line that gA names, claimed by the issuing line. -/
def heldLine (s : State) (c : Ctx) (a : Reg) (k : LiveLine → Res) : Res :=
  let va := (getG c.t.line a).toNat
  match findLine s c.t.tenant va with
  | none => .trap (trapRange a)
  | some y =>
    if va % 128 ≠ 0 ∨ y.clm = false ∨ y.holder ≠ c.t.addr ∨ releasing s y = true ∨ y.place ≠ .dram then .trap (trapRange a)
    else if msgAhead s y.tenant y.addr then .retry s c.t.req c.t.replies
    else match locate s c.who .store va 0 with
      | .error e => stopRes s c e
      | .ok _ => k y

/-- The word at a code address is an hmod (R67); a word that cannot be fetched is none; one on a swapped page, or on a die that holds
accesses, is waited for (R206, R440). -/
def hmodAt (s : State) (t : Nat) (pc : BitVec 48) : Except Stop Bool :=
  match locate s ⟨t, 0, 0, .walk⟩ .fetch pc.toNat 0 with
  | .ok (.cell k) => .ok (memRead s.memory k 4 / 2 ^ 24 == 0xFE)
  | .ok _ => .ok false
  | .error (.trap _) => .ok false
  | .error e => .error e

/-- Whether the word at the line's PC is an hmod, when `ADV` needs to know (R419). -/
def advWord (s : State) (t : Nat) (y : LiveLine) (f : BitVec 3) : Except Stop Bool :=
  if f.getLsbD 0 then hmodAt s t (((contentOf s y).getD y.line).pc) else .ok false

/-- rft: the image is changed, the claim released, once the handler's stores have been performed (R419, R32) and its earlier reads too,
which R227 orders before the resumed line. -/
def execRft (g : BitVec 4) (a f : Reg) (s : State) : Host.Outcome State Fault Refusal :=
  issueWord (hdrPriv g [a] 1 (.rft g a f)) (fun c s =>
    match checkTags c.t.line [(a, [0])] with
    | some e => .trap e
    | none =>
      heldLine s c a fun y =>
        if c.t.stores ≠ 0 then .drain s .stores
        else if readsDone s c.t.tenant c.t.addr = false then .bounce s
        else match advWord s c.who.tenant y f with
          | .error e => stopRes s c e
          | .ok h =>
            let s' := editLine s y fun l => returnLine l f h
            .ok (releaseLine s' ((findLine s' c.t.tenant y.addr).getD y) (releasedTag (tagOf s' y))) c.t) s

/-- A line out of its slot after its word, ready in its core's CL1, at `pc` (R420, R122). -/
def outOfSlot (s : State) (t : LiveLine) (core : Nat) (pc : BitVec 48) : LiveLine :=
  { atPc (agedLine s t) pc with place := .cl1 core, count := 0, forfeit := 0, norm := false, normWait := false, passed := 0 }

/-- cevict with S = 1 (R420). -/
def execCevictSelf (g : BitVec 4) (s : State) : Host.Outcome State Fault Refusal :=
  issueWord (hdr g []) (fun c s => .leave (putLine s (outOfSlot s c.t c.core (c.p + 4)))) s

/-- cevict with S = 0: the named line is wanted in its image; the instruction ends when it has been there (R420, R156). A gA that names
no live line changes nothing (log entry 92). -/
def execCevict (g : BitVec 4) (a : Reg) (s : State) : Host.Outcome State Fault Refusal :=
  issueWord (hdrPriv g [a] 1 (.cevict g a)) (fun c s =>
    match checkTags c.t.line [(a, [0])] with
    | some e => .trap e
    | none =>
      let va := (getG c.t.line a).toNat
      if va = c.t.addr then .trap (trapRange a)
      else match findLine s c.t.tenant va with
        | none => .ok s c.t
        | some y =>
          if y.clm = true ∨ y.place = .dram then .ok s c.t
          else if c.t.replies = [] ∧ msgAhead s y.tenant y.addr = true then .retry s none []
          else if c.t.replies = [] then .retry (putLine s { y with pull := true }) none [0]
          else if y.pull then .retry s none c.t.replies
          else .ok s c.t) s

/-- The leaf of an address is a context page. -/
def ctxPage (s : State) (who : Who) (va : Nat) : Bool :=
  decide (va < windowBase) && (match findLeaf s who va with
    | some (_, w) => leafCtx w
    | none => false)

/-- A claim is taken at the home directory: the line is held by `holder`, and its live copy is called to DRAM (R407, R434). -/
def takeClaim (s : State) (y : LiveLine) (holder : Nat) : State :=
  let s := leaveReady s y.tenant y.addr
  match y.place with
  | .dram =>
    let s := putLine s { y with clm := true, holder := holder }
    match cellOf s y.tenant y.addr, remoteImage s y.tenant y.addr with
    | some k, _ => { s with memory := memWrite s.memory (k + 120) 4 ((memLine s.memory k).lver + 1).toNat }
    | none, some r =>
      let l := { y.line with lver := y.line.lver + 1 }
      putLine (sendImage s y l r.1 r.2) { y with clm := true, holder := holder, line := l }
    | none, none => s
  | _ => putLine s { y with clm := true, holder := holder, pull := true, verDue := true }

/-- The status of a cclaim in gD. -/
def claimDone (c : Ctx) (d : Reg) (v : Nat) (s : State) : Res :=
  .ok s { c.t with line := setG c.t.line d (BitVec.ofNat 64 v) 0 }

/-- cclaim at the home directory: claimed once the live copy is in DRAM and its stores are performed (R421), in the order of arrival there
(R436). While a gang switch has the line's job, every claim waits (R472). -/
def claimAt (s : State) (c : Ctx) (d : Reg) (va : Nat) : Res :=
  match findLine s c.t.tenant va with
  | none => claimDone c d 2 s
  | some y =>
    if jobFrozen s y.tenant (jobOf s y) then .retry s none c.t.replies
    else if c.t.replies ≠ [] then
      if y.clm = true ∧ y.holder = c.t.addr then
        if y.place = .dram ∧ y.stores = 0 then claimDone c d 0 s else .retry s none c.t.replies
      else claimDone c d 1 s
    else if y.clm then claimDone c d 1 s
    else if msgAhead s y.tenant y.addr then .retry s none []
    else .retry (takeClaim s y c.t.addr) none [0]

/-- cclaim (R421). The page is checked for CTX with the permissions, before a swapped page is waited for (R206). A line whose home is on
another member is not seen here unless it came here (log entry 23). -/
def execCclaim (g : BitVec 4) (d a : Reg) (s : State) : Host.Outcome State Fault Refusal :=
  issueWord (hdrPriv g [d, a] 1 (.cclaim g d a)) (fun c s =>
    match checkTags c.t.line [(a, [0])] with
    | some e => .trap e
    | none =>
      let va := (getG c.t.line a).toNat
      if va % 128 ≠ 0 then .trap (trapAlign 128 va)
      else match locate s c.who .store va 0 with
        | .error (.trap e) => .trap e
        | .error e => if ctxPage s c.who va then stopRes s c e else .trap (trapPermission true false false va)
        | .ok _ =>
          if ctxPage s c.who va = false then .trap (trapPermission true false false va)
          else if va = c.t.addr then .trap (trapRange a)
          else claimAt s c d va) s

/-- cpark: release, park or kill the claimed line (R422). -/
def execCpark (g : BitVec 4) (a b : Reg) (s : State) : Host.Outcome State Fault Refusal :=
  issueWord (hdrPriv g [a, b] 1 (.cpark g a b)) (fun c s =>
    match checkTags c.t.line [(a, [0]), (b, [0])] with
    | some e => .trap e
    | none =>
      heldLine s c a fun y =>
        match (getG c.t.line b).toNat with
        | 0 => .ok (releaseLine s y (releasedTag (tagOf s y))) c.t
        | 1 => .ok (releaseLine s y (waitTag 10 0)) c.t
        | 2 => .ok (killLine s y) c.t
        | _ => .trap (trapRange b)) s

/-! ### Translations and tenants (R424, R426, R427) -/

/-- Wait in the slot until the invalidation begun for this instruction is complete (R411). -/
def untilMarked (c : Ctx) (s : State) (start : Nat × State) : Res :=
  match c.t.replies with
  | [] => .retry start.2 none [BitVec.ofNat 64 start.1]
  | w :: _ => if s.invals.any fun i => i.id == w.toNat then .retry s none c.t.replies else .ok s c.t

/-- tlbinv (R424). -/
def execTlbinv (g : BitVec 4) (a b : Reg) (s : State) : Host.Outcome State Fault Refusal :=
  issueWord (hdrPriv g [a, b] 2 (.tlbinv g a b)) (fun c s =>
    match checkTags c.t.line [(a, [0]), (b, [0])] with
    | some e => .trap e
    | none =>
      let va := (getG c.t.line a).toNat
      let sel := (getG c.t.line b).toNat
      let all := nbits sel 8 1 == 1
      let global := nbits sel 9 1 == 1
      if 2 ^ 10 ≤ sel ∨ (global = true ∧ all = false) then .trap (trapRange b)
      else if all = false ∧ (va % 65536 ≠ 0 ∨ windowBase ≤ va) then .trap (trapRange a)
      else untilMarked c s (beginInval s all global (nbits sel 0 8) va)) s

/-- Halt or resume a tenant (R426). -/
def setHalt (s : State) (t : Nat) (h : Bool) : State := modTenant s t fun x => { x with halted := h }

/-- halt (R426). -/
def execHalt (g : BitVec 4) (a b : Reg) (s : State) : Host.Outcome State Fault Refusal :=
  issueWord (hdrPriv g [a, b] 2 (.halt g a b)) (fun c s =>
    match checkTags c.t.line [(a, [0]), (b, [0])] with
    | some e => .trap e
    | none =>
      let t := (getG c.t.line a).toNat
      if 2 ^ 8 ≤ t then .trap (trapRange a)
      else match (getG c.t.line b).toNat with
        | 0 => .ok (setHalt s t true) c.t
        | 1 => .ok (setHalt s t false) c.t
        | _ => .trap (trapRange b)) s

/-- The outcome of the checks of seal on a page (R427): a trap, nothing more to do, or the page to seal. -/
inductive SealCheck where
  | trap (t : Trap)
  | done
  | page (level : Nat) (w : Word)
  deriving DecidableEq, Repr

/-- The checks of seal, in order (R427), with the reserved combinations its walk may meet (R205). A remote page cannot be sealed (R446)
and counts as not mapped (log entry 24). -/
def sealCheck (s : State) (t va : Nat) : SealCheck :=
  if 2 ^ 48 ≤ va then .trap (trapPageFault false va)
  else match walkTable (getTenant s t) va with
    | none => .trap (trapPageFault false va)
    | some (level, w) =>
      if leafV w = false ∨ leafRemote w = true then .trap (trapPageFault false va)
      else if leafShapeBad level w then .trap (trapPageTable level va)
      else if leafCtx w then .trap (trapPermission false true false va)
      else if leafR w = false then .trap (trapPermission false false false va)
      else if leafX w then .done
      else .page level w

/-- A leaf with W := 0 and X := 1. -/
def sealedLeaf (w : Word) : Word := (w &&& ~~~(8 : Word)) ||| 16

/-- Every marker has returned: no write is under way to the page, which is executable now (R243, R427). -/
def sealDone (s : State) (t va : Nat) : State :=
  match walkTable (getTenant s t) va with
  | some (level, w) =>
    if leafV w && !(leafW w) && leafR w && !(leafCtx w) then dropTlb (setLeaf s t level va (sealedLeaf w)) fun e => tlbHits t va e else s
  | none => s

/-- A leaf with W := 0. -/
def readOnlyLeaf (w : Word) : Word := w &&& ~~~(8 : Word)

/-- seal (R427): the page can be written no more, and it is executable when every marker of its invalidation has returned (R243). -/
def execSeal (g : BitVec 4) (a : Reg) (s : State) : Host.Outcome State Fault Refusal :=
  issueWord (hdrPriv g [a] 1 (.seal g a)) (fun c s =>
    match checkTags c.t.line [(a, [0])] with
    | some e => .trap e
    | none =>
      let va := (getG c.t.line a).toNat
      let t := c.who.tenant
      if c.t.replies ≠ [] then
        match untilMarked c s (0, s) with
        | .ok s' t' => .ok (sealDone s' t va) t'
        | r => r
      else match sealCheck s t va with
        | .trap e => .trap e
        | .done => .ok s c.t
        | .page level w =>
          untilMarked c s (beginInval (setLeaf s t level va (readOnlyLeaf w)) false false t (pageBase level va))) s

end Sys2Proof.Machine
end

