-- ==== Sys2Proof/Machine/Host.lean ====
section
/-! DEFINITION. Machine/Host.lean: the messages of the host port (R455 to R457), launches and their completion (R130 to R135),
tenants (R211, R473, R475), gang maps (R445), and what the host reads of the module (R437, R481, R487). -/

namespace Sys2Proof.Machine

/-! ### Messages -/

/-- The answer to a message: 0 done, 1 refused, 2 rejected launch (R457). -/
def ackHost (s : State) (tag : BitVec 32) (status : Nat) : State := toHost s (.ack tag status)

/-- What the turn of a message comes to: it is answered, or it still waits, with the state its wait has brought about. -/
inductive HostRes where
  | done (s : State)
  | wait (s : State)

/-- The command queue of a message: its tenant's, or 0xFF for management (R455). -/
def queueOf (i : Instr) : Nat :=
  match i with
  | .write tn _ _ _ _ => tn
  | .read tn _ _ _ _ => tn
  | .launch tn _ _ => tn
  | .push tn _ _ _ => tn
  | .post tn _ _ _ => tn
  | _ => 255

/-- The oldest waiting message of the queue of `i`. -/
def firstOf (s : State) (i : Instr) : Option Instr := s.host.waiting.find? fun x => queueOf x == queueOf i

/-- The host with message `i` waiting behind the others, also when an equal one waits; waiting behind them unless it waits already;
waiting ahead of them; no longer waiting. -/
def queueMsg (s : State) (i : Instr) : State := { s with host := { s.host with waiting := s.host.waiting ++ [i] } }
def holdMsg (s : State) (i : Instr) : State := if s.host.waiting.contains i then s else queueMsg s i
def holdFirst (s : State) (i : Instr) : State := { s with host := { s.host with waiting := i :: s.host.waiting } }
def unholdMsg (s : State) (i : Instr) : State := { s with host := { s.host with waiting := s.host.waiting.erase i } }

/-- The tenant whose checkpoint a message asks for, and the tenant that another message is for (R490): GSWITCH and GRESUME wait behind
the checkpoint instead. -/
def ckptOf (i : Instr) : Option Nat :=
  match i with
  | .checkpointTenantSave tn _ | .checkpointTenantRestore tn _ => some tn
  | _ => none

/-- The tenant for which a message is no checkpoint and no switch. -/
def messageOf (i : Instr) : Option Nat :=
  match i with
  | .write tn _ _ _ _ | .read tn _ _ _ _ | .launch tn _ _ | .push tn _ _ _ | .post tn _ _ _ | .tenantCreate tn _
  | .tenantTearDown tn _ | .tenantStartSupervisor tn _ _ | .gangmap tn _ _ _ | .hostHalt tn _ | .hostHaltResume tn _
  | .lineResume tn _ _ | .lineKill tn _ _ | .service tn _ _ _ _ _ => some tn
  | _ => none

/-- A checkpoint of tenant `t` is under way: it stands first among the management messages (R490). -/
def checkpointing (s : State) (t : Nat) : Bool :=
  match s.host.waiting.find? fun i => queueOf i == 255 with
  | some i => ckptOf i == some t
  | none => false

/-- The TAG of a message, and whether its answer is READDATA. -/
def tagOfMsg (i : Instr) : BitVec 32 × Bool :=
  match i with
  | .write _ _ _ _ g | .launch _ _ g | .push _ _ _ g | .post _ _ _ g | .tenantCreate _ g | .tenantTearDown _ g
  | .tenantStartSupervisor _ _ g | .gangmap _ _ _ g | .hostHalt _ g | .hostHaltResume _ g | .lineResume _ _ g | .lineKill _ _ g
  | .service _ _ _ _ _ g => (g, false)
  | .read _ _ _ _ g => (g, true)
  | _ => (0, false)

/-- A message that is refused with status 1 (R457). -/
def refuseMsg (s : State) (i : Instr) : State :=
  let g := tagOfMsg i
  toHost s (if g.2 then .readData g.1 1 [] else .ack g.1 1)

/-- The message is for a tenant whose checkpoint is under way (R490). -/
def duringCkpt (s : State) (i : Instr) : Bool := (messageOf i).any (checkpointing s)

/-- The turn of message `me`: it is performed when it is the first of its queue, and stays first while it has to wait (R455, R456). -/
def turnOf (me : Instr) (k : State → HostRes) (s : State) : State :=
  match k (unholdMsg s me) with
  | .done s' => s'
  | .wait s' => holdFirst s' me

/-- A host message: the port performs it for the host that BIND established (R455, R486), in its queue's order; during a checkpoint of its
tenant it is refused at once (R490, log entry 106). -/
def hostMsg (me : Instr) (k : State → HostRes) (s : State) : Host.Outcome State Fault Refusal :=
  if s.host.bound.isNone then .next s
  else if duringCkpt s me then .next (refuseMsg (unholdMsg s me) me)
  else if firstOf s me = none ∨ firstOf s me = some me then .next (turnOf me k s)
  else .next (holdMsg s me)

/-- A message of a tenant's queue; of a tenant that does not exist, it is refused. -/
def tenantMsg (me : Instr) (tag : BitVec 32) (k : State → HostRes) (s : State) : Host.Outcome State Fault Refusal :=
  hostMsg me (fun s => if (getTenant s (queueOf me)).live then k s else .done (ackHost s tag 1)) s

/-! ### WRITE and READ (R456) -/

/-- The host agent acting for tenant `tn`. -/
def hostWho (tn : Nat) : Who := ⟨tn, 0, 1, .walk⟩

/-- What the bytes of a message come to. -/
inductive HostBytes where
  | keys (l : List Nat)
  | refused
  | page (va : Nat)
  | hold
  deriving DecidableEq, Repr

/-- Check every byte, orders 1 to 3 first (R456). -/
def hostBytes (s : State) (tn : Nat) (a : Access) (va n : Nat) : HostBytes :=
  let rs := (List.range n).map fun i => (va + i, if windowBase ≤ va + i then .error (.trap (trapPageFault false va))
    else locate s (hostWho tn) a (va + i) 0)
  let bad := rs.any fun r => match r.2 with
    | .ok (.cell _) => false
    | .ok _ => true
    | .error (.trap _) => true
    | .error _ => false
  if bad then .refused
  else match rs.find? fun r => (match r.2 with
      | .error (.page _) => true
      | _ => false) with
    | some r => .page r.1
    | none =>
      if rs.any fun r => (match r.2 with
        | .error _ => true
        | _ => false) then .hold
      else .keys (rs.map fun r => match r.2 with
        | .ok (.cell k) => k
        | _ => 0)

/-- Write bytes at their keys. -/
def writeKeys : List Nat → List Byte → State → State
  | k :: ks, b :: bs, s => writeKeys ks bs (writeLoc s (.cell k) 1 b.toNat)
  | _, _, s => s

/-- WRITE (R456). -/
def execWrite (tn : Nat) (addr : Word) (data : List Byte) (rel : Bool) (tag : BitVec 32) (s : State) :
    Host.Outcome State Fault Refusal :=
  tenantMsg (.write tn addr data rel tag) tag (fun s =>
    if 120 < data.length then .done (ackHost s tag 1)
    else match hostBytes s tn .store addr.toNat data.length with
      | .refused => .done (ackHost s tag 1)
      | .page va => .wait (startSwapIn s tn va)
      | .hold => .wait s
      | .keys ks => .done (ackHost (writeKeys ks data s) tag 0)) s

/-- The bytes at keys; a poisoned byte has no stated value (R404, log entry 5). -/
def readKeys (s : State) (ks : List Nat) : List Byte × State :=
  let r := freeValue s
  if ks.any fun k => poisoned s.memory k 1 then
    (ks.map fun k => if poisoned s.memory k 1 then r.1.setWidth 8 else byteAt k s.memory.bytes, r.2)
  else (ks.map fun k => byteAt k s.memory.bytes, s)

/-- READ (R456). -/
def execRead (tn : Nat) (addr : Word) (len : Nat) (acq : Bool) (tag : BitVec 32) (s : State) :
    Host.Outcome State Fault Refusal :=
  tenantMsg (.read tn addr len acq tag) tag (fun s =>
    if len = 0 ∨ 128 < len then .done (toHost s (.readData tag 1 []))
    else match hostBytes s tn .load addr.toNat len with
      | .refused => .done (toHost s (.readData tag 1 []))
      | .page va => .wait (startSwapIn s tn va)
      | .hold => .wait s
      | .keys ks =>
        let r := readKeys s ks
        .done (toHost r.2 (.readData tag 0 r.1))) s

/-! ### PUSH and POST -/

/-- PUSH; a dropped push is nacked to the tenant and refused to the host. -/
def execPush (tn : Nat) (name elem : Word) (tag : BitVec 32) (s : State) : Host.Outcome State Fault Refusal :=
  tenantMsg (.push tn name elem tag) tag (fun s =>
    if 2 ^ 32 ≤ name.toNat then .done (ackHost s tag 1)
    else match pushQueue s tn 0 name.toNat elem with
      | .done s' => .done (ackHost s' tag 0)
      | .dropped => .done (ackHost (bounce s tn) tag 1)
      | .held s' => .wait s'
      | .unreadable _ => .done (ackHost s tag 1)) s

/-- POST. -/
def execPost (tn : Nat) (name inc : Word) (tag : BitVec 32) (s : State) : Host.Outcome State Fault Refusal :=
  tenantMsg (.post tn name inc tag) tag (fun s =>
    if 2 ^ 17 ≤ name.toNat ∨ 2 ^ 32 ≤ inc.toNat then .done (ackHost s tag 1)
    else if dieHeld s (dieOf (counterCore name.toNat)) then .wait s
    else match applyPost s tn name.toNat inc.toNat with
      | some s' => .done (ackHost s' tag 0)
      | none => .done (ackHost (bounce s tn) tag 1)) s

/-! ### LAUNCH (R130 to R135) -/

/-- A launch record's fields. -/
structure LaunchRec where
  entry    : Nat
  gx       : Nat
  gy       : Nat
  gz       : Nat
  cscope   : BitVec 2
  args     : Nat
  const    : Nat
  ctxbase  : Nat
  tenant   : Nat
  job      : Nat
  prio     : Nat
  sdom     : Nat
  post     : Option (Nat × Nat)
  host     : Bool
  mask     : Nat
  reserved : Bool
  deriving DecidableEq, Repr

/-- The record that 512 bits lay out (R130). -/
def launchOf (r : BitVec 512) : LaunchRec :=
  let n := r.toNat
  let f := nbits n
  { entry := f 0 48, gx := f 64 20, gy := f 84 20, gz := f 104 20, cscope := BitVec.ofNat 2 (f 124 2), args := f 128 56,
    const := f 192 56, ctxbase := f 256 56, tenant := f 320 8, job := f 328 16, prio := f 344 4, sdom := f 348 2,
    post := if f 401 1 = 1 then some (f 384 11, f 395 6) else none, host := f 402 1 == 1, mask := f 448 8,
    reserved := f 48 16 != 0 || f 126 2 != 0 || f 184 8 != 0 || f 248 8 != 0 || f 312 8 != 0 || f 350 34 != 0 || f 403 45 != 0
      || f 456 56 != 0 }

/-- A page that a root line may stand on: orders 1 to 3 of R206 with a store's permissions, and CTX = 1 (R131, R206). -/
def rootPage (s : State) (t job va : Nat) : Bool :=
  decide (va < windowBase) && ctxPage s ⟨t, job, 1, .walk⟩ va
    && (match checkLeaf s ⟨t, job, 1, .walk⟩ .store va (findLeaf s ⟨t, job, 1, .walk⟩ va) with
      | .ok _ => true
      | .error (.page _) => true
      | .error _ => false)

/-- The pages of 64 KiB that the root line region touches: none for a launch of no group. -/
def rootPages (base n : Nat) : List Nat :=
  if n = 0 then []
  else (List.range ((base % 65536 + 128 * n + 65535) / 65536)).map fun i => base / 65536 * 65536 + 65536 * i

/-- The record is rejected (R131); `n` is its group count. -/
def launchBad (s : State) (tn : Nat) (r : LaunchRec) (n : Nat) : Bool :=
  r.reserved || r.sdom == 3 || r.tenant != tn || r.entry % 4 != 0 || r.ctxbase % 128 != 0 || decide (2 ^ 40 < n)
    || jobLive s r.tenant r.job || jobFrozen s r.tenant r.job
    || (n != 0 && decide (windowBase < r.ctxbase + 128 * n))
    || !((rootPages r.ctxbase n).all (rootPage s r.tenant r.job))

/-- Root line `i` of a launch (R133). -/
def rootLine (r : LaunchRec) (i : Nat) : Line :=
  let x := i % r.gx
  let y := i / r.gx % r.gy
  let z := i / (r.gx * r.gy)
  { Line.zero with
    g := (((Line.zero.g.set 0 (BitVec.ofNat 64 i)).set 1 (BitVec.ofNat 64 (x + y * 2 ^ 20 + z * 2 ^ 40))).set 2
      (BitVec.ofNat 64 r.args)).set 3 (BitVec.ofNat 64 r.const)
    pc := BitVec.ofNat 48 r.entry
    tenant := BitVec.ofNat 8 r.tenant
    job := BitVec.ofNat 16 r.job
    prio := BitVec.ofNat 4 r.prio
    sdom := BitVec.ofNat 2 r.sdom
    root := true }

/-- The dies of a mask that may receive roots: bits of offline and lost dies are ignored, and a mask left without a die means every
one (R130, R438). The cores of a die that is being remapped only pause. -/
def rootDies (s : State) (mask : Nat) : List Nat :=
  let all := (List.range 8).filter fun v => decide ((getDie s v).state < 2)
  let named := all.filter fun v => nbits mask v 1 == 1
  if named = [] then all else named

/-- A cluster of one of these dies, the device's choice. -/
def chooseCluster (s : State) (dies : List Nat) : Nat × State :=
  let r := choose s (32 * dies.length)
  (dies.getD (r.1 / 32) 0 * 32 + r.1 % 32, r.2)

/-- A new line is placed ready on a cluster's DRAM ready list, its image written; an image whose page is swapped is written when the page
lands. -/
def placeInDram (s : State) (x : LiveLine) : State :=
  let y := { x with place := .dram }
  match intoImage s y x.line with
  | some s' => enterReady s' y
  | none => enterReady (putRoot (putLine s y) x.tenant (x.addr, lineBytes x.line)) y

/-- Create root `i`, ready in a CL2 that has room or on a DRAM ready list, the device's choice (R125, R133). -/
def createRoot (dies : List Nat) (r : LaunchRec) (s : State) (i : Nat) : State :=
  let c := chooseCluster s dies
  let d := choose c.2 2
  let x := { LiveLine.new r.tenant (r.ctxbase + 128 * i) (.cl2 c.1) (rootLine r i) with lastCl := c.1 }
  if d.1 = 0 ∧ cl2Room d.2 c.1 = true ∧ dieRuns d.2 (dieOfCluster c.1) = true then putLine d.2 x else placeInDram d.2 x

/-- A launched job's completion: the post and the message that its record asks for (R135); status 0 done, 2 rejected. -/
def completeLaunch (s : State) (l : Launched) (status : Nat) : State :=
  let s := match l.post with
    | some (c, i) => postOrBounce s l.tenant (c * 64 + i) 1
    | none => s
  if l.host then toHost s (.completion l.tenant l.job l.tag status) else s

/-- LAUNCH (R131 to R133): every root of an accepted launch is created at once. It waits while no die can take a root or a root's home
directory is held (R440), and while the end of an earlier job of that number is still being reported. -/
def execLaunch (tn : Nat) (rec : BitVec 512) (tag : BitVec 32) (s : State) : Host.Outcome State Fault Refusal :=
  tenantMsg (.launch tn rec tag) tag (fun s =>
    let r := launchOf rec
    let n := r.gx * r.gy * r.gz
    let l : Launched := ⟨r.tenant, r.job, r.cscope, r.post, r.host, tag⟩
    let dies := rootDies s (if r.mask = 0 then 255 else r.mask)
    if launchBad s tn r n then
      let s' := report s tn ⟨0, 0, 72, 0, 2, false, 0, 0, r.job⟩
      .done (ackHost (completeLaunch s' { l with tenant := tn } 2) tag 2)
    else if s.launched.any fun x => x.tenant == r.tenant && x.job == r.job then .wait s
    else if n = 0 then .done (completeLaunch (ackHost s tag 0) l 0)
    else if dies = [] ∨ ((List.range n).any fun i => addrHeld s tn (r.ctxbase + 128 * i)) = true then .wait s
    else
      let s' := (List.range n).foldl (createRoot dies r) s
      .done (ackHost { s' with launched := s'.launched ++ [l] } tag 0)) s

/-- Something of the job's end is still to be done: its completion, a guard slot, a ticket window (R135, R256, R320). -/
def endOwed (s : State) (t j : Nat) : Bool :=
  s.launched.any (fun x => x.tenant == t && x.job == j)
    || s.clusters.any (fun e => e.2.guards.any fun g => g.2.state != 0 && g.2.tenant == t && g.2.job == j)
    || s.slices.any (fun e => e.2.windows.any fun w => w.tenant == t && w.job == j)

/-- JOB_COMPLETION: the job has ceased to be live and everything it did has been performed (R135). -/
def execJobCompletion (tn job : Nat) (s : State) : Host.Outcome State Fault Refusal :=
  if jobLive s tn job || jobFrozen s tn job || s.net.any (pktIs tn job) || !(endOwed s tn job) then .next s
  else
    let mine := fun (x : Launched) => x.tenant == tn && x.job == job
    let s' := { endJob s tn job with launched := s.launched.filter fun x => !(mine x) }
    .next ((s.launched.filter mine).foldl (fun s l => completeLaunch s l 0) s')

/-! ### Tenants (R211, R473, R475) -/

/-- Some tenant exists. -/
def anyTenant (s : State) : Bool := s.tenants.any fun e => e.2.live

/-- TENANT create (R473); capability generations go on (R393). -/
def execTenantCreate (tn : Nat) (tag : BitVec 32) (s : State) : Host.Outcome State Fault Refusal :=
  hostMsg (.tenantCreate tn tag) (fun s =>
    if 64 ≤ tn ∨ (getTenant s tn).live = true then .done (ackHost s tag 1)
    else .done (ackHost (setTenant s tn { Tenant.zero with live := true, capGen := (getTenant s tn).capGen }) tag 0)) s

/-- Step 1 of R211: every line, record, command and packet of the tenant is gone, and every launch is complete. -/
def tearLines (s : State) (t : Nat) : State :=
  let s := endCmds s (fun _ c => c.tenant == t) killCmd
  let s := (s.switches.filter fun w => w.tenant == t).foldl (fun s w => dropSwitch s t w.job) s
  let s := killLines s fun x => x.tenant == t
  let s := dropPkts (dropRecords s fun r => r.tenant == t) fun p => p.tenant == t
  let done := s.launched.filter fun x => x.tenant == t
  done.foldl (fun s l => completeLaunch s l 0) { s with launched := s.launched.filter fun x => x.tenant != t }

/-- Steps 2 and 3 of R211: granules scrubbed, frames written zero, all free again. -/
def tearMemory (s : State) (t : Nat) : State :=
  let granule := fun (m : Memory) (e : Nat × Nat) =>
    if e.2 = t then memScrub m (granulePlace e.1).1 (granulePlace e.1).2 else m
  let frame := fun (m : Memory) (e : Nat × Nat × Nat) => if e.2.1 = t then memScrub m e.1 (2 ^ levelShift e.2.2) else m
  { s with memory := s.used.foldl frame (s.owner.foldl granule s.memory)
           owner := s.owner.filter fun e => e.2 != t
           used := s.used.filter fun e => e.2.1 != t }

/-- Steps 4 and 5 of R211 in one cluster and one core: TDT entries with GEN advanced; planes, channels and counters as at
reset. -/
def tearCluster (t : Nat) (c : Cluster) : Cluster :=
  let plane := fun (p : Plane) => if p.k ≠ 0 ∧ p.tenant = t then Plane.zero else p
  { c with
    tdt := c.tdt.map fun e => (e.1, if e.2.state ≠ 0 ∧ e.2.tenant.toNat = t then freedEntry e.2 else e.2)
    shadow := plane c.shadow
    active := plane c.active
    chans := c.chans.map fun e => (e.1, if e.2.cur.isNone && e.2.tenant == t then { Channel.zero with queue := e.2.queue } else e.2)
    tlb := c.tlb.filter fun e => e.tenant != t }

/-- The counters, queue buffers and TLB entries of a core without those of a tenant. -/
def tearCore (t : Nat) (c : Core) : Core :=
  { c with
    mail := c.mail.filter fun e => !(e.2.valid && e.2.tenant == t)
    queues := c.queues.filter fun q => q.tenant != t
    tlb := c.tlb.filter fun e => e.tenant != t }

/-- TENANT tear down (R211). -/
def tearDown (s : State) (t : Nat) : State :=
  let s := tearMemory (tearLines s t) t
  let s := freeGuards s fun g => g.tenant == t
  let s := endWindows s fun w => w.tenant == t
  let gen := (getTenant s t).capGen
  let s := { s with
    tenants := s.tenants.filter fun e => e.1 != t
    clusters := s.clusters.map fun e => (e.1, tearCluster t e.2)
    cores := s.cores.map fun e => (e.1, tearCore t e.2)
    dies := s.dies.map fun e => (e.1, { e.2 with holders := e.2.holders.filter (· != t) })
    flash := s.flash.filter fun e => e.2.tenant != t
    gangs := s.gangs.filter fun e => e.1 / 65536 != t
    pending := s.pending.filter fun p => p.tenant != t
    host := { s.host with waiting := s.host.waiting.filter fun i => queueOf i != t } }
  setTenant s t { Tenant.zero with capGen := gen }

def execTenantTearDown (tn : Nat) (tag : BitVec 32) (s : State) : Host.Outcome State Fault Refusal :=
  hostMsg (.tenantTearDown tn tag) (fun s =>
    if (getTenant s tn).live = false then .done (ackHost s tag 1) else .done (ackHost (tearDown s tn) tag 0)) s

/-- What sealing the code of a supervisor comes to. -/
inductive Sealed where
  | ok (s : State)
  | failed (s : State)
  | wait

/-- Seal `n` pages of 64 KiB from `va` up, as `seal` would (R475). -/
def sealPages (t : Nat) : Nat → Nat → State → Sealed
  | 0, _, s => .ok s
  | n + 1, va, s =>
    match sealCheck s t va with
    | .trap _ => .failed s
    | .done => sealPages t n (va + 65536) s
    | .page level w =>
      if pktInto s (leafAddr w * 65536) (2 ^ levelShift level) || sweptInto s t va (2 ^ levelShift level) then .wait
      else sealPages t n (va + 65536) (dropTlb (setLeaf s t level va (sealedLeaf w)) fun e => tlbHits t va e)

/-- The line of a supervisor (R475). -/
def supervisorLine (tn : Nat) (arg : Nat) (entry : Nat) : Line :=
  { Line.zero with
    g := (Line.zero.g.set 0 (BitVec.ofNat 64 tn)).set 2 (BitVec.ofNat 64 arg)
    pc := BitVec.ofNat 48 entry
    tlvl := 1
    tenant := BitVec.ofNat 8 tn
    prio := 15 }

/-- TENANT operation 2 (R475). -/
def execTenantStartSupervisor (tn : Nat) (blk : BitVec 384) (tag : BitVec 32) (s : State) : Host.Outcome State Fault Refusal :=
  hostMsg (.tenantStartSupervisor tn blk tag) (fun s =>
    let f := nbits blk.toNat
    let code := f 0 48
    let clen := f 64 64
    let entry := f 128 48
    let va := f 192 56
    let layout := f 48 16 == 0 && f 176 16 == 0 && f 248 8 == 0 && f 320 64 == 0 && code % 65536 == 0 && clen != 0
      && clen % 65536 == 0 && entry % 4 == 0 && decide (code ≤ entry) && decide (entry < code + clen) && va % 128 == 0
    if (getTenant s tn).live = false ∨ layout = false then .done (ackHost s tag 1)
    else match sealPages tn (clen / 65536) code s with
      | .wait => .wait s
      | .failed s' => .done (ackHost s' tag 1)
      | .ok s' =>
        if rootPage s' tn 0 va = false ∨ (findLine s' tn va).isSome = true then .done (ackHost s' tag 1)
        else
          let dies := (List.range 8).filter fun v => (getDie s' v).state == 0
          if dies = [] ∨ addrHeld s' tn va = true then .wait s'
          else
            let c := chooseCluster s' dies
            let x := { LiveLine.new tn va .dram (supervisorLine tn (f 256 64) entry) with lastCl := c.1 }
            .done (ackHost (placeInDram c.2 x) tag 0)) s

/-! ### Halts, lines, services -/

def execHostHalt (tn : Nat) (tag : BitVec 32) (s : State) : Host.Outcome State Fault Refusal :=
  hostMsg (.hostHalt tn tag) (fun s => .done (if (getTenant s tn).live then ackHost (setHalt s tn true) tag 0 else ackHost s tag 1)) s

def execHostHaltResume (tn : Nat) (tag : BitVec 32) (s : State) : Host.Outcome State Fault Refusal :=
  hostMsg (.hostHaltResume tn tag) (fun s => .done (if (getTenant s tn).live then ackHost (setHalt s tn false) tag 0 else ackHost s tag 1)) s

/-- LINE resume: a line that firmware keeps parked goes on at its PC (R403). -/
def execLineResume (tn : Nat) (addr : Word) (tag : BitVec 32) (s : State) : Host.Outcome State Fault Refusal :=
  hostMsg (.lineResume tn addr tag) (fun s =>
    match findLine s tn addr.toNat with
    | none => .done (ackHost s tag 1)
    | some x =>
      if x.fw = false then .done (ackHost s tag 1)
      else if reachable s x = false then .wait s
      else
        let y := { x with fw := false }
        let s' := editLine s y fun l => { l with wait := if waitKind l.wait = 10 then 0 else l.wait }
        let s' := if y.place = .dram ∧ y.clm = false ∧ tagOf s' y = 0 then enterReady s' y else s'
        .done (ackHost s' tag 0)) s

/-- LINE kill (R403, R408). -/
def execLineKill (tn : Nat) (addr : Word) (tag : BitVec 32) (s : State) : Host.Outcome State Fault Refusal :=
  hostMsg (.lineKill tn addr tag) (fun s =>
    match findLine s tn addr.toNat with
    | none => .done (ackHost s tag 1)
    | some x => if x.fw then .done (ackHost (killLine s x) tag 0) else .done (ackHost s tag 1)) s

/-- The host is told 0 when the service was done, 1 when it was refused (R415, R457). -/
def serviceStatus (n v : Nat) : Nat := if v = 0 ∨ n = 7 then 0 else 1

/-- SERVICE: a service of R415 on the tenant's behalf. -/
def execService (tn : Nat) (n g1 g2 g3 : Word) (tag : BitVec 32) (s : State) : Host.Outcome State Fault Refusal :=
  hostMsg (.service tn n g1 g2 g3 tag) (fun s =>
    if (getTenant s tn).live then
      match service s tn n.toNat g1.toNat g2.toNat g3.toNat with
      | .done s' v => .done (ackHost { s' with svc := BitVec.ofNat 64 v } tag (serviceStatus n.toNat v))
      | .notYet s' => .wait s'
    else .done (ackHost s tag 1)) s

/-! ### GANGMAP, features, identity -/

/-- A gang map of R445: members from 0 to 1,022, each once, this module not among the others. -/
def gangOk (g : GangMap) : Bool :=
  decide (g.vmod ≤ 1022) && g.members.all (fun m => decide (m.1 ≤ 1022) && m.1 != g.vmod)
    && decide ((g.members.map (·.1)).eraseDups.length = g.members.length)

/-- GANGMAP (R445, R482). -/
def execGangmap (tn job : Nat) (gm : GangMap) (tag : BitVec 32) (s : State) : Host.Outcome State Fault Refusal :=
  hostMsg (.gangmap tn job gm tag) (fun s =>
    if (getTenant s tn).live = true ∧ job < 65536 ∧ gangOk gm = true ∧ s.accepted.getLsbD 4 = true then
      .done (ackHost { s with gangs := tabIns (tn * 65536 + job) gm s.gangs } tag 0)
    else .done (ackHost s tag 1)) s

/-- FEATURES operation 0 (R481). -/
def execFeaturesRead (tag : BitVec 32) (s : State) : Host.Outcome State Fault Refusal :=
  hostMsg (.featuresRead tag) (fun s => .done (toHost s (.features tag s.offered s.host.microcode))) s

/-- FEATURES operation 1: refused with a tenant, a bit not offered, bit 0 clear, or a set already accepted (R481). -/
def execFeaturesAccept (set : BitVec 256) (tag : BitVec 32) (s : State) : Host.Outcome State Fault Refusal :=
  hostMsg (.featuresAccept set tag) (fun s =>
    if anyTenant s = true ∨ set &&& ~~~(s.offered) ≠ 0 ∨ set.getLsbD 0 = false ∨ s.accepted ≠ 0 then .done (ackHost s tag 1)
    else .done (ackHost { s with accepted := set } tag 0)) s

/-- BIND (R486): the key's digest against the manifest's, and the signature over the device nonce, whose check is an input (log
entry 28). -/
def execBind (src : BitVec 48) (keyDigest : BitVec 256) (sigOk : Bool) (tag : BitVec 32) (s : State) :
    Host.Outcome State Fault Refusal :=
  if s.host.bound.isSome ∨ keyDigest ≠ s.host.hostKey ∨ sigOk = false then .next (ackHost s tag 1)
  else .next (ackHost { s with host := { s.host with bound := some src } } tag 0)

/-- A die-map entry (R437). -/
def dieEntry (s : State) (v : Nat) : Nat := (getDie s v).phys + (getDie s v).state * 8

/-- 256 bits as four words. -/
def wideWords (v : BitVec 256) : List Nat := (List.range 4).map fun i => nbits v.toNat (64 * i) 64

/-- The report (R487), each item in words of 64 bits: the nonce, the body digest, the security version, the microcode revision, the
offered and accepted sets, the eight die-map entries and DMGEN, the host key digest, the number of live tenants. -/
def reportWords (s : State) (nonce : BitVec 256) : List Nat :=
  wideWords nonce ++ wideWords s.host.bodyDigest ++ [s.host.version.toNat, s.host.microcode.toNat] ++ wideWords s.offered
    ++ wideWords s.accepted ++ (List.range 8).map (dieEntry s) ++ [s.dmgen.toNat] ++ wideWords s.host.hostKey
    ++ [(s.tenants.filter fun e => e.2.live).length]

/-- ATTEST: the report, the signature over it under the identity key, and the certificate (R487). -/
def execAttest (nonce : BitVec 256) (tag : BitVec 32) (s : State) : Host.Outcome State Fault Refusal :=
  hostMsg (.attest nonce tag) (fun s =>
    let r := reportWords s nonce
    .done (toHost s (.report tag r (Config.signature s.host.seed (r.flatMap fun w => natLe w 8)) s.host.cert))) s

/-- DIEMAP read: the ACK carries the entry (R437, R457). -/
def execDiemapRead (die : Nat) (tag : BitVec 32) (s : State) : Host.Outcome State Fault Refusal :=
  hostMsg (.diemapRead die tag) (fun s => if die < 8 then .done (toHost s (.dieMap tag 0 (dieEntry s die))) else .done (ackHost s tag 1)) s

end Sys2Proof.Machine
end

