-- ==== Sys2Proof/Machine/Sched.lean ====
section
/-! DEFINITION. Machine/Sched.lean: lines between slots, CL1s, CL2s, ready lists and DRAM (R122 to R129), pops and steals (R141,
R142), arrivals (R143), handlers (R401), table walks and markers of invalidations (R410, R411). -/

namespace Sys2Proof.Machine

/-! ### Choices (R126, R128) -/

/-- The first line of a list that no other beats. -/
def bestLine (beats : LiveLine → LiveLine → Bool) : List LiveLine → Option LiveLine
  | [] => none
  | x :: l => some (l.foldl (fun b y => if beats y b then y else b) x)

/-- The line that issued least recently. -/
def leastRecent (l : List LiveLine) : Option LiveLine := bestLine (fun a b => decide (a.last < b.last)) l

/-- The ready lines of a CL1, not in a slot. -/
def readyCl1 (s : State) (core : Nat) : List LiveLine := s.lines.filter (fillable s (.cl1 core))

/-- The ready lines of a CL2. -/
def readyCl2 (s : State) (cl : Nat) : List LiveLine := s.lines.filter (fillable s (.cl2 cl))

/-- The line that was passed over first among those passed over by 64 slot fills; `n` reads the count. Of two, the one with the higher
count is the one passed over first, and a promoted line brings the count of its cluster along (log entry 93). -/
def passedFirst (n : LiveLine → Nat) (l : List LiveLine) : Option LiveLine :=
  bestLine (fun a b => decide (n b < n a)) (l.filter fun x => decide (64 ≤ n x))

/-- The line of highest PRIO, the least recently issued among equals. -/
def topPrio (l : List LiveLine) : Option LiveLine :=
  bestLine (fun a b => decide (b.line.prio.toNat < a.line.prio.toNat)
    || (a.line.prio == b.line.prio && decide (a.last < b.last))) l

/-- What a slot is filled with. -/
inductive Fill where
  | line (x : LiveLine)
  | record (r : TaskRec) (k : Core)
  | nothing

/-- The first candidate of steps 1 to 3 of R128. -/
def fillChoice (s : State) (core : Nat) : Fill :=
  let l1 := readyCl1 s core
  match passedFirst (·.passed) l1 with
  | some x => .line x
  | none =>
    let pop := dequePop (poppable s) (getCore s core)
    match topPrio l1, pop with
    | some x, some (r, k) => if x.line.prio.toNat < r.prio.toNat then .record r k else .line x
    | some x, none => .line x
    | none, some (r, k) => .record r k
    | none, none =>
      let l2 := readyCl2 s (clusterOf core)
      match (passedFirst (·.passedCl) l2).or (topPrio l2) with
      | some x => .line x
      | none => .nothing

/-- The records of a list, in the order in which an agent looks at them, that only an empty context pool makes it pass refused before the
first it may take: the first refusal of each tenant is reported (R138). -/
def noticeRefused (s : State) (may : TaskRec → Bool) (l : List TaskRec) : State :=
  let refused := (l.takeWhile fun r => !(may r && poppable s r)).filter fun r => may r && recordRuns s r
  refused.foldl (fun s r => poolRefused s r.tenant) s

/-- A pop looks at the core's records, newest first (R141). -/
def noticePool (s : State) (core : Nat) : State :=
  let k := getCore s core
  noticeRefused s (fun _ => true) (k.ring ++ k.deque).reverse

/-! ### Evictions (R126, R406, R434) -/

/-- A gang switch of this line's job has reached phase 6 (R460). -/
def evictPhase (s : State) (x : LiveLine) : Bool :=
  s.switches.any fun w => w.tenant == x.tenant && w.job == x.line.job.toNat && !(w.resume) && w.phase == 6

/-- The die of a line's cache is being remapped and writes its lines back (R440). -/
def remapping (s : State) (die : Nat) : Bool :=
  match s.remap with
  | some r => r.die == die && r.phase == 2
  | none => false

/-- The line's outstanding stores are all performed, or swept (R406, R32): the count of swept ones goes with the image. -/
def storesDone (s : State) (x : LiveLine) : Bool :=
  x.stores == 0 || ((evictPhase s x || remapping s (dieOf (coreOfPlace x.place)))
    && !(s.net.any fun p => p.tenant == x.tenant && p.line == x.addr))

/-- The line goes to its image whether or not room is needed (R407, R420, R440, R460). -/
def mustGoDown (s : State) (die : Nat) (x : LiveLine) : Bool := x.pull || evictPhase s x || remapping s die

/-- The line of a level that an eviction takes: one that must go, else, when the level is full, by R126. -/
def victimOf (s : State) (die : Nat) (full : Bool) (l : List LiveLine) : Option LiveLine :=
  match l.find? (mustGoDown s die) with
  | some x => some x
  | none => if full then (leastRecent (l.filter fun x => x.line.wait != 0 || x.fw)).or (leastRecent l) else none

/-- CL1_EVICTION: a line goes to the cluster's CL2 once its stores are performed (R126, R406). -/
def execCl1Eviction (core : Nat) (s : State) : Host.Outcome State Fault Refusal :=
  let cl := clusterOf core
  match victimOf s (dieOf core) (!(cl1Room s core)) (s.lines.filter fun x => x.place == .cl1 core && storesDone s x) with
  | none => .next s
  | some x =>
    if cl2Room s cl then .next (putLine s { x with place := .cl2 cl, lastCl := cl, passed := 0, passedCl := 0 })
    else .next s

/-- The content of a line that goes to its image; the VER increment of a claim falls due there (R434). -/
def imageLine (x : LiveLine) : Line := if x.verDue then { x.line with lver := x.line.lver + 1 } else x.line

/-- Write a line back to its image (R434); a ready one that is not held enters a ready list. -/
def writeBack (s : State) (x : LiveLine) : Option State :=
  let y := { x with pull := false, verDue := false, passed := 0, passedCl := 0 }
  (intoImage s y (imageLine x)).map fun s =>
    if x.line.wait = 0 ∧ x.clm = false ∧ x.fw = false then enterReady s y else s

/-- The head of a cluster's DRAM ready list: its oldest line that is not passed over (R129). -/
def readyHead (s : State) (cl : Nat) : Option LiveLine :=
  (getCluster s cl).ready.findSome? fun e =>
    match findLine s e.1 e.2 with
    | some x => if x.place == .dram && !(x.clm) && !(x.fw) && mayRun s x.tenant (jobOf s x) then some x else none
    | none => none

/-- The head by tenant and address. -/
def headId (s : State) (cl : Nat) : Option (Nat × Nat) := (readyHead s cl).map fun x => (x.tenant, x.addr)

/-- The CL2's evictions and the slot fills that passed the head over since it reached the head (R129). -/
def headCounts (s : State) (cl : Nat) : Nat × Nat :=
  let k := getCluster s cl
  if k.headLine = headId s cl then (k.aging, k.headPassed) else (0, 0)

/-- Count evictions and passed-over fills for the head (R129). -/
def bumpHead (s : State) (cl a p : Nat) : State :=
  let k := getCluster s cl
  let n := headCounts s cl
  match headId s cl with
  | none => setCluster s cl { k with headLine := none, aging := 0, headPassed := 0 }
  | some h => setCluster s cl { k with headLine := some h, aging := n.1 + a, headPassed := n.2 + p }

/-- The CL2 counts an eviction (R129). -/
def countEviction (s : State) (cl : Nat) : State := bumpHead s cl 1 0

/-- Write back line `x` of cluster `cl`; an image on a swapped page is brought in first. -/
def evictTo (s : State) (cl : Nat) (x : LiveLine) : State :=
  if dirHeld s x then s
  else match writeBack s { x with lastCl := cl } with
  | some s => countEviction s cl
  | none => startSwapIn s x.tenant x.addr

/-- CL2 line `x` enters the CL1 of `core`; a full one evicts another line into the room that `x` leaves (R126, R128). None while no line
of that CL1 may be evicted (R406). -/
def promoteTo (s : State) (x : LiveLine) (core : Nat) : Option State :=
  let s' := putLine s { x with place := .cl1 core, passed := x.passedCl }
  if cl1Room s core then some s'
  else
    (victimOf s (dieOf core) true (s.lines.filter fun y => y.place == .cl1 core && storesDone s y)).map fun y =>
      putLine s' { y with place := .cl2 (clusterOf core), lastCl := clusterOf core, passed := 0, passedCl := 0 }

/-- The lines of a CL2 that 64 slot fills have passed over go to CL1s of the cluster, each to one of the device's choice (R128). -/
def promoteAll (s : State) (cl : Nat) : State :=
  ((readyCl2 s cl).filter fun x => decide (64 ≤ x.passedCl)).foldl (fun s x =>
    let r := choose s 8
    ((List.range 8).findSome? fun i => promoteTo r.2 x (cl * 8 + (r.1 + i) % 8)).getD s) s

/-- CL2_PROMOTION: a CL2 line passed over by 64 slot fills goes to a CL1 (R128). -/
def execCl2Promotion (cl core : Nat) (s : State) : Host.Outcome State Fault Refusal :=
  if clusterOf core ≠ cl ∨ 2048 ≤ core ∨ dieRuns s (dieOf core) = false then .next s
  else match passedFirst (·.passedCl) (readyCl2 s cl) with
    | none => .next s
    | some x => .next ((promoteTo s x core).getD s)

/-! ### Ready lists (R129, R434, R435) -/

/-- A corrupt line is parked and reported (R33). -/
def parkCorrupt (s : State) (x : LiveLine) : State :=
  let s := editLine s x fun l => { l with wait := waitTag 10 0 }
  report s x.tenant ⟨x.addr, 0, 69, x.line.tlvl, 3, false, BitVec.ofNat 64 x.addr, 0, jobOf s x⟩

/-- The home directory grants a fill of `x` to cluster `cl`: the line leaves its list and its image, VER and LVER one up
(R434). The line keeps its tenant and its trap level, whatever the image says (R395). -/
def grantFill (s : State) (cl src : Nat) (x : LiveLine) : State :=
  if dirHeld s x then s
  else match contentOf s x with
  | none => startSwapIn s x.tenant x.addr
  | some l =>
    let s := leaveReady s x.tenant x.addr
    let c := getCluster s src
    let s := setCluster s src { c with headLine := none, aging := 0, headPassed := 0 }
    if tagCorrupt l.wait then parkCorrupt s x
    else if l.wait ≠ 0 then s
    else
      putLine s { x with
        place := .cl2 cl, lastCl := cl, passed := 0, passedCl := 0,
        line := { l with lver := l.lver + 1, tenant := BitVec.ofNat 8 x.tenant, tlvl := x.line.tlvl } }

/-- Cluster `cl` may take the head of `src`'s list: its own, or, with room and an empty list of its own, another on the die
(R129). -/
def mayTakeFrom (s : State) (cl src : Nat) : Bool :=
  dieRuns s (dieOfCluster cl) && decide (cl < 256)
    && (cl == src || (dieOfCluster cl == dieOfCluster src && (getCluster s cl).ready.isEmpty))

/-- READY_LIST_FILL (R129). -/
def execReadyListFill (cl src : Nat) (s : State) : Host.Outcome State Fault Refusal :=
  if mayTakeFrom s cl src = false ∨ cl2Room s cl = false then .next s
  else match readyHead s src with
    | none => .next s
    | some x => .next (grantFill s cl src x)

/-- The head of a cluster's own list is filled, a full CL2 first making room by R126 (R129). -/
def fillHead (s : State) (cl : Nat) : State :=
  if mayTakeFrom s cl cl = false then s
  else match readyHead s cl with
    | none => s
    | some x =>
      let s := if cl2Room s cl then s else match victimOf s (dieOfCluster cl) true (s.lines.filter fun x => x.place == .cl2 cl) with
        | some y => evictTo s cl y
        | none => s
      if cl2Room s cl then grantFill s cl cl x else s

/-- READY_LIST_FORCED_FILL: the head has waited out its bound (R129). -/
def execReadyListForcedFill (cl : Nat) (s : State) : Host.Outcome State Fault Refusal :=
  if (headCounts s cl).2 < 64 ∧ (headCounts s cl).1 < 4095 then .next s else .next (fillHead s cl)

/-- CL2_EVICTION (R126): a line that must go down, or one that makes room. The head of the ready list never waits past 4,096 evictions:
the last of them fills it into the room it makes (R129). -/
def execCl2Eviction (cl : Nat) (s : State) : Host.Outcome State Fault Refusal :=
  if 4095 ≤ (headCounts s cl).1 ∧ mayTakeFrom s cl cl = true then .next (fillHead s cl)
  else match victimOf s (dieOfCluster cl) (!(cl2Room s cl)) (s.lines.filter fun x => x.place == .cl2 cl) with
  | none => .next s
  | some x => .next (evictTo s cl x)

/-- FILL_REQUEST: granted when the line stands at the head of a list the cluster may take from, refused with nothing changed when
its directory has it elsewhere or claimed (R435). -/
def execFillRequest (cl tn : Nat) (addr : Word) (s : State) : Host.Outcome State Fault Refusal :=
  match findLine s tn addr.toNat with
  | none => .next s
  | some x =>
    match (List.range 256).find? fun src => (getCluster s src).ready.contains (tn, addr.toNat) with
    | none => .next s
    | some src =>
      if x.place = .dram ∧ x.clm = false ∧ mayTakeFrom s cl src = true ∧ cl2Room s cl = true
          ∧ (readyHead s src).map (·.addr) = some x.addr ∧ (readyHead s src).map (·.tenant) = some x.tenant then
        .next (grantFill s cl src x)
      else .next s

/-! ### Slot fills (R128) -/

/-- A slot of `core` has been filled by the line of tenant `t` at `a`: every other ready line of the CL1 and of the cluster's
CL2 was passed over, and so was the head of the ready list (R128, R129). -/
def passOver (s : State) (core t a : Nat) : State :=
  let cl := clusterOf core
  let s := mapLines s (fun x => fillable s (.cl1 core) x && !(isLine t a x)) fun x => { x with passed := x.passed + 1 }
  let s := mapLines s (fun x => fillable s (.cl2 cl) x && !(isLine t a x)) fun x => { x with passedCl := x.passedCl + 1 }
  bumpHead s cl 0 1

/-- The fill of a vacated slot ends the wait of the line that yielded it, wherever the line then is (R164): a line in flight, or in an
image on a swapped page, gets a wake. -/
def endYield (s : State) (core slot : Nat) : State :=
  match s.lines.find? fun x => x.yieldOf == some (core, slot) with
  | none => s
  | some x =>
    let y := { x with yieldOf := none }
    if reachable s x then editLine s y fun l => if waitKind l.wait = 9 then { l with wait := 0 } else l
    else let s := putLine s y
         sendMsg s x.tenant x.addr (.wake (waitTag 9 0))

/-- The line that enters slot `slot` of `core`. -/
def inNewSlot (x : LiveLine) (core slot : Nat) : LiveLine :=
  { x with place := .slot core slot, count := 0, forfeit := 0, norm := false, normWait := false, passed := 0,
           passedCl := 0, lastCl := clusterOf core }

/-- The slot is empty and may be filled. -/
def slotFree (s : State) (core slot : Nat) : Bool :=
  decide (core < 2048) && decide (slot < 16) && dieRuns s (dieOf core) && !(s.lines.any (inSlot core slot))

/-- The line in a slot. -/
def slotLine (s : State) (core slot : Nat) : Option LiveLine := s.lines.find? (inSlot core slot)

/-- What follows the fill of a slot: CL2 lines that 64 fills have passed over enter CL1s, and a head of the ready list passed over so
often is filled now (R128, R129). -/
def afterFill (s : State) (core slot : Nat) : State :=
  match slotLine s core slot with
  | some x =>
    let s := promoteAll (passOver (endYield s core slot) core x.tenant x.addr) (clusterOf core)
    if 64 ≤ (headCounts s (clusterOf core)).2 then fillHead s (clusterOf core) else s
  | none => s

/-- SLOT_FILL: the first candidate of steps 1 to 3 (R128). -/
def execSlotFill (core slot : Nat) (s : State) : Host.Outcome State Fault Refusal :=
  if slotFree s core slot = false then .next s
  else
    let s := noticePool s core
    match fillChoice s core with
    | .nothing => .next s
    | .line x =>
      if x.place = .cl1 core ∨ cl1Room s core = true then .next (afterFill (putLine s (inNewSlot x core slot)) core slot)
      else .next s
    | .record r k =>
      if cl1Room s core then
        match startRecord (setCore s core k) r core slot with
        | some s' => .next (afterFill s' core slot)
        | none => .next s
      else .next s

/-- STEAL: an idle core takes the oldest record of another core's deque that admits it (R141, R142). -/
def execSteal (thief slot victim : Nat) (s : State) : Host.Outcome State Fault Refusal :=
  if slotFree s thief slot = false ∨ coreIdle s thief = false ∨ victim = thief ∨ dieRuns s (dieOf victim) = false
      ∨ cl1Room s thief = false then .next s
  else
    let s := noticeRefused s (fun r => admits r thief) ((getCore s victim).ring ++ (getCore s victim).deque)
    match dequeSteal (fun r => poppable s r && admits r thief) (getCore s victim) with
    | none => .next s
    | some (r, k) => match startRecord (setCore s victim k) r thief slot with
      | some s' => .next (afterFill s' thief slot)
      | none => .next s

/-- QUANTUM_EXPIRY: a line that must leave its slot leaves it at this boundary, ready in its CL1 (R122, R123). -/
def execQuantumExpiry (core slot : Nat) (s : State) : Host.Outcome State Fault Refusal :=
  match slotLine s core slot with
  | none => .next s
  | some x =>
    if mustLeave s core x then
      .next (putLine s { x with place := .cl1 core, count := 0, forfeit := 0, norm := false, normWait := false, passed := 0 })
    else .next s

/-! ### Arrivals (R143) -/

/-- The packet of a line that migrates here from another member, to a core above the die that holds its target (R144, R447). -/
def incomingLine (s : State) (tn addr core : Nat) (p : Pkt) : Bool :=
  p.tenant == tn && p.line == addr && !(isOurs s p) && p.dst == vmodOf s p.tenant p.job && served s p && p.dmgen == s.dmgen
    && (match p.body, p.loc with
      | .line _ _, .cell k => homeDie s k == some (dieOf core)
      | _, _ => false)

/-- The line an image of 128 bytes holds. -/
def lineOfImage (img : BitVec 1024) : Line := lineOf fun i => img.extractLsb' (64 * i) 64

/-- The line that a packet carries, of the packet's tenant. -/
def pktLine (p : Pkt) : Option Line :=
  match p.body with
  | .line img _ => some { lineOfImage img with tenant := BitVec.ofNat 8 p.tenant }
  | _ => none

/-- MIGRATION_ARRIVAL: a line in flight is placed ready in the CL1 of its target core (R143), its packet routed again first when the die
map has changed (R439); one that comes back from another member takes up its entry at the home directory (R447). -/
def execMigrationArrival (tn : Nat) (addr : Word) (core : Nat) (s : State) : Host.Outcome State Fault Refusal :=
  if dieRuns s (dieOf core) = false ∨ cl1Room s core = false ∨ 2048 ≤ core then .next s
  else match findLine s tn addr.toNat with
    | some x =>
      if dirHeld s x then .next s
      else if x.place = .flight core then .next (putLine s
        (if x.route = s.dmgen then { x with place := .cl1 core, lastCl := clusterOf core } else { x with route := s.dmgen }))
      else match x.place, s.net.find? (incomingLine s tn addr.toNat core) with
        | .away _ _, some p => .next (putLine (dropPkt s p.id)
            { x with place := .cl1 core, lastCl := clusterOf core, line := (pktLine p).getD x.line })
        | _, _ => .next s
    | none =>
      match s.net.find? (incomingLine s tn addr.toNat core) with
      | none => .next s
      | some p => match pktLine p with
        | some l => .next (putLine (dropPkt s p.id) { LiveLine.new tn addr.toNat (.cl1 core) l with lastCl := clusterOf core })
        | none => .next s

/-! ### Handlers (R401) -/

/-- The handler line of a trap. -/
def handlerLine (p : PendHandler) (l : Line) : Line :=
  { Line.zero with
    g := ((((Line.zero.g.set 0 (BitVec.ofNat 64 p.addr)).set 1 (p.fault.fcode.setWidth 64)).set 2 (p.fault.tdata.setWidth 64)).set 3
      p.record).set 4 p.fault.addr
    pc := p.entry
    tenant := BitVec.ofNat 8 p.tenant
    job := l.job
    prio := l.prio
    hnd := true
    tlvl := 1 }

/-- Replace entry `n` of the handlers to come, or take it away. -/
def setPending_ (s : State) (n : Nat) (p : Option PendHandler) : State :=
  { s with pending := match p with
      | some p => s.pending.set n p
      | none => s.pending.eraseIdx n }

/-- The line of a handler to come is still parked by its trap, and nobody has claimed it. -/
def stillParked (s : State) (p : PendHandler) : Bool :=
  match findLine s p.tenant p.addr with
  | none => false
  | some x => !(x.clm) && waitKind (tagOf s x) == 10

/-- The vector entry of a trap can be read now: the record is written, and a handler is to be created when the entry names one and the
line is still parked (R46, R400, R401). -/
def readLate (s : State) (n : Nat) (p : PendHandler) : State :=
  match readVector s p.tenant p.fault.fcode with
  | .wait va => startSwapIn s p.tenant va
  | .none_ => report (setPending_ s n none) p.tenant p.fault
  | .entry pc =>
    if stillParked s p then
      let r := writeRecord s p.tenant { p.fault with hnd := true }
      setPending_ r.1 n (some { p with entry := pc, record := BitVec.ofNat 64 r.2, unread := false })
    else report (setPending_ s n none) p.tenant p.fault

/-- L's live copy goes to its image, claimed by the handler at `h` (R401, R407, R434). -/
def claimForHandler (s : State) (x : LiveLine) (l : Line) (h : Nat) : State :=
  let s := leaveReady s x.tenant x.addr
  (intoImage s { x with clm := true, holder := h, pull := false, verDue := false } { l with lver := l.lver + 1 }).getD s

/-- HANDLER_CREATION: handler `n` to come is created when its vector entry has been read, its line's accesses are performed (R227), the
CL1 of the core has room and the pool has a line; a line claimed by another meanwhile gets none (R401, R407). An empty pool counts as a
refusal of R138 here too (log entry 94). -/
def execHandlerCreation (n : Nat) (s : State) : Host.Outcome State Fault Refusal :=
  match s.pending[n]? with
  | none => .next s
  | some p =>
    if p.unread then .next (readLate s n p)
    else match findLine s p.tenant p.addr with
    | none => .next (setPending_ s n none)
    | some x =>
      match contentOf s x with
      | none => .next (startSwapIn s x.tenant x.addr)
      | some l =>
        if waitKind l.wait ≠ 10 ∨ x.clm = true then .next (setPending_ s n none)
        else if x.stores ≠ 0 ∨ readsDone s x.tenant x.addr = false ∨ jobFrozen s x.tenant l.job.toNat = true
            ∨ cl1Room s p.core = false ∨ dirHeld s x = true then .next s
        else if hasImage s x = false then .next (startSwapIn s x.tenant x.addr)
        else match poolTake s p.tenant with
          | none => .next (poolRefused s p.tenant)
          | some (h, s') =>
            if addrHeld s p.tenant h then .next s
            else
            let s' := claimForHandler (setPending_ s' n none) x l h
            .next (putLine s' { LiveLine.new p.tenant h (.cl1 p.core) (handlerLine p l) with
              pool := true, lastCl := clusterOf p.core })

/-! ### Translations (R410, R411) -/

/-- With an entry at the front of a TLB of `n` entries. -/
def tlbAdd (n : Nat) (e : TlbEntry) (l : List TlbEntry) : List TlbEntry :=
  if l.contains e then l else e :: l.take (n - 1)

/-- TABLE_WALK: a walk for `addr` ends in a leaf, which the TLBs of the core and of its cluster then hold (R410). -/
def execTableWalk (core tn : Nat) (addr : Word) (s : State) : Host.Outcome State Fault Refusal :=
  let va := addr.toNat
  if 2048 ≤ core ∨ windowBase ≤ va ∨ (getTenant s tn).live = false then .next s
  else match walkTable (getTenant s tn) va with
    | none => .next s
    | some (level, w) =>
      if leafV w = false ∨ leafSwd w = true ∨ leafShapeBad level w = true then .next s
      else
        let e : TlbEntry := ⟨tn, level, va / 2 ^ levelShift level, w⟩
        let k := getCore s core
        let s := setCore s core { k with tlb := tlbAdd 64 e k.tlb }
        let c := getCluster s (clusterOf core)
        .next (setCluster s (clusterOf core) { c with tlb := tlbAdd 2048 e c.tlb })

/-- An entry that an invalidation drops (R411, R424). -/
def invalHits (i : Inval) (e : TlbEntry) : Bool :=
  i.global || (e.tenant == i.tenant && (i.all || tlbHits i.tenant i.page e))

/-- This is the invalidation of a remap's own switch, and the packet stands held at the ports of the die (R440). -/
def heldForRemap (s : State) (i : Inval) (p : Pkt) : Bool :=
  match s.remap with
  | some r => r.inval == some i.id && dieOfLoc s p.loc == some r.die
  | none => false

/-- An access under way through a translation that the invalidation drops: the unit's marker waits for it (R411). -/
def underWay (s : State) (i : Inval) (unit : Nat) : Bool :=
  let shift := match walkTable (getTenant s i.tenant) i.page with
    | some (level, _) => levelShift level
    | none => 16
  let hits := fun (p : Pkt) => if isOurs s p then p.target / 2 ^ shift == i.page / 2 ^ shift
    else (frameVa s i.tenant p.loc).any fun va => va / 2 ^ shift == i.page / 2 ^ shift
  s.net.any fun p =>
    isAccess p && decide (p.target < windowBase) && !(heldForRemap s i p)
      && (i.global || (p.tenant == i.tenant && (i.all || hits p)))
      && (if isOurs s p = false then unit == 2304 + (dieOfLoc s p.loc).getD 0
        else if 2 ^ 61 ≤ p.line then unit == 2048 + clusterOf p.core else unit == p.core)

/-- The translating units of a module. -/
def invalUnits : Nat := 2320

/-- The TLB of a unit without the entries an invalidation drops. -/
def dropInUnit (s : State) (i : Inval) (unit : Nat) : State :=
  if unit < 2048 then
    let k := getCore s unit
    setCore s unit { k with tlb := k.tlb.filter fun e => !(invalHits i e) }
  else if unit < 2304 then
    let k := getCluster s (unit - 2048)
    setCluster s (unit - 2048) { k with tlb := k.tlb.filter fun e => !(invalHits i e) }
  else s

/-- INVALIDATION_MARKER: a unit drops what matches and returns its marker; with the last of the 2,320 the invalidation is
complete (R411). -/
def execInvalidationMarker (inv unit : Nat) (s : State) : Host.Outcome State Fault Refusal :=
  match s.invals.find? fun i => i.id == inv with
  | none => .next s
  | some i =>
    if invalUnits ≤ unit ∨ i.done.contains unit = true ∨ underWay s i unit = true then .next s
    else
      let s := dropInUnit s i unit
      let j := { i with done := setIns unit i.done }
      .next { s with
        invals := if j.done.length = invalUnits then s.invals.filter fun x => x.id != inv
          else s.invals.map fun x => if x.id = inv then j else x }

end Sys2Proof.Machine
end

