-- ==== Sys2Proof/Machine/Wire.lean ====
section
/-! DEFINITION. Machine/Wire.lean: frames, device packets and packet records as bytes (R449, R450, R456, R466), and the snapshot
record (R478). What the spec leaves open of a packet's AUX word and payload, and of a management message's payload, is log entry 75. -/

namespace Sys2Proof.Machine

/-! ### Fields -/

/-- Fields side by side from bit 0 up, each a width and a value. -/
def packFields : List (Nat × Nat) → Nat
  | [] => 0
  | (w, v) :: l => v % 2 ^ w + 2 ^ w * packFields l

/-- Bytes in the order of the Ethernet header, most significant first. -/
def netBytes (v n : Nat) : List Byte := (natLe v n).reverse

/-- The number that such bytes hold. -/
def netNat (l : List Byte) : Nat := leNat l.reverse

/-- A payload as 8-byte words; a last part of a word is left out. -/
def wordsOf : Nat → List Byte → List Nat
  | 0, _ => []
  | n + 1, l => leNat (l.take 8) :: wordsOf n (l.drop 8)

/-- Words as bytes. -/
def wordBytes (l : List Nat) : List Byte := l.flatMap fun v => natLe v 8

/-! ### Device packets (R466, R451) -/

/-- The class of a packet's flow (R451). -/
def pktClass (b : PktBody) : Nat :=
  match b with
  | .result _ _ _ => 1
  | .failed _ _ => 1
  | .ack => 1
  | .nack => 1
  | .line _ _ => 2
  | .wake _ => 2
  | .retired => 2
  | _ => 0

/-- The write was issued by a copy: its line stands for the copy. -/
def isCopyWrite (p : Pkt) : Bool := decide (copyMark 0 0 ≤ p.line)

/-- What a packet's descriptor and payload hold of its body: KIND, the operation, width and code, register and flags of AUX, and the
data words. -/
structure BodyWire where
  kind  : Nat
  op    : Nat
  width : Nat
  code  : Nat
  reg   : Nat
  fflg  : Nat
  data  : List Nat

/-- A body as it is sent. -/
def bodyWire (p : Pkt) : BodyWire :=
  match p.body with
  | .read size ty reg => ⟨1, 0, size, ty, reg.toNat, 0, []⟩
  | .ticket size acqs reg => ⟨1, 1, size, acqs, reg.toNat, 0, []⟩
  | .write size v fe =>
    ⟨if isCopyWrite p then 9 else 2, match fe with
      | none => 0
      | some b => 1 + b2n b, size, 0, 0, 0, [v.toNat]⟩
  | .rmw fn size y c reg => ⟨3, fn, size, 0, reg.toNat, 0, [y.toNat, c.toNat]⟩
  | .result reg v e => ⟨4, 0, 0, 0, reg.toNat, e.toNat, [v.toNat]⟩
  | .ack => ⟨4, 1, 0, 0, 0, 0, []⟩
  | .failed none lost => ⟨4, 2, 0, (lost.map (· + 1)).getD 0, 0, 0, []⟩
  | .failed (some reg) lost => ⟨4, 3, 0, (lost.map (· + 1)).getD 0, reg.toNat, 0, []⟩
  | .nack => ⟨4, 4, 0, 0, 0, 0, []⟩
  | .push _ elem => ⟨5, 0, 0, 0, 0, 0, [elem.toNat]⟩
  | .post _ inc => ⟨6, 0, 0, 0, 0, 0, [inc]⟩
  | .wake tag => ⟨7, 0, 0, 0, 0, 0, [tag.toNat]⟩
  | .retired => ⟨7, 1, 0, 0, 0, 0, []⟩
  | .line _ _ => ⟨0, 0, 0, 0, 0, 0, []⟩
  | .message _ _ => ⟨8, 0, 0, 0, 0, 0, []⟩

/-- A die number that AUX carries one up, 0 being none. -/
def lostOf (code : Nat) : Option Nat := if code = 0 then none else some (code - 1)

/-- The body that a KIND, an AUX and data words stand for; a reserved KIND and an operation of no kind stand for none (R453). -/
def bodyOfWire (kind aux : Nat) (data : List Nat) : Option PktBody :=
  let op := nbits aux 0 8
  let width := nbits aux 8 8
  let code := nbits aux 16 8
  let reg : Reg := BitVec.ofNat 3 (nbits aux 24 3)
  let d := fun i => BitVec.ofNat 64 (data.getD i 0)
  match kind, op with
  | 1, 0 => some (.read width code reg)
  | 1, 1 => some (.ticket width code reg)
  | 2, 0 => some (.write width (d 0) none)
  | 2, 1 => some (.write width (d 0) (some false))
  | 2, 2 => some (.write width (d 0) (some true))
  | 9, 0 => some (.write width (d 0) none)
  | 3, fn => some (.rmw fn width (d 0) (d 1) reg)
  | 4, 0 => some (.result reg (d 0) (BitVec.ofNat 5 (nbits aux 27 5)))
  | 4, 1 => some .ack
  | 4, 2 => some (.failed none (lostOf code))
  | 4, 3 => some (.failed (some reg) (lostOf code))
  | 4, 4 => some .nack
  | 5, _ => some (.push aux (d 0))
  | 6, _ => some (.post aux (nbits (d 0).toNat 0 32))
  | 7, 0 => some (.wake (d 0))
  | 7, 1 => some .retired
  | _, _ => none

/-- The address that a location names: physical in a frame to the member that holds the bytes, virtual in a save area (R429). -/
def locAddr : Loc → Nat
  | .remote _ a => a
  | .cell k => k
  | .virt va => va
  | _ => 0

/-- The payload of a packet in words: a line's image; the element of a push, the increment of a post (R499); else the issuing line, the
address, the issuing core, the sender's number, and the data. -/
def pktWords (p : Pkt) : List Nat :=
  match p.body with
  | .line img _ => (List.range 16).map fun i => nbits img.toNat (64 * i) 64
  | .push _ _ => (bodyWire p).data
  | .post _ _ => (bodyWire p).data
  | .message _ ws => ws
  | _ => [p.line, locAddr p.loc, p.core, p.name] ++ (bodyWire p).data

/-- AUX: counter or queue name, or operation and width and result register (R466, R499); of a line in a frame, the address its `go`
named on the receiving member, and 0 in a save area. -/
def pktAux (saved : Bool) (p : Pkt) : Nat :=
  let w := bodyWire p
  match p.body with
  | .line _ _ => if saved then 0 else locAddr p.loc % 2 ^ 41
  | .push name _ => name
  | .post name _ => name
  | .message aux _ => aux.toNat
  | _ => packFields [(8, w.op), (8, w.width), (8, w.code), (3, w.reg), (5, w.fflg)]

/-- A descriptor of 32 bytes and a payload (R466). -/
def packetBytes (buf : List (Nat × Nat)) (kind : Nat) (ans : Bool) (cls src dst target order aux : Nat) (words : List Nat) : List Byte :=
  natLe (packFields (buf ++ [(4, kind), (1, b2n ans), (2, cls), (10, src), (10, dst), (5, words.length), (15, 0), (64, target),
    (64, order), (64, aux)])) 32 ++ wordBytes words

/-- A packet as a frame carries it: buffer fields and ORDER 0. -/
def pktBytes (p : Pkt) : List Byte :=
  packetBytes [(2, 0), (12, 0), (3, 0)] (bodyWire p).kind p.ans (pktClass p.body) p.src p.dst p.target 0 (pktAux false p)
    (pktWords p)

/-- Switch control as a frame carries it, the job in AUX: a command, TARGET 0 out or 1 back (R458), or a message for the home directory
of the line at TARGET, its operation in AUX (R462). -/
def controlBytes (p : Pkt) : List Byte :=
  let note := fun (op : Nat) => packetBytes [(2, 0), (12, 0), (3, 0)] 7 false 3 p.src p.dst p.target 0 (packFields [(32, op), (16, p.job)]) []
  match p.body with
  | .wake op => note op.toNat
  | _ => packetBytes [(2, 0), (12, 0), (3, 0)] 8 false 3 p.src p.dst p.target 0 (packFields [(32, 0), (16, p.job)]) []

/-- A packet record of a save area: 160 bytes, with the buffer it was swept from and its position (R461, R466, R499). -/
def pktRecord (order : Nat) (p : Pkt) : List Byte :=
  let l := packetBytes [(2, p.bufClass), (12, p.bufId), (3, p.vc)] (bodyWire p).kind p.ans (pktClass p.body) p.src p.dst p.target order
    (pktAux true p) (pktWords p)
  l ++ List.replicate (160 - l.length) 0

/-- A device packet as it came: descriptor and payload words. -/
structure RawPkt where
  desc  : Nat
  words : List Nat
  deriving DecidableEq, Repr

/-- KIND, TARGET and AUX of a descriptor. -/
def RawPkt.kind (r : RawPkt) : Nat := nbits r.desc 17 4
def RawPkt.target (r : RawPkt) : Nat := nbits r.desc 64 64
def RawPkt.aux (r : RawPkt) : Nat := nbits r.desc 192 64

/-- COUNT device packets from the front of some bytes; none when they do not fit. -/
def rawPkts : Nat → List Byte → Option (List RawPkt)
  | 0, _ => some []
  | n + 1, l =>
    let d := leNat (l.take 32)
    let k := nbits d 44 5
    if l.length < 32 + 8 * k ∨ 16 < k then none
    else (rawPkts n (l.drop (32 + 8 * k))).map (⟨d, wordsOf k (l.drop 32)⟩ :: ·)

/-- The packet of tenant `t` and job `j` that a raw one stands for; a packet that no KIND gives a meaning has none. -/
def pktOfRaw (t j : Nat) (r : RawPkt) : Option Pkt :=
  let src := nbits r.desc 24 10
  let dst := nbits r.desc 34 10
  let p : Pkt :=
    { id := 0, name := r.words.getD 3 0, body := .ack, ans := wbit (BitVec.ofNat 64 r.desc) 21, src := src, dst := dst, tenant := t,
      job := j, line := r.words.getD 0 0, core := nbits (r.words.getD 2 0) 0 11, target := r.target,
      loc := .remote dst (r.words.getD 1 0), dmgen := 0, bufClass := 0, bufId := 0, vc := 0 }
  if r.kind = 0 then
    some { p with
      name := 0, core := 0, line := r.target, loc := .remote dst (nbits r.aux 0 41)
      body := .line (BitVec.ofNat 1024 ((r.words.zipIdx.map fun e => e.1 * 2 ^ (64 * e.2)).sum)) 0 }
  else if r.kind = 5 ∨ r.kind = 6 then
    (bodyOfWire r.kind r.aux r.words).map fun b => { p with name := 0, core := 0, line := 0, loc := .cell 0, body := b }
  else (bodyOfWire r.kind r.aux (r.words.drop 4)).map fun b => { p with body := b }

/-! ### Frames (R449, R450) -/

/-- `f n`, `n` being evaluated first where the kernel evaluates it. -/
def afterValue {α : Type} (n : Nat) (f : Nat → α) : α :=
  match n with
  | 0 => f 0
  | k + 1 => f (k + 1)

/-- The value that `f` is applied to is `n`. -/
theorem afterValue_eq {α : Type} (n : Nat) (f : Nat → α) : afterValue n f = f n := by cases n <;> rfl

/-- `n` bits of the Ethernet check sequence. -/
def crcBits : Nat → Nat → Nat
  | 0, c => c
  | n + 1, c => afterValue (if c % 2 = 1 then Nat.xor (c / 2) 0xEDB88320 else c / 2) (crcBits n)

/-- The check sequence over some bytes, from the value `c`. -/
def crcBytes : List Byte → Nat → Nat
  | [], c => c
  | b :: l, c => afterValue (crcBits 8 (Nat.xor c b.toNat)) (crcBytes l)

/-- The frame check sequence of IEEE 802.3, as it follows the frame byte by byte (log entry 75). -/
def fcs (l : List Byte) : List Byte := natLe (Nat.xor (crcBytes l 0xFFFFFFFF) 0xFFFFFFFF) 4

/-- The fabric header (R450). -/
def frameHeader (f : Frame) : List Byte :=
  natLe (packFields [(4, f.ver), (4, f.ty), (10, f.flow.src), (10, f.flow.dst), (2, f.flow.cls), (2, 0), (8, f.flow.tenant),
    (16, f.flow.job), (6, f.pkts.length), (2, 0), (32, f.seq.toNat), (32, f.ackSeq.toNat), (8, f.reason), (120, 0)]) 32

/-- The bytes of a frame: the Ethernet header, untagged, the fabric header, the device packets, padding to the least size, and the check
sequence (R449, R450). -/
def frameBytes (dst src : BitVec 48) (etherType : BitVec 16) (f : Frame) : List Byte :=
  let l := netBytes dst.toNat 6 ++ netBytes src.toNat 6 ++ netBytes etherType.toNat 2 ++ frameHeader f
    ++ f.pkts.flatMap (if f.ty = 5 then controlBytes else pktBytes)
  let l := l ++ List.replicate (60 - l.length) 0
  l ++ fcs l

/-- A received frame: its Ethernet source and its parts. -/
structure RawFrame where
  from_  : BitVec 48
  ty     : Nat
  flow   : FlowId
  seq    : BitVec 32
  ackSeq : BitVec 32
  reason : Nat
  pkts   : List RawPkt
  deriving DecidableEq, Repr

/-- What a port makes of a frame. -/
inductive Received where
  /-- too short or long, damaged, a pause or PFC frame, of another version, of TYPE 7 to 15, or cut short. -/
  | discarded
  /-- of another EtherType: counted (R449). -/
  | strange
  | frame (f : RawFrame)
  deriving DecidableEq, Repr

/-- The fabric header and the packets behind it. -/
def readHeader (src : BitVec 48) (l : List Byte) : Received :=
  let h := leNat (l.take 32)
  if l.length < 32 ∨ nbits h 0 4 ≠ 1 ∨ 6 < nbits h 4 4 then .discarded
  else match rawPkts (nbits h 56 6) (l.drop 32) with
    | none => .discarded
    | some ps =>
      .frame ⟨src, nbits h 4 4, ⟨nbits h 8 10, nbits h 18 10, nbits h 32 8, nbits h 40 16, nbits h 28 2⟩,
        BitVec.ofNat 32 (nbits h 64 32), BitVec.ofNat 32 (nbits h 96 32), nbits h 128 8, ps⟩

/-- A frame as a port receives it, with or without one 802.1Q tag (R449, R450). -/
def readFrame (etherType : BitVec 16) (l : List Byte) : Received :=
  let body := l.take (l.length - 4)
  if l.length < 64 ∨ 9216 < l.length ∨ fcs body ≠ l.drop (l.length - 4) then .discarded
  else
    let src := BitVec.ofNat 48 (netNat ((l.drop 6).take 6))
    let rest := if netNat ((l.drop 12).take 2) = 0x8100 then body.drop 16 else body.drop 12
    let ty := netNat (rest.take 2)
    if ty = 0x8808 then .discarded
    else if ty ≠ etherType.toNat then .strange
    else readHeader src (rest.drop 2)

/-! ### Host messages (R456, R481, R487, R488) -/

/-- The gang map of a message: the module's own VMOD, then each other member with its address below its VMOD. -/
def gangOfWords : List Nat → Option GangMap
  | v :: l => some ⟨v, l.map fun w => (nbits w 48 16, BitVec.ofNat 48 w)⟩
  | [] => none

/-- Words as one number. -/
def wideOf (l : List Nat) : Nat := (l.zipIdx.map fun e => e.1 * 2 ^ (64 * e.2)).sum

/-- The message that a device packet of KIND 8 stands for, on the queue of tenant `tn`. -/
def hostInstr (tn : Nat) (r : RawPkt) : Option Instr :=
  let tag := BitVec.ofNat 32 (nbits r.aux 32 32)
  let w := fun i => r.words.getD i 0
  let x := fun i => BitVec.ofNat 64 (w i)
  if r.kind ≠ 8 then none
  else match nbits r.aux 0 8, w 1 with
    | 0x01, _ => some (.write tn (BitVec.ofNat 64 r.target) (wordBytes (r.words.drop 1)) (r.aux.testBit 8) tag)
    | 0x02, _ => some (.read tn (BitVec.ofNat 64 r.target) (nbits r.aux 8 8) (r.aux.testBit 16) tag)
    | 0x03, _ => some (.launch tn (BitVec.ofNat 512 (wideOf (r.words.take 8))) tag)
    | 0x04, _ => some (.push tn (x 0) (x 1) tag)
    | 0x05, _ => some (.post tn (x 0) (x 1) tag)
    | 0x10, 0 => some (.tenantCreate (w 0) tag)
    | 0x10, 1 => some (.tenantTearDown (w 0) tag)
    | 0x10, 2 => some (.tenantStartSupervisor (w 0) (BitVec.ofNat 384 (wideOf ((r.words.drop 2).take 6))) tag)
    | 0x11, j => (gangOfWords (r.words.drop 2)).map fun g => .gangmap (w 0) j g tag
    | 0x12, j => some (.gswitch (w 0) j tag)
    | 0x13, j => some (.gresume (w 0) j (gangOfWords (r.words.drop 2)) tag)
    | 0x14, 0 => some (.hostHalt (w 0) tag)
    | 0x14, 1 => some (.hostHaltResume (w 0) tag)
    | 0x15, 0 => some (.lineResume (nbits (w 0) 56 8) (BitVec.ofNat 64 (nbits (w 0) 0 56)) tag)
    | 0x15, 1 => some (.lineKill (nbits (w 0) 56 8) (BitVec.ofNat 64 (nbits (w 0) 0 56)) tag)
    | 0x16, 0 => some (.diemapRead (w 0) tag)
    | 0x16, 1 => some (.diemapRemap (w 0) (w 2) tag)
    | 0x16, 2 => some (.diemapOffline (w 0) tag)
    | 0x17, n => some (.service (w 0) (BitVec.ofNat 64 n) (x 2) (x 3) (x 4) tag)
    | 0x18, 0 => some (.featuresRead tag)
    | 0x18, 1 => some (.featuresAccept (BitVec.ofNat 256 (wideOf ((r.words.drop 2).take 4))) tag)
    | 0x19, 0 => some (if w 0 = 0 then .checkpointModuleSave tag else .checkpointTenantSave (w 2) tag)
    | 0x19, 1 => some (if w 0 = 0 then .checkpointModuleRestore tag else .checkpointTenantRestore (w 2) tag)
    | 0x1B, _ => some (.attest (BitVec.ofNat 256 (wideOf (r.words.take 4))) tag)
    | _, _ => none

/-! ### Messages to the host (R457, R479, R481, R485, R487) -/

/-- AUX of a message to the host: OP and, in the place of R456, the TAG. -/
def hostAux (op : Nat) (tag : BitVec 32) : Nat := packFields [(8, op), (24, 0), (32, tag.toNat)]

/-- The flow's tenant, AUX and payload words of a message to the host: 0xFF stands for the management flow. -/
def hostWire : HostMsg → Nat × Nat × List Nat
  | .ack tag status => (0xFF, hostAux 0x80 tag, [status])
  | .readData tag status data => (0xFF, hostAux 0x81 tag, [status + 2 ^ 8 * data.length] ++ wordsOf ((data.length + 7) / 8) data)
  | .completion t j tag status => (t, hostAux 0x82 tag, [packFields [(8, t), (16, j)], status])
  | .faultNote t tail => (t, hostAux 0x83 0, [t, tail.toNat])
  | .deviceFault t r => (t, hostAux 0x84 0, t :: faultWords r)
  | .switched t j v resumed late => (t, hostAux 0x85 0, [packFields [(8, t), (16, j), (10, v), (1, b2n resumed)], late])
  | .snapshot id r => (0xFF, hostAux 0x86 0, id :: wordsOf 4 r)
  | .bootFail step => (0xFF, hostAux 0x87 0, [step])
  | .features tag offered mc => (0xFF, hostAux 0x80 tag, [0] ++ wideWords offered ++ [mc.toNat])
  | .dieMap tag status e => (0xFF, hostAux 0x80 tag, [status, e])
  | .report tag ws sig cert => (0xFF, hostAux 0x80 tag, [0] ++ ws ++ wordsOf ((sig.length + 7) / 8) sig ++ wordsOf ((cert.length + 7) / 8) cert)

/-- Payload words cut into packets of at most 16 words (R466). -/
def wordPieces : Nat → List Nat → List (List Nat)
  | 0, _ => []
  | n + 1, l => if l.length ≤ 16 then [l] else l.take 16 :: wordPieces n (l.drop 16)

/-! ### Snapshot records (R478) -/

/-- A snapshot record as its 32 bytes. -/
def snapBytes (r : Snap) : List Byte :=
  natLe (packFields [(16, r.id), (4, r.bkind), (11, r.block), (1, 0), (32, r.link), (64, r.sent), (64, r.rcvd), (64, r.inch)]) 32

end Sys2Proof.Machine
end

