-- ==== Sys2Proof/Machine/Gang.lean ====
section
/-! DEFINITION. Machine/Gang.lean: the gang switch of a job on this member (R458 to R472): its start, the phases out and back, late
packets, and the frames that tell the other members. -/

namespace Sys2Proof.Machine

/-! ### Frames to other members (R450, R451) -/

/-- The flow end of this member. -/
def findFlow (s : State) (id : FlowId) : Option Flow := s.flows.find? fun f => f.id == id

/-- The number that stands for a host in SRCMOD and DSTMOD (R445), and the host port among the ports. -/
def hostMod : Nat := 0x3FF
def hostPort : Nat := 16

/-- A flow end that is not yet known: the host's on the host port (R455), any other on a port of the device's choice. -/
def newFlow (s : State) (id : FlowId) : Flow × State :=
  if id.src = hostMod ∨ id.dst = hostMod then (⟨id, hostPort, 0, 0, [], false⟩, s)
  else
    let r := choose s 16
    (⟨id, r.1, 0, 0, [], false⟩, r.2)

/-- The flow end, made if need be. -/
def theFlow (s : State) (id : FlowId) : Flow × State :=
  match findFlow s id with
  | some f => (f, s)
  | none => newFlow s id

/-- Replace a flow end. -/
def putFlow (s : State) (f : Flow) : State :=
  if s.flows.any fun x => x.id == f.id then { s with flows := s.flows.map fun x => if x.id = f.id then f else x }
  else { s with flows := s.flows ++ [f] }

/-- The flow of the reverse direction. -/
def reverseFlow (id : FlowId) : FlowId := { id with src := id.dst, dst := id.src }

/-- ACKSEQ of a frame on flow `id`: the next SEQ expected on the reverse flow (R450). -/
def ackSeqOf (s : State) (id : FlowId) : BitVec 32 :=
  match findFlow s (reverseFlow id) with
  | some f => f.expect
  | none => 0

/-- The job of a frame: switch control, on a flow of JOB 0, carries it in its packet (R450). -/
def frameJob (f : Frame) : Nat :=
  match f.ty, f.pkts with
  | 5, p :: _ => p.job
  | _, _ => f.flow.job

/-- The packets of a message to the host (R455, R457). -/
def hostPkts (m : HostMsg) : List Pkt :=
  let w := hostWire m
  (wordPieces (w.2.2.length / 16 + 1) w.2.2).map fun ws =>
    { id := 0, name := 0, body := .message (BitVec.ofNat 64 w.2.1) ws, ans := false, src := 0, dst := hostMod, tenant := w.1, job := 0, line := 0,
      core := 0, target := 0, loc := .cell 0, dmgen := 0, bufClass := 0, bufId := 0, vc := 0 }

/-- The flow on which a message leaves for the host: that of its queue (R455). -/
def hostFlow (m : HostMsg) : FlowId := ⟨0, hostMod, (hostWire m).1, 0, 0⟩

/-- The Ethernet address of this module's port: no rule states it. -/
def portAddress (port : Nat) : BitVec 48 := (Config.freeWord (2 ^ 66 + port)).setWidth 48

/-- The Ethernet address of member `m` of a job (R445, R470), or of a gang of the tenant for a flow of no job; the host's is that of
its BIND (R486), and an unknown one the broadcast address. -/
def addressOf (s : State) (t j m : Nat) : BitVec 48 :=
  let of := fun (g : GangMap) => (g.members.find? fun e => e.1 == m).map (·.2)
  if m = hostMod then s.host.bound.getD (-1)
  else match (gangOf s t j).bind of with
    | some a => a
    | none => ((s.gangs.filter fun e => e.1 / 65536 == t).findSome? fun e => of e.2).getD (-1)

/-- The port sends a frame to an address: it counts for every frame the port still waits to hear of (R452). -/
def onPort (s : State) (port : Nat) (dst : BitVec 48) (f : Frame) : State :=
  let age := fun (x : Flow) => if x.port = port then { x with unacked := x.unacked.map fun u => (u.1, u.2.1 + 1, u.2.2) } else x
  { s with flows := s.flows.map age, portSent := tabPut 0 port (tabGet 0 port s.portSent + 1) s.portSent,
           egress := s.egress ++ [(port, frameBytes dst (portAddress port) s.etherType f)] }

/-- The address that a frame of this member goes to. -/
def frameTo (s : State) (f : Frame) : BitVec 48 := addressOf s f.flow.tenant (frameJob f) f.flow.dst

/-- Send a frame that carries a SEQ of its flow and waits for its acknowledgement; a failed flow sends nothing (R451, R454). -/
def sendFrame (s : State) (ty : Nat) (id : FlowId) (pkts : List Pkt) : State :=
  let r := theFlow s id
  if r.1.failed then r.2
  else
    let f : Frame := ⟨1, ty, id, r.1.seq, ackSeqOf r.2 id, 0, pkts⟩
    let s := onPort (putFlow r.2 r.1) r.1.port (frameTo s f) f
    putFlow s { r.1 with
      seq := r.1.seq + 1, unacked := (((findFlow s id).map (·.unacked)).getD r.1.unacked) ++ [(f, 0, 1)] }

/-- Send a frame without a SEQ of its own to an address: acknowledgements, nacks, heartbeats. -/
def sendBare (s : State) (ty : Nat) (id : FlowId) (seq : BitVec 32) (reason : Nat) (dst : BitVec 48) : State :=
  let r := theFlow s id
  onPort (putFlow r.2 r.1) r.1.port dst ⟨1, ty, id, seq, ackSeqOf r.2 id, reason, []⟩

/-- The other members of a job's gang. -/
def otherMembers (s : State) (t j : Nat) : List Nat :=
  match gangOf s t j with
  | some g => g.members.map (·.1)
  | none => []

/-- Switch control as a packet: TARGET 0 switches out, 1 resumes (log entry 25). -/
def controlPkt (s : State) (t j dst : Nat) (resume : Bool) : Pkt where
  id := s.nextId
  name := s.nextId
  body := .ack
  ans := false
  src := vmodOf s t j
  dst := dst
  tenant := t
  job := j
  line := 0
  core := 0
  target := b2n resume
  loc := .cell 0
  dmgen := s.dmgen
  bufClass := 0
  bufId := 0
  vc := 0

/-- A message for the home directory of a line on member `dst`, on class 3 (R462): 1 the line has been swept, 2 it goes on its way
again, 3 it has been written back in phase 6, 4 it is cached again. -/
def lineNote (t j dst addr op : Nat) (s : State) : State :=
  sendFrame s 5 ⟨vmodOf s t j, dst, t, 0, 3⟩ [{ controlPkt s t j dst false with body := .wake (BitVec.ofNat 64 op), target := addr, line := addr }]

/-- Such a message arrives from the member that holds the line or its packet: the entry of a line that is away follows it (R462). -/
def takeNote (s : State) (t addr src op : Nat) : State :=
  match findLine s t addr with
  | some x => match x.place with
    | .away v _ => if v = src then putLine s { x with place := .away v (op == 1 || op == 3) } else s
    | _ => s
  | none => s

/-- Switch control to every other member, on class 3 with JOB 0 (R450, R458). -/
def sendControl (s : State) (t j : Nat) (resume : Bool) : State :=
  (otherMembers s t j).foldl (fun s m => sendFrame s 5 ⟨vmodOf s t j, m, t, 0, 3⟩ [controlPkt s t j m resume]) s

/-- One meridian marker on each class 0 to 2 flow of the job to each other member (R460). -/
def sendMarkers (s : State) (t j : Nat) : State :=
  (otherMembers s t j).foldl (fun s m => (List.range 3).foldl (fun s c => sendFrame s 3 ⟨vmodOf s t j, m, t, j, c⟩ []) s) s

/-! ### Switches -/

/-- This switch is of job `j` of tenant `t`. -/
def switchIs (t j : Nat) (w : Switch) : Bool := w.tenant == t && w.job == j

/-- The switch of a job. -/
def findSwitch (s : State) (t j : Nat) : Option Switch := s.switches.find? (switchIs t j)

/-- Replace a switch. -/
def putSwitch (s : State) (w : Switch) : State :=
  { s with switches := s.switches.map fun x => if switchIs w.tenant w.job x then w else x }

/-- A switch just begun, in phase 1, or waiting for a remap in phase 0 (R442, R460). -/
def newSwitch (s : State) (t j phase : Nat) : Switch where
  tenant := t
  job := j
  resume := false
  phase := phase
  keep := false
  markers := []
  pkts := []
  msgs := []
  tickets := []
  cmds := []
  planes := []
  ready := []
  records := []
  late := []
  lcount := 0
  ldrop := 0
  vmod := vmodOf s t j

/-- What the start of a switch or of a resume comes to. -/
inductive Start where
  | started (s : State)
  | refused
  | wait

/-- A die remap is in phases 1 to 5: a switch waits (R442). -/
def remapWaits (s : State) : Bool :=
  match s.remap with
  | some r => decide (r.phase ≤ 5)
  | none => false

/-- The running commands of a job at a cluster engine stop and park (R313, R460). -/
def parkRunning (t j : Nat) (s : State) (eng : Nat) : State :=
  ((getEngine s eng).running.filter (cmdIs t j)).foldl (parkCmd eng) s

/-- The current copy of a channel stops and parks, when it is of the job. -/
def parkCurrent (t j : Nat) (s : State) (x : Nat × Nat) : State :=
  match (getChan s x.1 x.2).cur with
  | some c => if cmdIs t j c then parkOnChannel s x.1 x.2 c else s
  | none => s

/-- Phase 1: the job's commands stop at a row or segment boundary, and the other members are told (R458, R460). -/
def freeze (s : State) (t j : Nat) : State :=
  let s := ((engineNumbers s).filter fun n => decide (n < 1024)).foldl (parkRunning t j) s
  sendControl ((channelNumbers s).foldl (parkCurrent t j) s) t j false

/-- Start a switch of a job: it is refused when one is under way or saved, without the feature (R482), or when no save area of the
largest size is left (R465: nine of 381 MiB); it waits for the end of a remap (R442) and of a checkpoint of its tenant (R490). -/
def startSwitch (s : State) (t j : Nat) : Start :=
  if (findSwitch s t j).isSome || !(s.accepted.getLsbD 4) || decide (9 ≤ s.switches.length) then .refused
  else if remapWaits s || checkpointing s t then .wait
  else .started (freeze { s with switches := s.switches ++ [newSwitch s t j 1] } t j)

/-- The job is saved: all phases out are complete. -/
def isSaved (w : Switch) : Bool := !(w.resume) && w.phase == 7

/-- A resume begins; a member that dropped a late packet kills the job instead (R467, R468). -/
def beginResume (s : State) (w : Switch) : State :=
  if w.ldrop ≠ 0 then killJob s w.tenant w.job
  else sendControl (putSwitch s { w with resume := true, phase := 1 }) w.tenant w.job true

/-- Start a resume of a saved job (R425, R468). -/
def startResume (s : State) (t j : Nat) : Start :=
  match findSwitch s t j with
  | none => .refused
  | some w => if checkpointing s t then .wait else if isSaved w then .started (beginResume s w) else .refused

/-- gsw (R425): gD tells whether the switch or the resume was started. -/
def execGsw (g : BitVec 4) (d a b : Reg) (s : State) : Host.Outcome State Fault Refusal :=
  issueWord (hdrPriv g [d, a, b] 2 (.gsw g d a b)) (fun c s =>
    match checkTags c.t.line [(a, [0]), (b, [0])] with
    | some e => .trap e
    | none =>
      let x := (getG c.t.line a).toNat
      let t := nbits x 16 8
      let j := nbits x 0 16
      if 2 ^ 24 ≤ x then .trap (trapRange a)
      else
        let answer := fun (r : Start) => match r with
          | .started s' => Res.ok s' { c.t with line := setG c.t.line d 1 0 }
          | .refused => .ok s { c.t with line := setG c.t.line d 0 0 }
          | .wait => .retry s c.t.req c.t.replies
        match (getG c.t.line b).toNat with
        | 0 => answer (startSwitch s t j)
        | 1 => answer (startResume s t j)
        | _ => .trap (trapRange b)) s

/-- GSWITCH (R456, R458). -/
def execGswitch (tn job : Nat) (tag : BitVec 32) (s : State) : Host.Outcome State Fault Refusal :=
  hostMsg (.gswitch tn job tag) (fun s =>
    if (getTenant s tn).live = false ∨ 65536 ≤ job then .done (ackHost s tag 1)
    else match startSwitch s tn job with
      | .started s' => .done (ackHost s' tag 0)
      | .refused => .done (ackHost s tag 1)
      | .wait => .wait s) s

/-- The VMOD this member holds after a GRESUME (R470). -/
def resumedVmod (s : State) (t j : Nat) (gm : Option GangMap) : Nat :=
  match gm with
  | some g => g.vmod
  | none => vmodOf s t j

/-- GRESUME, with a new gang map or without (R468, R470). -/
def execGresume (tn job : Nat) (gm : Option GangMap) (tag : BitVec 32) (s : State) : Host.Outcome State Fault Refusal :=
  hostMsg (.gresume tn job gm tag) (fun s =>
    match findSwitch s tn job with
    | none => .done (ackHost s tag 1)
    | some w =>
      if isSaved w = false ∨ w.vmod ≠ resumedVmod s tn job gm ∨ (gm.map gangOk).getD true = false then .done (ackHost s tag 1)
      else
        let s' := match gm with
          | some g => { s with gangs := tabIns (tn * 65536 + job) g s.gangs }
          | none => s
        .done (ackHost (beginResume s' w) tag 0)) s

/-- Switch control of member `src`: it starts a switch, at once or when the remap that it meets is over, or a resume, which a member
still switching out keeps (R442, R458, R468). -/
def takeControl (s : State) (t j : Nat) (resume : Bool) : State :=
  if resume then
    match findSwitch s t j with
    | none => s
    | some w => if isSaved w && !(checkpointing s t) then beginResume s w else if w.resume then s else putSwitch s { w with keep := true }
  else match startSwitch s t j with
    | .started s' => s'
    | .refused => s
    | .wait => { s with switches := s.switches ++ [newSwitch s t j 0] }

/-- The member is another one of the job's gang. -/
def isMember (s : State) (t j m : Nat) : Bool := (otherMembers s t j).contains m

/-- SWITCH_CONTROL (R458, R468). -/
def execSwitchControl (tn job src : Nat) (resume : Bool) (s : State) : Host.Outcome State Fault Refusal :=
  if isMember s tn job src then .next (takeControl s tn job resume) else .next s

/-- A meridian marker of member `src` on a class: it starts a switch where none is under way, and counts for phase 3 (R458, R460,
R461). -/
def takeMarker (s : State) (t j src cls : Nat) : State :=
  let s := if (findSwitch s t j).isSome then s else takeControl s t j false
  match findSwitch s t j with
  | some w =>
    if w.resume = true ∨ 3 < w.phase ∨ w.markers.contains (src, cls) = true then s
    else putSwitch s { w with markers := w.markers ++ [(src, cls)] }
  | none => s

/-- MERIDIAN_MARKER (R461). -/
def execMeridianMarker (tn job src cls : Nat) (s : State) : Host.Outcome State Fault Refusal :=
  if isMember s tn job src = true ∧ cls < 3 then .next (takeMarker s tn job src cls) else .next s

/-! ### Phases out (R460) -/

/-- A line of the job, by its place. -/
def lineIn (s : State) (t j : Nat) (p : Place → Bool) : Bool :=
  s.lines.any fun x => x.tenant == t && p x.place && jobOf s x == j

/-- Phase 1 is complete: no line of the job is in a slot, and no command of the job runs (R460). A swap has no boundary within. -/
def frozenNow (s : State) (t j : Nat) : Bool :=
  !(lineIn s t j fun p => match p with
    | .slot _ _ => true
    | _ => false)
    && (engineNumbers s).all (fun n => !((getEngine s n).running.any (cmdIs t j)))

/-- A marker has arrived on every class 0 to 2 flow of the job from every other member (R460). -/
def allMarked (s : State) (w : Switch) : Bool :=
  (otherMembers s w.tenant w.job).all fun m => (List.range 3).all fun c => w.markers.contains (m, c)

/-- A packet that a sweep takes (R459). -/
def sweeps (t j : Nat) (p : Pkt) : Bool := pktIs t j p && !(p.ans)

/-- The flow of a packet of this member. -/
def flowOf (s : State) (p : Pkt) : FlowId := ⟨vmodOf s p.tenant p.job, p.dst, p.tenant, p.job, pktClass p.body⟩

/-- The port in whose egress queue the packet stands on its way to another member: that of its flow, which is set now if need be (R451,
R461). -/
def egressPort (s : State) (p : Pkt) : Nat × State :=
  let r := theFlow s (flowOf s p)
  (r.1.port, putFlow r.2 r.1)

/-- The buffer in which a packet stands when the sweep reaches it, and its virtual channel (R461): within the module a router on its
path, the device's choice, or the egress queue of its flow's port, or the ingress queue of the port at which it came. -/
def bufferOf (s : State) (p : Pkt) : Pkt × State :=
  let inner := p.dst == vmodOf s p.tenant p.job && isOurs s p
  let c := choose s (if inner then 2 else 3)
  let b := match c.1 with
    | 0 => (8 * (choose c.2 256).1, (choose c.2 256).2)
    | 1 => choose c.2 64
    | _ => if isOurs s p then egressPort c.2 p else (p.bufId, c.2)
  let v := choose b.2 8
  ({ p with bufClass := if c.1 < 2 then c.1 else if isOurs s p then 2 else 3, bufId := b.1, vc := v.1 }, v.2)

/-- A packet as a save area keeps it: an access names its page by a virtual address in place of a frame (R429), which routing turns
into a frame again when it goes back. The page of another member's access is that of this member's tenant. -/
def savedPkt (s : State) (p : Pkt) : Pkt :=
  match p.loc with
  | .cell _ => if isAccess p && decide (p.target < windowBase) then
      { p with loc := .virt (if isOurs s p then p.target else (frameVa s p.tenant p.loc).getD p.target) } else p
  | .remote _ _ => if isAccess p then { p with loc := .virt p.target } else p
  | _ => p

/-- Packets by a key, in order of arrival among equals. -/
def insertBy (key : Pkt → Nat) (p : Pkt) : List Pkt → List Pkt
  | [] => [p]
  | q :: l => if key p < key q then p :: q :: l else q :: insertBy key p l
def sortBy (key : Pkt → Nat) (l : List Pkt) : List Pkt := l.foldl (fun l p => insertBy key p l) []

/-- The order of packet records (R461). -/
def bufferKey (p : Pkt) : Nat := (p.bufClass * 4096 + p.bufId) * 8 + p.vc

/-- The packets of a list, each with its buffer. -/
def bufferAll (s : State) (l : List Pkt) : List Pkt × State :=
  l.foldl (fun r p => let b := bufferOf r.2 p; (r.1 ++ [b.1], b.2)) ([], s)

/-- A message for a line of the job. -/
def msgIs (s : State) (t j : Nat) (m : Msg) : Bool :=
  m.tenant == t && (match findLine s m.tenant m.addr with
    | some x => jobOf s x == j
    | none => false)

/-- The packet carries a line between members, or word that a line is live no more (R447). -/
def movesLine (p : Pkt) : Bool :=
  match p.body with
  | .line _ _ => true
  | .retired => true
  | _ => false

/-- One of these packets carries this line, whichever member sent it. -/
def carries (l : List Pkt) (x : LiveLine) : Bool := l.any fun p => p.tenant == x.tenant && p.line == x.addr && movesLine p

/-- The member whose home directory a swept or reinjected packet concerns, when it is another one: the sender of a line that has
arrived here, the receiver of word from here (R462). -/
def noteTo (s : State) (p : Pkt) : Option Nat :=
  match p.body with
  | .line _ _ => if isOurs s p then none else some p.src
  | .retired => if isOurs s p then some p.dst else none
  | _ => none

/-- The home directories of these packets' lines on other members are told (R462). -/
def notePkts (s : State) (l : List Pkt) (op : Nat) : State :=
  l.foldl (fun s p => match noteTo s p with
    | some m => lineNote p.tenant p.job m p.line op s
    | none => s) s

/-- The home directories of the job's lines here whose images lie on other members are told that they are written back, or cached again
(R434, R447, R460). -/
def noteLines (s : State) (t j op : Nat) : State :=
  (s.lines.filter fun x => x.tenant == t && jobOf s x == j).foldl (fun s x => match remoteImage s t x.addr with
    | some (v, _) => lineNote t j v x.addr op s
    | none => s) s

/-- Phase 3: the job packets, the lines in flight and the messages for lines are swept; the directories of the lines show it, here and
on other members (R461, R462). -/
def sweep (s : State) (w : Switch) : State :=
  let mine := sweeps w.tenant w.job
  let b := bufferAll s (s.net.filter mine)
  let s := notePkts (putSwitch b.2 { w with
    pkts := w.pkts ++ (sortBy bufferKey b.1).map (savedPkt s), msgs := w.msgs ++ s.msgs.filter (msgIs s w.tenant w.job), phase := 4 }) b.1 1
  let s := { s with net := s.net.filter fun p => !(mine p), msgs := s.msgs.filter fun m => !(msgIs s w.tenant w.job m) }
  mapLines s (fun x => x.tenant == w.tenant && x.line.job.toNat == w.job) fun x =>
    match x.place with
    | .flight c => { x with place := .saved c }
    | .away v _ => if carries b.1 x then { x with place := .away v true } else x
    | _ => x

/-- The windows of a job with their slices. -/
def jobWindows (s : State) (t j : Nat) : List (Nat × Window) :=
  s.slices.flatMap fun e => (e.2.windows.filter fun w => w.tenant == t && w.job == j).map fun w => (e.1, w)

/-- No ticket entry of the job is pending (R463). -/
def ticketsStill (s : State) (t j : Nat) : Bool :=
  (jobWindows s t j).all fun e => (List.range e.2.len).all fun i => (getTicket s e.1 (e.2.base + i)).state != 1

/-- The ticket records of a window (R463). -/
def windowRecs (s : State) (e : Nat × Window) : List TicketRec :=
  (List.range e.2.len).filterMap fun i =>
    let t := getTicket s e.1 (e.2.base + i)
    if t.state = 0 then none else some ⟨e.1, i, e.2.len, { t with key := 0 }⟩

/-- The entries of a window free, with no GEN advance (R463). -/
def clearWindow (s : State) (e : Nat × Window) : State :=
  let s := (List.range e.2.len).foldl (fun s i =>
    let t := getTicket s e.1 (e.2.base + i)
    if t.state = 0 then s else setTicket s e.1 (e.2.base + i) { TicketEntry.zero with gen := t.gen }) s
  let x := getSlice s e.1
  setSlice s e.1 { x with windows := x.windows.filter (· != e.2) }

/-- Phase 4: tickets (R463). -/
def saveTickets (s : State) (w : Switch) : State :=
  let ws := jobWindows s w.tenant w.job
  let s := putSwitch s { w with tickets := ws.flatMap (windowRecs s), phase := 5 }
  ws.foldl clearWindow s

/-- A command of the job is withdrawn from engine `n`, its entry out of the ring (R464). -/
def withdraw (n : Nat) (s : State) (c : Cmd) : State :=
  modJob (leaveEngine s n c.entry) n c.entry fun e => { e with withdrawn := true }

/-- The commands of a job at an engine: parked, queued and held. -/
def saveEngine (t j : Nat) (r : State × List SavedCmd) (n : Nat) : State × List SavedCmd :=
  let e := getEngine r.1 n
  let mine := (e.parked ++ e.queue ++ e.held).filter (cmdIs t j)
  (mine.foldl (withdraw n) r.1, r.2 ++ mine.map fun c => ⟨n, c⟩)

/-- The copies of a job on a channel, which is then free for others; they stand ahead of the unit's queue. -/
def saveChannel (t j : Nat) (r : State × List SavedCmd) (x : Nat × Nat) : State × List SavedCmd :=
  let n := copyOf x.1
  let k := getChan r.1 x.1 x.2
  let cur := k.cur.toList.filter (cmdIs t j)
  let mine := cur ++ k.queue.filter (cmdIs t j)
  let s := setChan r.1 x.1 x.2
    { k with cur := if cur = [] then k.cur else none, cst := if cur = [] then k.cst else 2, queue := k.queue.filter fun c => !(cmdIs t j c) }
  (mine.foldl (withdraw n) s, r.2 ++ mine.map fun c => ⟨n, c⟩)

/-- The planes of a job in a cluster are saved and emptied (R464). -/
def savePlanes (t j : Nat) (r : State × List SavedPlane) (cl : Nat) : State × List SavedPlane :=
  let c := getCluster r.1 cl
  let own := fun (p : Plane) => p.k != 0 && p.tenant == t && p.job == j
  (setCluster r.1 cl { c with shadow := if own c.shadow then Plane.zero else c.shadow,
                              active := if own c.active then Plane.zero else c.active },
    r.2 ++ (if own c.shadow then [⟨cl, false, c.shadow⟩] else []) ++ (if own c.active then [⟨cl, true, c.active⟩] else []))

/-- The records of a job move to their rings and are held there (R464). -/
def holdRecords (t j : Nat) (c : Core) : Core :=
  let hold := fun (r : TaskRec) => if recordIs t j r then { r with held := true } else r
  { c with ring := (c.ring ++ c.deque.filter (recordIs t j)).map hold, deque := c.deque.filter fun r => !(recordIs t j r) }

/-- How many records of a job each ring holds (R464). -/
def recordCounts (s : State) (t j : Nat) : Tab Nat :=
  s.cores.filterMap fun e => let n := e.2.ring.countP (recordIs t j); if n = 0 then none else some (e.1, n)

/-- How many lines of a job each DRAM ready list holds (R460). -/
def readyCounts (s : State) (t j : Nat) : Tab Nat :=
  let mine := fun (e : Nat × Nat) => e.1 == t && (findLine s e.1 e.2).any fun x => jobOf s x == j
  s.clusters.filterMap fun e => let n := e.2.ready.countP mine; if n = 0 then none else some (e.1, n)

/-- Phase 5: engines and deques (R464). -/
def saveEngines (s : State) (w : Switch) : State :=
  let a := (channelNumbers s).foldl (saveChannel w.tenant w.job) (s, [])
  let b := (engineNumbers a.1).foldl (saveEngine w.tenant w.job) a
  let p := (b.1.clusters.map (·.1)).foldl (savePlanes w.tenant w.job) (b.1, [])
  let s := { p.1 with cores := p.1.cores.map fun e => (e.1, holdRecords w.tenant w.job e.2) }
  putSwitch s { w with cmds := b.2, planes := p.2, records := recordCounts s w.tenant w.job, phase := 6 }

/-- Phase 6 is complete: every line of the job is in its image or in a save area, STATE 1 or 4; one on another member is when that
member has said so (R460, R462). -/
def evictedNow (s : State) (t j : Nat) : Bool :=
  !(lineIn s t j fun p => match p with
    | .dram => false
    | .saved _ => false
    | .away _ saved => !saved
    | _ => true)

/-- The lines of the job that came from other members are written back here, so their homes may be told: what phase 6 on those members
waits for (R460). -/
def ownEvicted (s : State) (t j : Nat) : Bool :=
  !(lineIn s t j fun p => match p with
    | .dram => false
    | .saved _ => false
    | .away _ _ => false
    | _ => true)

/-- The job is saved; a kept resume begins (R460, R468). -/
def reachSaved (s : State) (w : Switch) : State :=
  let w := { w with phase := 7, ready := readyCounts s w.tenant w.job }
  let s := toHost (putSwitch s w) (.switched w.tenant w.job w.vmod false w.lcount)
  if w.keep then beginResume s { w with keep := false } else s

/-- The next phase of a switch out, when the present one is complete (R460). -/
def nextPhase (s : State) (w : Switch) : State :=
  match w.phase with
  | 0 => if remapWaits s || checkpointing s w.tenant then s else freeze (putSwitch s { w with phase := 1 }) w.tenant w.job
  | 1 => if frozenNow s w.tenant w.job then putSwitch s { w with phase := 2 } else s
  | 2 => if cutOpen s then s else putSwitch (sendMarkers s w.tenant w.job) { w with phase := 3 }
  | 3 => if allMarked s w then sweep s w else s
  | 4 => if ticketsStill s w.tenant w.job then saveTickets s w else s
  | 5 => saveEngines s w
  | 6 =>
    let s' := if ownEvicted s w.tenant w.job then noteLines s w.tenant w.job 3 else s
    if evictedNow s w.tenant w.job then reachSaved s' w else s'
  | 7 => if w.keep && !(checkpointing s w.tenant) then beginResume s { w with keep := false } else s
  | _ => s

/-- SWITCH_PHASE_COMPLETION (R460). -/
def execSwitchPhaseCompletion (tn job : Nat) (s : State) : Host.Outcome State Fault Refusal :=
  match findSwitch s tn job with
  | none => .next s
  | some w => if w.resume then .next s else .next (nextPhase s w)

/-! ### Phases back (R468) -/

/-- The saved windows: slice and length. -/
def savedWindows (w : Switch) : List (Nat × Nat) := (w.tickets.map fun r => (r.slice, r.len)).eraseDups

/-- A new window of the job at a slice, with the saved length. -/
def reopenWindow (t j : Nat) (s : State) (e : Nat × Nat) : Option State :=
  let x := getSlice s e.1
  (freeRun x e.2 1024 0 0).map fun b => setSlice s e.1 { x with windows := x.windows ++ [⟨t, j, b, e.2⟩] }

/-- New windows for all of them, or none if some slice has no run (R468). -/
def reopenAll (t j : Nat) : List (Nat × Nat) → State → Option State
  | [], s => some s
  | e :: l, s => (reopenWindow t j s e).bind (reopenAll t j l)

/-- A ticket entry reinstalled with its INDEX and GEN (R263, R468). -/
def reinstall (t j : Nat) (s : State) (r : TicketRec) : State :=
  match windowOf s r.slice t j with
  | some w => setTicket s r.slice (w.base + r.index) r.entry
  | none => s

/-- A restore step of a plane at the tail of its Last's queue (R468). -/
def restorePlane (t j : Nat) (s : State) (p : SavedPlane) : State :=
  let id := freshId s
  let c : Cmd := ⟨512 + id.1, t, j, 0, 1, 0, none, false, false, 0, .restore p.active p.plane, none, none, 0, [], 0, none⟩
  let e := getEngine id.2 (lastOf p.cl)
  setEngine id.2 (lastOf p.cl) { e with queue := e.queue ++ [c] }

/-- Where a saved command goes back to. -/
inductive Back where
  | queue
  | held
  | parked
  | channel (n : Nat)

/-- A parked copy goes to the queue of its channel, every other parked command to the parked store, a swap command held by its guard to
its cluster, the rest to the engine's queue (R464, R468). -/
def backTo (s : State) (c : SavedCmd) : Back :=
  match (tabFind c.cmd.entry (getEngine s c.eng).jobs).map (·.state) with
  | some 3 => if c.eng < 1024 ∧ c.eng % 4 = 2 then .channel (opChannel c.cmd.op) else .parked
  | some 1 => if c.eng < 1024 then .queue else .held
  | _ => .queue

/-- A saved command back at its engine, its entry in the ring again (R464, R468). -/
def restoreCmd (s : State) (c : SavedCmd) : State :=
  let s := modJob s c.eng c.cmd.entry fun j => { j with withdrawn := false }
  let e := getEngine s c.eng
  match backTo s c with
  | .queue => setEngine s c.eng { e with queue := e.queue ++ [c.cmd] }
  | .held => setEngine s c.eng { e with held := e.held ++ [c.cmd] }
  | .parked => setEngine s c.eng { e with parked := e.parked ++ [c.cmd] }
  | .channel n =>
    let k := getChan s (c.eng / 4) n
    setChan s (c.eng / 4) n { k with queue := k.queue ++ [c.cmd] }

/-- The records of a job held in rings are released where they stand (R468). -/
def freeRecords (t j : Nat) (c : Core) : Core :=
  { c with ring := c.ring.map fun r => if recordIs t j r then { r with held := false } else r }

/-- Phase 1 of a resume (R468). -/
def restorePhase (s : State) (w : Switch) : State :=
  match reopenAll w.tenant w.job (savedWindows w) s with
  | none => s
  | some s =>
    let s := w.tickets.foldl (reinstall w.tenant w.job) s
    let s := w.planes.foldl (restorePlane w.tenant w.job) s
    let s := w.cmds.foldl restoreCmd s
    putSwitch { s with cores := s.cores.map fun e => (e.1, freeRecords w.tenant w.job e.2) }
      { w with tickets := [], planes := [], cmds := [], ready := [], records := [], phase := 2 }

/-- Packets back on the network with numbers of this member (R470). -/
def renumber (s : State) (l : List Pkt) : List Pkt × State :=
  l.foldl (fun r p => (r.1 ++ [{ p with id := r.2.nextId }], { r.2 with nextId := r.2.nextId + 1 })) ([], s)

/-- Phase 2 of a resume: each packet goes back to its buffer, in the order in which it was sent, then the late ring, ahead of everything
that enters later, and the messages for lines with them (R468, R469). -/
def reinject (s : State) (w : Switch) : State :=
  let b := renumber s (sortBy (·.id) w.pkts ++ w.late)
  let s := { b.2 with net := b.1 ++ b.2.net, msgs := w.msgs ++ b.2.msgs }
  let s := noteLines (notePkts s b.1 2) w.tenant w.job 4
  let s := putSwitch s { w with pkts := [], msgs := [], late := [], phase := 3 }
  mapLines s (fun x => x.tenant == w.tenant && x.line.job.toNat == w.job) fun x =>
    match x.place with
    | .saved c => { x with place := .flight c }
    | .away v true => { x with place := .away v false }
    | _ => x

/-- Phase 3 of a resume: the job runs again (R468). -/
def reopenJob (s : State) (w : Switch) : State :=
  toHost { s with switches := s.switches.filter fun x => !(switchIs w.tenant w.job x) }
    (.switched w.tenant w.job (vmodOf s w.tenant w.job) true w.lcount)

/-- RESUME_PHASE_COMPLETION (R468). -/
def execResumePhaseCompletion (tn job : Nat) (s : State) : Host.Outcome State Fault Refusal :=
  match findSwitch s tn job with
  | none => .next s
  | some w =>
    if w.resume = false then .next s
    else match w.phase with
      | 1 => .next (restorePhase s w)
      | 2 => .next (reinject s w)
      | _ => .next (reopenJob s w)

/-! ### Late packets (R467) -/

/-- A job packet that arrives now is late: after the sweep, saved, or in the restore phase of a resume. -/
def isLate (s : State) (p : Pkt) : Bool :=
  !(p.ans) && s.switches.any fun w => switchIs p.tenant p.job w && (if w.resume then w.phase == 1 else decide (4 ≤ w.phase))

/-- A job packet that arrives now is refused: the buffers hold what was reinjected (R468). -/
def isReinjecting (s : State) (t j : Nat) : Bool :=
  s.switches.any fun w => switchIs t j w && w.resume && decide (2 ≤ w.phase)

/-- A late packet is kept in the ring or, when it is full, dropped; a record tells the tenant (R467). -/
def takeLate (s : State) (p : Pkt) : State :=
  match findSwitch s p.tenant p.job with
  | none => s
  | some w =>
    let kept := decide (w.late.length < 1024)
    let s := putSwitch s (if kept then { w with late := w.late ++ [savedPkt s p], lcount := w.lcount + 1 } else { w with ldrop := w.ldrop + 1 })
    report s p.tenant ⟨0, 0, 74, 0, 4, false, BitVec.ofNat 64 p.target,
      BitVec.ofNat 48 (p.src + pktClass p.body * 2 ^ 10 + b2n kept * 2 ^ 12), p.job⟩

end Sys2Proof.Machine
end

