-- ==== Sys2Proof/Machine/SaveArea.lean ====
section
/-! DEFINITION. Machine/SaveArea.lean: the save area of a switched job as bytes (R461 to R466): header, packet records, line and
task-record counts, ticket records, engine command records, Last plane records, late-packet ring. The places of the fields within the
header and the ticket, command and plane records, which the spec does not state, are log entry 41. -/

namespace Sys2Proof.Machine

/-- Bytes filled up with zeros to `n`. -/
def padTo (n : Nat) (l : List Byte) : List Byte := l ++ List.replicate (n - l.length) 0

/-- Counts of a section, 4 bytes each, by number. -/
def countBytes (n : Nat) (t : Tab Nat) : List Byte := (List.range n).flatMap fun i => natLe (tabGet 0 i t) 4

/-- The packet records, in the order of R461. -/
def packetSection (w : Switch) : List Byte := w.pkts.zipIdx.flatMap fun e => pktRecord e.2 e.1

/-- The lines of the job on each cluster's ready list, and its records in each core's ring (R460, R464). -/
def readySection (w : Switch) : List Byte := countBytes 256 w.ready
def recordSection (w : Switch) : List Byte := countBytes 2048 w.records

/-- The late-packet ring: ORDER of a late record is 0, which the spec does not state (R466, R467, log entry 98). -/
def lateSection (w : Switch) : List Byte := padTo (160 * 1024) (w.late.flatMap (pktRecord 0))

/-- A ticket record: SLICE, INDEX, GEN, STATE, SIZE, ACQS, TENANT, the window's length, and the data (R463). -/
def ticketBytes (r : TicketRec) : List Byte :=
  padTo 32 (natLe (packFields [(16, r.slice), (16, r.index), (16, r.entry.gen.toNat), (8, r.entry.state), (8, r.entry.size), (8, r.entry.acqs),
    (8, r.entry.tenant), (16, r.len)]) 32) ++ padTo 64 r.entry.data

/-- A tile operand with its descriptor snapshot: cluster and handle, then the TDT entry. -/
def tileRecord (t : Tile) : List Nat :=
  let n := tdtNat t.desc
  packFields [(32, t.handle.toNat), (8, t.cl)] :: (List.range 4).map fun i => nbits n (64 * i) 64

/-- A tile operand that may be absent: zero words. -/
def optTileWords (t : Option Tile) : List Nat := (t.map tileRecord).getD (List.replicate 5 0)

/-- The work of a command: its number and operands. -/
def opWords : CmdOp → List Nat
  | .lw t => 0 :: tileRecord t
  | .lswap => [1]
  | .lstream act dst stg hentry acc spz rtz arg =>
    [2, packFields [(48, hentry.toNat), (1, b2n acc), (1, b2n spz), (1, b2n rtz), (1, b2n stg.isSome)], arg.toNat] ++ tileRecord act
      ++ tileRecord dst ++ optTileWords stg
  | .ldrain => [3]
  | .lcfg s a => [4, packFields [(1, b2n s), (1, b2n a)]]
  | .tread fn dst a b c red rtz =>
    [5, packFields [(8, fn), (8, red), (1, b2n rtz), (1, b2n dst.isSome), (1, b2n a.isSome), (1, b2n b.isSome), (1, b2n c.isSome)]]
      ++ optTileWords dst ++ optTileWords a ++ optTileWords b ++ optTileWords c
  | .copy src dst len ch setf dist dpat => [6, src, dst, len, packFields [(8, ch), (1, b2n setf), (1, b2n dist)], dpat.toNat]
  | .cwm ch => [7, ch]
  | .chan ch => [8, ch]
  | .scmc i v => [9, i, v.toNat]
  | .sld i => [10, i]
  | .swpin va => [11, va]
  | .swpout va => [12, va]
  | .swpq va => [13, va]
  | .restore active _ => [14, b2n active]

/-- A row in staging: its row, staging row, state and line. -/
def stgWords (r : StgRow) : List Nat := [packFields [(16, r.row), (16, r.srow), (8, r.state)], r.line]

/-- The job number of a saved command (R310): its entry and the entry's SEQ. -/
def cmdNumber (s : State) (c : SavedCmd) : Nat :=
  packFields [(10, c.cmd.entry), (24, ((tabFind c.cmd.entry (getEngine s c.eng).jobs).map (·.seq.toNat)).getD 0), (16, c.eng)]

/-- An engine command record: job number, captured operands, descriptor snapshots, restart point and staging rows (R464). -/
def cmdBytes (s : State) (c : SavedCmd) : List Byte :=
  let x := c.cmd
  let guard := match x.guard with
    | some (cl, i, g) => packFields [(1, 1), (8, cl), (4, i), (8, g.toNat)]
    | none => 0
  let flags := packFields [(8, x.tenant), (16, x.job), (4, x.prio.toNat), (2, x.level), (1, b2n x.acq), (1, b2n x.rel), (2, x.scope.toNat),
    (1, b2n x.res.isSome), (3, (x.res.map (·.toNat)).getD 0), (1, b2n x.post.isSome), (17, (x.post.map fun p => p.1 * 64 + p.2).getD 0),
    (5, x.exc.toNat)]
  padTo 512 (wordBytes ([cmdNumber s c, flags, x.line, guard, x.at_] ++ opWords x.op ++ x.stg.flatMap stgWords))

/-- A Last plane record: position, tenant, job, size, format, scaling; then elements, block exponents and scales, packed (R464). -/
def planeBytes (r : SavedPlane) : List Byte :=
  let p := r.plane
  let bits := fmtBits p.fmt
  let elems := p.elems.flatten
  padTo 20480 (wordBytes [packFields [(8, r.cl), (1, b2n r.active), (8, p.tenant), (16, p.job)],
      packFields [(16, p.k), (16, p.n), (8, p.fmt), (1, b2n p.scv), (8, p.sglog)]]
    ++ natLe (packElems bits elems) ((elems.length * bits + 7) / 8) ++ p.exps.flatten.map (BitVec.ofNat 8)
    ++ p.scales.flatMap fun v => natLe v 4)

/-- The ticket, command and plane records. -/
def ticketSection (w : Switch) : List Byte := w.tickets.flatMap ticketBytes
def cmdSection (s : State) (w : Switch) : List Byte := w.cmds.flatMap (cmdBytes s)
def planeSection (w : Switch) : List Byte := w.planes.flatMap planeBytes

/-- state of the header: 0 saving, 1 saved, 2 resuming (R465). -/
def switchState (w : Switch) : Nat := if w.resume then 2 else if w.phase = 7 then 1 else 0

/-- The sizes and counts of the sections, in the order of R465. -/
def sectionSizes (w : Switch) : List (Nat × Nat) :=
  [(160 * w.pkts.length, w.pkts.length), (1024, 256), (8192, 2048), (96 * w.tickets.length, w.tickets.length),
    (512 * w.cmds.length, w.cmds.length), (20480 * w.planes.length, w.planes.length), (160 * 1024, w.late.length)]

/-- Base, from the start of the area, and count of each section. -/
def sectionTable : Nat → List (Nat × Nat) → List Nat
  | _, [] => []
  | b, e :: l => b :: e.2 :: sectionTable (b + e.1) l

/-- The header (R465). -/
def headerBytes (w : Switch) : List Byte :=
  padTo 256 (wordBytes ([packFields [(8, w.tenant), (16, w.job), (10, w.vmod), (2, switchState w)]] ++ sectionTable 256 (sectionSizes w)
    ++ [w.lcount, w.ldrop]))

/-- The save area (R465). -/
def saveArea (s : State) (w : Switch) : List Byte :=
  headerBytes w ++ packetSection w ++ readySection w ++ recordSection w ++ ticketSection w ++ cmdSection s w ++ planeSection w ++ lateSection w

end Sys2Proof.Machine
end

