-- ==== Sys2Proof/Machine/Fabric.lean ====
section
/-! DEFINITION. Machine/Fabric.lean: the fabric transport (R449 to R454): data, marker and control frames received in order, frames
sent and sent again, acknowledgements, nacks and failed flows. -/

namespace Sys2Proof.Machine

/-! ### Receiving (R451 to R453) -/

/-- A sequence number is before another, modulo 2³². -/
def seqBefore (a b : BitVec 32) : Bool := decide ((a - b).toInt < 0)

/-- The sender's frames before ACKSEQ have been placed at the receiver (R452). -/
def takeAck (s : State) (id : FlowId) (ack : BitVec 32) : State :=
  match findFlow s id with
  | some f => putFlow s { f with unacked := f.unacked.filter fun u => !(seqBefore u.1.seq ack) }
  | none => s

/-- An acknowledgement on the reverse flow, to the address the frame came from. -/
def sendAck (s : State) (f : RawFrame) : State := sendBare s 1 (reverseFlow f.flow) 0 0 f.from_

/-- A transport nack with the SEQ the receiver waits for (R452). -/
def sendNack (s : State) (f : RawFrame) (seq : BitVec 32) : State := sendBare s 2 (reverseFlow f.flow) seq 0 f.from_

/-- A device nack (R453, R467). -/
def sendDeviceNack (s : State) (f : RawFrame) (reason : Nat) : State := sendBare s 4 (reverseFlow f.flow) 0 reason f.from_

/-- The `n` bytes at an address lie in a frame of the tenant: no packet reaches the memory of another tenant (R474). -/
def frameOwned (s : State) (t a n : Nat) : Bool :=
  s.used.any fun e => e.2.1 == t && decide (e.1 ≤ a) && decide (a + n ≤ e.1 + 2 ^ levelShift e.2.2)

/-- The bytes that a packet names: those it reads or writes, the block of a ticket load, the byte a `go` names. -/
def bytesNamed : PktBody → Nat
  | .read n _ _ => n
  | .write n _ _ => n
  | .rmw _ n _ _ _ => n
  | .ticket size _ _ => 8 * 2 ^ size
  | _ => 1

/-- The packet names bytes of this member. -/
def namesBytes : PktBody → Bool
  | .read _ _ _ => true
  | .write _ _ _ => true
  | .rmw _ _ _ _ _ => true
  | .ticket _ _ _ => true
  | .line _ _ => true
  | _ => false

/-- A packet that this member can use: for it, from a member of a job that it knows, and within its tenant's memory (R453, R474). -/
def usable (s : State) (p : Pkt) : Bool :=
  (getTenant s p.tenant).live && p.dst == vmodOf s p.tenant p.job && isMember s p.tenant p.job p.src
    && (!(namesBytes p.body) || frameOwned s p.tenant (locAddr p.loc) (bytesNamed p.body))

/-- The packet as it stands on this member, in the ingress queue of a port: where it goes, a number and the map generation of this member
(R461). -/
def localPkt (s : State) (port : Nat) (p : Pkt) : Pkt :=
  let loc := match p.body with
    | .push _ _ => pushLoc
    | .post name _ => counterAt name
    | _ => .cell (locAddr p.loc)
  { p with id := s.nextId, loc := loc, dmgen := s.dmgen, bufClass := 3, bufId := port }

/-- A device packet of a frame: unusable, late, or on its way here. -/
def takePkt (port : Nat) (f : RawFrame) (s : State) (r : RawPkt) : State :=
  match pktOfRaw f.flow.tenant f.flow.job r with
  | none => sendDeviceNack s f 0
  | some p =>
    if usable s p = false then sendDeviceNack s f 0
    else if isLate s p then sendDeviceNack (takeLate { s with nextId := s.nextId + 1 } (localPkt s port p)) f 1
    else sendPkt s (localPkt s port p)

/-- A host message: it waits for its turn in its queue; one that stands for no message is refused (R455, R456). -/
def takeHost (f : RawFrame) (s : State) (r : RawPkt) : State :=
  match hostInstr f.flow.tenant r with
  | some i => queueMsg s i
  | none => ackHost s (BitVec.ofNat 32 (nbits r.aux 32 32)) 1

/-- The job of switch control: AUX names it (R450). -/
def controlJob (r : RawPkt) : Nat := nbits r.aux 32 16

/-- The job of a received frame. -/
def rawJob (f : RawFrame) : Nat :=
  match f.ty, f.pkts with
  | 5, r :: _ => controlJob r
  | _, _ => f.flow.job

/-- What a frame of each sequenced type does when it is delivered. -/
def deliverFrame (s : State) (port : Nat) (f : RawFrame) : State :=
  match f.ty with
  | 0 => f.pkts.foldl (if f.flow.src = hostMod then takeHost f else takePkt port f) s
  | 3 => takeMarker s f.flow.tenant f.flow.job f.flow.src f.flow.cls
  | _ => f.pkts.foldl (fun s r => if r.kind = 7 then takeNote s f.flow.tenant r.target f.flow.src (nbits r.aux 0 32)
      else takeControl s f.flow.tenant (controlJob r) (r.target == 1)) s

/-- The frame is from the host that the port is bound to, by the host port (R455, R486). -/
def fromBound (s : State) (port : Nat) (f : RawFrame) : Bool :=
  port == hostPort && f.flow.src == hostMod && s.host.bound == some f.from_

/-- The frame comes from a member of the job's gang and is for this one (R453). -/
def frameKnown (s : State) (port : Nat) (f : RawFrame) : Bool :=
  fromBound s port f || (port != hostPort && (getTenant s f.flow.tenant).live && isMember s f.flow.tenant (rawJob f) f.flow.src
    && f.flow.dst == vmodOf s f.flow.tenant (rawJob f))

/-- The ingress buffer of a flow's class is full: its size is the device's, but it is not full while nothing of the class stands in it
(R453). -/
def ingressFull (s : State) (cls : Nat) : Bool × State :=
  if s.net.any fun p => !(isOurs s p) && pktClass p.body == cls then
    let c := choose s 2
    (c.1 == 1, c.2)
  else (false, s)

/-- A flow of this job to this member has failed (R454). -/
def flowDead (s : State) (id : FlowId) : Bool :=
  s.flows.any fun f => f.failed && f.id.src == id.src && f.id.dst == id.dst && f.id.tenant == id.tenant && f.id.job == id.job

/-- A frame that carries a SEQ: delivered when it is the next of its flow; a gap, a full buffer or a job in reinjection draws a transport
nack, a duplicate an acknowledgement, a stranger a device nack, a failed flow nothing (R451 to R454, R468). -/
def takeSequenced (s : State) (port : Nat) (f : RawFrame) : State :=
  let r := theFlow s f.flow
  let full := ingressFull (putFlow r.2 r.1) f.flow.cls
  let s := full.2
  if flowDead s f.flow then s
  else if seqBefore f.seq r.1.expect then sendAck s f
  else if f.seq ≠ r.1.expect then sendNack s f r.1.expect
  else if frameKnown s port f = true ∧ (isReinjecting s f.flow.tenant (rawJob f) = true ∨ full.1 = true) then sendNack s f r.1.expect
  else
    let s := takeAck (putFlow s { r.1 with expect := r.1.expect + 1 }) (reverseFlow f.flow) f.ackSeq
    if frameKnown s port f then sendAck (deliverFrame s port f) f else sendDeviceNack s f 0

/-! ### Sending (R451, R452) -/

/-- A packet that waits for a port: for another member, and not held by a gang switch (R459, R460). -/
def outgoing (s : State) (port : Nat) (p : Pkt) : Bool :=
  p.dst != vmodOf s p.tenant p.job && served s p && (match findFlow s (flowOf s p) with
    | some f => f.port == port
    | none => true)

/-- A packet leaves in a frame of its flow; a flow not yet known takes this port. -/
def sendOut (s : State) (port : Nat) (p : Pkt) : State :=
  let id := flowOf s p
  let s := dropPkt s p.id
  if flowDead s id then s
  else
    let s := if (findFlow s id).isSome then s else putFlow s ⟨id, port, 0, 0, [], false⟩
    sendFrame s 0 id [p]

/-- The die of a fabric port (R449). -/
def portDie (port : Nat) : Nat := port / 2

/-- This member sends on the flow: its VMOD and the other member stand in the gang map of the job, or of some job for a flow of no job. -/
def sendsOn (s : State) (id : FlowId) : Bool :=
  s.gangs.any fun e => e.1 / 65536 == id.tenant && (id.job == 0 || e.1 % 65536 == id.job)
    && e.2.vmod == id.src && e.2.members.any fun m => m.1 == id.dst

/-- The host port's turn to transmit: the next message to the host, in its order, else a heartbeat (R452, R455, R457). -/
def sendHost (s : State) : State :=
  match s.host.out[s.host.sent]? with
  | some m => sendFrame { s with host := { s.host with sent := s.host.sent + 1 } } 0 (hostFlow m) (hostPkts m)
  | none => sendBare s 6 ⟨0, hostMod, 0xFF, 0, 0⟩ 0 0 (s.host.bound.getD (-1))

/-- HEARTBEAT_SEND: the port's turn to transmit: a data frame when a packet waits for it, else a heartbeat (R452). -/
def execHeartbeatSend (port : Nat) (s : State) : Host.Outcome State Fault Refusal :=
  if port = hostPort then .next (sendHost s)
  else if 16 ≤ port ∨ dieRuns s (portDie port) = false then .next s
  else match s.net.find? (outgoing s port) with
    | some p => .next (sendOut s port p)
    | none =>
      match s.flows.find? fun f => f.port == port && !(f.failed) && sendsOn s f.id with
      | some f => .next (sendBare s 6 f.id 0 0 (addressOf s f.id.tenant f.id.job f.id.dst))
      | none => .next { s with portSent := tabPut 0 port (tabGet 0 port s.portSent + 1) s.portSent }

/-- Send an unacknowledged frame again; one sent 64 times is not sent any more (R454). -/
def resend (s : State) (id : FlowId) (u : Frame × Nat × Nat) : State :=
  match findFlow s id with
  | none => s
  | some f =>
    if 64 ≤ u.2.2 then s
    else
      let s := onPort s f.port (frameTo s u.1) u.1
      match findFlow s id with
      | none => s
      | some f => putFlow s { f with
          unacked := f.unacked.map fun x => if x.1.seq = u.1.seq then (x.1, 0, x.2.2 + 1) else x }

/-- RETRANSMISSION: a frame still unacknowledged after 1,024 further frames of its port (R452). -/
def execRetransmission (flow : FlowId) (s : State) : Host.Outcome State Fault Refusal :=
  match findFlow s flow with
  | none => .next s
  | some f =>
    match (if f.failed then none else f.unacked.find? fun u => decide (1024 ≤ u.2.1) && decide (u.2.2 < 64)) with
    | none => .next s
    | some u => .next (resend s flow u)

/-- FABRIC_ACK (R452). -/
def execFabricAck (flow : FlowId) (ackSeq : BitVec 32) (s : State) : Host.Outcome State Fault Refusal :=
  .next (takeAck s flow ackSeq)

/-- HEARTBEAT: a heartbeat frame acknowledges (R452). -/
def execHeartbeat (flow : FlowId) (ackSeq : BitVec 32) (s : State) : Host.Outcome State Fault Refusal :=
  .next (takeAck s flow ackSeq)

/-- The sender sends again from the missing SEQ (R452). -/
def resendFrom (s : State) (flow : FlowId) (seq : BitVec 32) : State :=
  match findFlow s flow with
  | none => s
  | some f =>
    if f.failed then s else (f.unacked.filter fun u => !(seqBefore u.1.seq seq)).foldl (fun s u => resend s flow u) s

/-- TRANSPORT_NACK (R452). -/
def execTransportNack (flow : FlowId) (seq : BitVec 32) (s : State) : Host.Outcome State Fault Refusal := .next (resendFrom s flow seq)

/-- The jobs a flow serves: of switch control, those its unacknowledged frames name (R450). -/
def flowJobs (f : Flow) : List Nat := if f.id.cls = 3 then (f.unacked.map fun u => frameJob u.1).eraseDups else [f.id.job]

/-- The record of a device nack, and the end of the job it is for (R453). The record's ADDR and the rest of its TDATA are not stated
(log entry 5). -/
def nackJob (t : Nat) (s : State) (j : Nat) : State :=
  let a := freeValue s
  let d := freeValue a.2
  killJob (report d.2 t ⟨0, 0, 74, 0, 4, false, a.1, (d.1.setWidth 48) &&& ~~~(0x1000 : BitVec 48), j⟩) t j

/-- A device nack of a flow of this member: reason 0 writes a record and kills the job whose packet was refused, on a flow of class 3
that of the switch control among the frames it acknowledges, reason 1 does nothing (R453, R467). -/
def takeDeviceNack (s : State) (flow : FlowId) (reason : Nat) (acked : Frame → Bool) : State :=
  match findFlow s flow with
  | some f =>
    if reason ≠ 0 then s else (flowJobs { f with unacked := f.unacked.filter fun u => acked u.1 }).foldl (nackJob flow.tenant) s
  | none => s

/-- DEVICE_NACK (R453, R467). -/
def execDeviceNack (flow : FlowId) (reason : Nat) (s : State) : Host.Outcome State Fault Refusal :=
  .next (takeDeviceNack s flow reason fun _ => true)

/-- A flow of the job to this member is failed, so that its later packets there are discarded (R454). -/
def failFlowOf (flow : FlowId) (s : State) (j : Nat) : State :=
  let r := theFlow s { flow with job := j, cls := 0 }
  putFlow r.2 { r.1 with failed := true, unacked := [] }

/-- The packets of a job to a member are discarded. -/
def discardTo (t m : Nat) (s : State) (j : Nat) : State :=
  { s with net := s.net.filter fun p => !(p.tenant == t && p.job == j && p.dst == m && isOurs s p) }

/-- FLOW_FAILURE: a frame sent 64 times without acknowledgement fails its flow: the sending member kills the job, each end tells its host
and discards what comes later of the job (R454). An end with nothing unacknowledged that has received is the receiving one, whose
failure is what this event says. FCODE, ADDR and TDATA of the message's record are not stated (log entry 5). -/
def execFlowFailure (flow : FlowId) (s : State) : Host.Outcome State Fault Refusal :=
  match findFlow s flow with
  | none => .next s
  | some f =>
    let sending := !(f.unacked.isEmpty)
    let given := if sending then f.unacked.any fun u => decide (64 ≤ u.2.2) else f.expect != 0
    if f.failed = true ∨ given = false then .next s
    else
      let c := freeValue (putFlow s { f with failed := true, unacked := [] })
      let a := freeValue c.2
      let d := freeValue a.2
      let jobs := flowJobs f
      let s' := if sending then
          let s := jobs.foldl (discardTo flow.tenant flow.dst) (jobs.foldl (fun s j => killJob s flow.tenant j) d.2)
          if flow.cls = 3 then jobs.foldl (failFlowOf flow) s else s
        else d.2
      .next (toHost s' (.deviceFault flow.tenant ⟨0, 0, c.1.setWidth 8, 0, 4, false, a.1, d.1.setWidth 48, flow.job⟩))

/-! ### Frames as bytes (R449, R450) -/

/-- A frame of each TYPE: what carries a SEQ is delivered in order; acknowledgements and nacks act on the reverse flow. -/
def takeFrame_ (s : State) (port : Nat) (f : RawFrame) : State :=
  let mine := reverseFlow f.flow
  match f.ty with
  | 1 => takeAck s mine f.ackSeq
  | 2 => resendFrom (takeAck s mine f.ackSeq) mine f.seq
  | 4 => takeAck (takeDeviceNack s mine f.reason fun u => seqBefore u.seq f.ackSeq) mine f.ackSeq
  | 6 => takeAck s mine f.ackSeq
  | _ => takeSequenced s port f

/-- FABRIC_DATA_FRAME: the bytes of a frame at one of the fabric ports or, as port 16, the host port: discarded, counted as of another
EtherType, or taken (R449 to R455). A port of a die that does not run takes nothing, and the host port only what its host sends. -/
def execFabricDataFrame (f : Arrival) (s : State) : Host.Outcome State Fault Refusal :=
  if 16 < f.port ∨ dieRuns s (if f.port = hostPort then 0 else portDie f.port) = false then .next s
  else match readFrame s.etherType f.bytes with
    | .discarded => .next s
    | .strange => .next { s with strange := s.strange + 1 }
    | .frame r => if f.port = hostPort ∧ fromBound s f.port r = false then .next s else .next (takeFrame_ s f.port r)

end Sys2Proof.Machine
end

