-- ==== Sys2Proof/Machine/Transit.lean ====
section
/-! DEFINITION. Machine/Transit.lean: transit snapshots (R423, R477 to R480): the latch of a block, and the markers. -/

namespace Sys2Proof.Machine

/-! ### Latching (R477, R478) -/

/-- What a link end had emitted when its block sent its marker: its SENT, or while the block has still to latch, what has left so far. -/
def emittedBy (s : State) (l : List Snap) (e : Nat × Nat × Nat) : Nat :=
  match l.find? fun r => r.bkind == e.1 && r.block == e.2.1 && r.link == e.2.2 with
  | some r => r.sent
  | none => emitted s e

/-- The packets that left by a link end, the last of their way, and stand before the block at its other end. -/
def standing (s : State) (e : Nat × Nat × Nat) : Nat :=
  s.net.countP fun p => (linkPath (sourceOf s p) (goalOf s p)).getLast? == some e

/-- The record of a link end at the latch: SENT is what the block has emitted there. RCVD is all of the link when its marker is what came;
else the packets that stand before the block may have been taken into it or not (log entry 27). -/
def latchEnd (t : Transit) (kind block : Nat) (via : Option Nat) (r : List Snap × State) (link : Nat) : List Snap × State :=
  let peer := linkPeer kind block link
  let total := emittedBy r.2 t.records peer
  let own := emitted r.2 (kind, block, link)
  if via = some link then (r.1 ++ [⟨t.id, kind, block, link, own, total, 0⟩], r.2)
  else
    let low := total - standing r.2 peer
    let c := choose r.2 (total - low + 1)
    (r.1 ++ [⟨t.id, kind, block, link, own, low + c.1, 0⟩], c.2)

/-- The records of the flows of a die's fabric ports: the SEQ sent and the SEQ acknowledged (R477). -/
def flowSnaps (s : State) (id block : Nat) : List Snap :=
  let mine := s.flows.filter fun f => f.port / 2 == block / 256
  (List.range mine.length).filterMap fun i =>
    mine[i]?.map fun f => ⟨id, 4, block, i + 1, f.seq.toNat, (f.seq - BitVec.ofNat 32 f.unacked.length).toNat, 0⟩

/-- A block latches its record. -/
def latchBlock (s : State) (t : Transit) (kind block : Nat) (via : Option Nat) : State :=
  let r := (blockLinks s kind block).foldl (latchEnd t kind block via) ([], s)
  let flows := if kind = 4 then flowSnaps s t.id block else []
  { r.2 with transit := some { t with records := t.records ++ r.1 ++ flows } }

/-- The marker of a link closes its count: what came after the latch. -/
def closeEnd (t : Transit) (kind block link : Nat) : Transit :=
  let peer := linkPeer kind block link
  let sent := ((t.records.find? fun r => r.bkind == peer.1 && r.block == peer.2.1 && r.link == peer.2.2).map (·.sent)).getD 0
  { t with records := t.records.map fun r =>
      if r.bkind = kind ∧ r.block = block ∧ r.link = link then { r with inch := sent - r.rcvd } else r }

/-! ### The trigger and the markers -/

/-- transit (R423, R480): completes once the issuing core has latched. -/
def execTransit (g : BitVec 4) (a : Reg) (s : State) : Host.Outcome State Fault Refusal :=
  issueWord (hdrPriv g [a] 2 (.transit g a)) (fun c s =>
    match checkTags c.t.line [(a, [0])] with
    | some e => .trap e
    | none =>
      let id := (getG c.t.line a).toNat
      if 2 ^ 16 ≤ id then .trap (trapRange a)
      else match s.transit with
        | some t => if t.id = id then .ok s c.t else .retry s c.t.req c.t.replies
        | none => .ok (latchBlock s ⟨id, [], []⟩ 0 c.core none) c.t) s

/-- A link end still in use counts. -/
def endCounts (s : State) (e : Nat × Nat × Nat) : Bool := isLink s e.1 e.2.1 e.2.2

/-- Every block has a marker on every input link: the records go to the host (R479). -/
def endTransit (s : State) (t : Transit) : State :=
  if (t.markers.filter (endCounts s)).length = linkEnds s then
    t.records.foldl (fun s r => toHost s (.snapshot t.id (snapBytes r))) { s with transit := none }
  else s

/-- TRANSIT_MARKER: the marker of a link arrives, behind every packet its sender emitted before it latched; the first marker latches
the block (R477). -/
def execTransitMarker (bkind block link : Nat) (s : State) : Host.Outcome State Fault Refusal :=
  match s.transit with
  | none => .next s
  | some t =>
    let p := linkPeer bkind block link
    if isLink s bkind block link = false ∨ t.markers.contains (bkind, block, link) = true ∨ hasLatched t p.1 p.2.1 = false then .next s
    else
      let t' := { t with markers := t.markers ++ [(bkind, block, link)] }
      let s' := if hasLatched t bkind block then { s with transit := some (closeEnd t' bkind block link) }
        else latchBlock s t' bkind block (some link)
      match s'.transit with
      | some u => .next (endTransit s' u)
      | none => .next s'

end Sys2Proof.Machine
end

