-- ==== Sys2Proof/Machine/Remap.lean ====
section
/-! DEFINITION. Machine/Remap.lean: the die map (R437, R438), the remap of a virtual die (R439 to R442), and lost dies (R443,
R444). -/

namespace Sys2Proof.Machine

/-! ### What lies on a die -/

/-- The virtual die of a granule of the ownership table. -/
def granuleDie (gr : Nat) : Nat := if gr < 2 ^ 20 then gr / 256 / 32 else (gr - 2 ^ 20) / 32 / 256

/-- The caches, or the core a line flies to, are on die `v`. -/
def placeOn (v : Nat) (p : Place) : Bool :=
  match p with
  | .slot c _ => dieOf c == v
  | .cl1 c => dieOf c == v
  | .cl2 cl => dieOfCluster cl == v
  | .dram => false
  | .flight c => dieOf c == v
  | .saved c => dieOf c == v
  | .away _ _ => false

/-- The image of a line, and with it its home directory, is on die `v`. -/
def imageOn (s : State) (v : Nat) (x : LiveLine) : Bool :=
  match cellOf s x.tenant x.addr with
  | some k => homeDie s k == some v
  | none => false

/-- A line has its live copy, its image or its way on die `v` (R443). -/
def lineOn (s : State) (v : Nat) (x : LiveLine) : Bool := placeOn v x.place || imageOn s v x

/-- Tenant `t` holds a granule, frame, TDT entry, slice window, queue, counter or line on die `v` (R444). -/
def holdsOn (s : State) (v t : Nat) : Bool :=
  s.owner.any (fun e => e.2 == t && granuleDie e.1 == v)
    || s.used.any (fun e => e.2.1 == t && homeDie s e.1 == some v)
    || s.clusters.any (fun e => dieOfCluster e.1 == v && e.2.tdt.any fun d => d.2.state != 0 && d.2.tenant.toNat == t)
    || s.slices.any (fun e => dieOfSlice e.1 == v && e.2.windows.any fun w => w.tenant == t)
    || s.cores.any (fun e => dieOf e.1 == v
        && (e.2.mail.any (fun c => c.2.valid && c.2.tenant == t) || e.2.queues.any fun q => q.tenant == t))
    || s.lines.any (fun x => x.tenant == t && lineOn s v x)

/-- The tenants that hold something on die `v`. -/
def holdersOf (s : State) (v : Nat) : List Nat := (s.tenants.map (·.1)).filter (holdsOn s v)

/-- The die may be set offline: nothing of a tenant lies there (R438). -/
def dieEmpty (s : State) (v : Nat) : Bool :=
  (holdersOf s v).isEmpty
    && s.cores.all (fun e => dieOf e.1 != v || (e.2.ring ++ e.2.deque).isEmpty)
    && ((engineNumbers s).filter fun n => engDie n == v).all (fun n => (engineCmds (getEngine s n)).isEmpty)
    && s.clusters.all (fun e => dieOfCluster e.1 != v || (e.2.guards.all (fun g => g.2.state == 0)
        && e.2.chans.all (fun c => c.2.cur.isNone && c.2.queue.isEmpty)))
    && s.flash.all (fun e => e.1 / 2 ^ 37 != v)

/-! ### DIEMAP (R437, R438, R444, R456) -/

/-- Die pair `q` may serve virtual die `v` next: healthy, and named by no entry in states 0 or 1 (R440). -/
def pairFree (s : State) (q : Nat) : Bool :=
  decide (q < 8) && !(s.failed.contains q) && (List.range 8).all fun v => (getDie s v).phys != q || (getDie s v).state == 2

/-- The clusters, cores and slices of a die brought up afresh (R444). -/
def freshCluster (c : Cluster) : Cluster := { Cluster.zero with cl2Mib := c.cl2Mib, helio := c.helio, ready := [] }
def freshCore (c : Core) : Core := { Core.zero with spillLog := c.spillLog, serial := c.serial, issued := c.issued }

/-- A lost or offline virtual die is mapped to a die pair as online, with everything on it at reset (R444). -/
def mapFresh (s : State) (v q : Nat) : State :=
  let m := memScrub s.memory (q * 2 ^ 38) (2 ^ 38)
  let m := memScrub m (windowBase + v * 2 ^ 29) (2 ^ 29)
  let m := memScrub m (windowBase + 2 ^ 32 + v * 2 ^ 25) (2 ^ 25)
  let s := { s with
    memory := m
    clusters := s.clusters.map fun e => (e.1, if dieOfCluster e.1 = v then freshCluster e.2 else e.2)
    cores := s.cores.map fun e => (e.1, if dieOf e.1 = v then freshCore e.2 else e.2)
    slices := s.slices.filter fun e => dieOfSlice e.1 != v
    dmgen := s.dmgen + 1 }
  setDie s v ⟨q, 0, Engine.zero, []⟩

/-- The engines and the channels of a die. -/
def dieEngines (s : State) (v : Nat) : List Nat := (engineNumbers s).filter fun n => engDie n == v
def dieChannels (s : State) (v : Nat) : List (Nat × Nat) := (channelNumbers s).filter fun x => dieOfCluster x.1 == v

/-- The running commands of a cluster engine park; a swap has no boundary within and runs to its end (R313, R440). -/
def parkEngine (s : State) (n : Nat) : State :=
  if 1024 ≤ n then s else (getEngine s n).running.foldl (parkCmd n) s

/-- The running copy of a channel parks at a segment boundary. -/
def parkChannel (s : State) (x : Nat × Nat) : State :=
  match (getChan s x.1 x.2).cur with
  | some c => if (getChan s x.1 x.2).cst = 1 then parkOnChannel s x.1 x.2 c else s
  | none => s

/-- A parked copy of a channel runs on, unless a gang switch holds its job; one whose page is still away will park again. -/
def unparkChannel (s : State) (x : Nat × Nat) : State :=
  match (getChan s x.1 x.2).cur with
  | some c => if (getChan s x.1 x.2).cst = 2 ∧ jobFrozen s c.tenant c.job = false then unparkOnChannel s x.1 x.2 c else s
  | none => s

/-- Phase 1: the die moves, its commands stop at a row or segment boundary and park (R440). -/
def beginRemap (s : State) (v q : Nat) : State :=
  let d := getDie s v
  let s := setDie { s with remap := some ⟨v, d.phys, q, 1, none⟩ } v { d with state := 1 }
  (dieChannels s v).foldl parkChannel ((dieEngines s v).foldl parkEngine s)

/-- The end of a remap, on either die pair: the die is online, its commands go on, and what waited for its memory is written (R440,
R442). -/
def endRemap (s : State) (v : Nat) : State :=
  let s := setDie { s with remap := none } v { getDie s v with state := 0 }
  let s := (dieChannels s v).foldl unparkChannel s
  (s.tenants.map (·.1)).foldl (fun s t => flushQueues (flushAll s t) t) s

/-- DIEMAP remap (R440, R444): starts the remap of an online die; maps a lost or offline die that nobody holds. -/
def execDiemapRemap (die phys : Nat) (tag : BitVec 32) (s : State) : Host.Outcome State Fault Refusal :=
  hostMsg (.diemapRemap die phys tag) (fun s =>
    let d := getDie s die
    if 8 ≤ die ∨ pairFree s phys = false ∨ s.remap.isSome = true ∨ d.state = 1 then .done (ackHost s tag 1)
    else if d.state = 0 then .done (ackHost (beginRemap s die phys) tag 0)
    else if d.holders = [] then .done (ackHost (mapFresh s die phys) tag 0)
    else .done (ackHost s tag 1)) s

/-- DIEMAP offline (R438, R444). -/
def execDiemapOffline (die : Nat) (tag : BitVec 32) (s : State) : Host.Outcome State Fault Refusal :=
  hostMsg (.diemapOffline die tag) (fun s =>
    let d := getDie s die
    let ok := decide (die < 8) && (match d.state with
      | 0 => dieEmpty s die
      | 2 => true
      | 3 => d.holders.isEmpty
      | _ => false)
    if ok then .done (ackHost (setDie s die { d with state := 2 }) tag 0) else .done (ackHost s tag 1)) s

/-! ### Remap phases (R440) -/

/-- Phase 1 is complete: every slot of the die is empty and every engine idle, its commands queued or parked. -/
def dieStopped (s : State) (v : Nat) : Bool :=
  !(s.lines.any fun x => match x.place with
    | .slot c _ => dieOf c == v
    | _ => false)
    && (dieEngines s v).all (fun n => (getEngine s n).running.isEmpty)
    && (dieChannels s v).all fun x => (getChan s x.1 x.2).cur.isNone || (getChan s x.1 x.2).cst != 1

/-- The on-chip records of the die's deques move to their rings (R440, R140). -/
def spillDeques (s : State) (v : Nat) : State :=
  { s with cores := s.cores.map fun e =>
      (e.1, if dieOf e.1 = v then { e.2 with ring := e.2.ring ++ e.2.deque, deque := [] } else e.2) }

/-- Phase 2 is complete: no line is left in the die's caches. -/
def cachesEmpty (s : State) (v : Nat) : Bool :=
  !(s.lines.any fun x => match x.place with
    | .slot c _ => dieOf c == v
    | .cl1 c => dieOf c == v
    | .cl2 cl => dieOfCluster cl == v
    | _ => false)

/-- A physical address moved from die pair `p` to `q`. -/
def movedAddr (p q a : Nat) : Nat := if a / 2 ^ 38 = p then q * 2 ^ 38 + a % 2 ^ 38 else a

/-- A leaf entry whose frame moved. -/
def movedLeaf (p q : Nat) (w : Word) : Word :=
  if leafV w && !(leafSwd w) && !(leafRemote w) then leafWith w false (movedAddr p q (leafAddr w * 65536) / 65536) else w

/-- A tenant's entries and frames after the move. -/
def movedTenant (p q : Nat) (x : Tenant) : Tenant :=
  { x with
    ptab := x.ptab.map fun e => (e.1, movedLeaf p q e.2)
    frames := x.frames.map fun f => movedAddr p q (f / 4) * 4 + f % 4
    moves := x.moves.map fun e => (e.1, { e.2 with frame := e.2.frame.map (movedAddr p q) }) }

/-- A packet held at the die's ports names the frame where it is now. -/
def movedPkt (p q : Nat) (x : Pkt) : Pkt :=
  match x.loc with
  | .cell k => if k < windowBase then { x with loc := .cell (movedAddr p q k) } else x
  | _ => x

/-- Phase 5: the die's DRAM stands at `q`, every entry names it there, PHYS and DMGEN change, and the invalidation begins (R440). -/
def switchDie (s : State) (r : Remap) : State :=
  let p := r.src
  let q := r.dst
  let slice := fun (x : Slice) => { x with entries := x.entries.map fun e => (e.1, { e.2 with key := movedAddr p q e.2.key }) }
  let s := { s with
    memory := memMove s.memory (p * 2 ^ 38) (q * 2 ^ 38) (2 ^ 38)
    tenants := s.tenants.map fun e => (e.1, movedTenant p q e.2)
    used := s.used.foldl (fun t e => tabIns (movedAddr p q e.1) e.2 t) []
    net := s.net.map (movedPkt p q)
    watch := s.watch.map (movedPkt p q)
    slices := s.slices.map fun e => (e.1, slice e.2)
    dmgen := s.dmgen + 1 }
  let i := beginInval (setDie s r.die { getDie s r.die with phys := q }) true true 0 0
  { i.2 with remap := some { r with phase := 5, inval := some i.1 } }

/-- The markers of phase 5 have returned. -/
def remapMarked (s : State) (r : Remap) : Bool :=
  match r.inval with
  | some id => !(s.invals.any fun i => i.id == id)
  | none => true

/-- REMAP_PHASE_COMPLETION: the present phase is complete and the next begins; with phase 6 the die is online again (R440). -/
def execRemapPhaseCompletion (s : State) : Host.Outcome State Fault Refusal :=
  match s.remap with
  | none => .next s
  | some r =>
    match r.phase with
    | 1 => if dieStopped s r.die then .next { spillDeques s r.die with remap := some { r with phase := 2 } } else .next s
    | 2 => if cachesEmpty s r.die then .next { s with remap := some { r with phase := 3 } } else .next s
    | 3 => .next { s with remap := some { r with phase := 4 } }
    | 4 => .next (switchDie s r)
    | _ =>
      if remapMarked s r then .next (endRemap s r.die) else .next s

/-- REMAP_ABANDONED: q fails before phase 5; the die is online on p again, and no map names q any more (R442, R440). -/
def execRemapAbandoned (s : State) : Host.Outcome State Fault Refusal :=
  match s.remap with
  | none => .next s
  | some r => if r.phase < 5 then .next (endRemap { s with failed := s.failed ++ [r.dst] } r.die) else .next s

/-- The packet as the present map and page tables route it; none while a packet that came out of a save area names a swapped page
(R439, R429). -/
def reroutedPkt (s : State) (p : Pkt) : Option Pkt :=
  match p.loc with
  | .virt va =>
    if isAccess p then (routedLoc s p.tenant va).map fun l => { p with loc := l, dmgen := s.dmgen }
    else some { p with dmgen := s.dmgen }
  | _ => some { p with dmgen := s.dmgen }

/-- PACKET_REROUTE: a router with a newer DMGEN routes the packet again by the current map (R439); the switch of the map has moved its
location with the bytes, so only the generation changes. A packet that came out of a save area and names a swapped page waits until the
page is brought in. -/
def execPacketReroute (id : Nat) (s : State) : Host.Outcome State Fault Refusal :=
  match findPkt s id with
  | none => .next s
  | some p =>
    match reroutedPkt s p with
    | some q => if q = p then .next s else .next { s with net := s.net.map fun x => if x.id = id then q else x }
    | none => .next (startSwapIn s p.tenant p.target)

/-! ### Lost dies (R442, R443) -/

/-- The jobs to be killed: of lines on the die, and of task records in its deques. -/
def lostJobs (s : State) (v : Nat) : List (Nat × Nat) :=
  (((s.lines.filter (lineOn s v)).map fun x => (x.tenant, jobOf s x))
    ++ (s.cores.filter fun e => dieOf e.1 == v).flatMap fun e => (e.2.ring ++ e.2.deque).map fun r => (r.tenant, r.job)).eraseDups

/-- A command of an engine on the lost die fails with FCODE TileLost and makes no completion post. -/
def loseCmd (s : State) (eng : Nat) (c : Cmd) : State :=
  let out := outboundOf s eng c
  let s := failQuiet s eng { c with post := none } 29
  match out with
  | some (va, level, w, m) => undoSwapOut s c.tenant level va w m
  | none => s

/-- A saved command of such an engine fails likewise. -/
def loseSaved (s : State) (v : Nat) : State :=
  let gone := (s.switches.flatMap (·.cmds)).filter fun c => engDie c.eng == v
  let s := gone.foldl (fun s c =>
    modJob (failQuiet s c.eng { c.cmd with post := none } 29) c.eng c.cmd.entry fun e => { e with withdrawn := false }) s
  { s with switches := s.switches.map fun w => { w with cmds := w.cmds.filter fun c => engDie c.eng != v } }

/-- A job killed under R443, with its record. -/
def loseJob (v : Nat) (s : State) (j : Nat × Nat) : State :=
  report (killJob s j.1 j.2) j.1 ⟨0, 0, 29, 0, 3, false, 0, BitVec.ofNat 48 v, j.2⟩

/-- The wait is on a location, counter, full/empty word or ticket of die `v`. -/
def waitsOn (s : State) (v : Nat) (x : LiveLine) (w : Word) : Bool :=
  let t := waitTarget w
  match waitKind w with
  | 2 | 3 | 7 =>
    if windowBase ≤ t then
      match regionOf t with
      | .vault cl _ => dieOfCluster cl == v
      | .localStore c _ => dieOf c == v
      | .mailbox c _ => dieOf c == v
      | .tdt cl _ => dieOfCluster cl == v
      | _ => false
    else match cellOf s x.tenant t with
      | some k => homeDie s k == some v
      | none => false
  | 4 => dieOf (nbits t 38 11) == v
  | 6 => dieOfSlice (nbits t 0 10) == v
  | _ => false

/-- Waits that other members registered on the die are woken (R447, R443). -/
def wakeWatchers (s : State) (v : Nat) : State :=
  let hit := fun (p : Pkt) => dieOfLoc s p.loc == some v
  let outs := (s.watch.filter hit).flatMap fun p =>
    [3, 7].map fun kind => { p with body := .wake (waitTag kind p.target), ans := false, src := p.dst, dst := p.src }
  outs.foldl (fun s p => sendPkt s { p with id := s.nextId }) { s with watch := s.watch.filter fun p => !(hit p) }

/-- The queues of a tenant that the die took; an entry on a page that is on its way out is resident again first. -/
def loseQueues (v : Nat) (s : State) (t : Nat) : State :=
  (List.range (getTenant s t).qtabLen).foldl (fun s q =>
    let s := if (cellOf s t (entryVa s t q)).isSome then s else startSwapIn s t (entryVa s t q)
    loseQueue t s (v, q)) s

/-- A page between states with its frame on the die: outbound, its command fails and its leaf names the lost frame; inbound, it
waits for another frame. -/
def loseMove (v t : Nat) (s : State) (e : Nat × PageMove) : State :=
  let level := e.1 / 2 ^ 56
  let va := e.1 % 2 ^ 56 * 2 ^ levelShift level
  match e.2.frame, walkTable (getTenant s t) va with
  | some f, some (_, w) =>
    if homeDie s f ≠ some v then s
    else if e.2.outbound then
      let s := match swapOutJob s t level va with
        | some (eng, c) => failCmd s eng c (trapTileLost v va)
        | none => s
      undoSwapOut s t level va w e.2
    else modTenant s t fun x => { x with moves := tabIns e.1 { e.2 with frame := none } x.moves }
  | _, _ => s

/-- The remap of this die ends with its loss (R442). -/
def dropRemap (s : State) (v : Nat) : State :=
  match s.remap with
  | some r => if r.die = v then { s with remap := none } else s
  | none => s

/-- Frames of the die that wait in tenants' pools are gone. -/
def loseFrames (s : State) (v : Nat) : State :=
  let on := fun f => homeDie s (f / 4) == some v
  { s with tenants := s.tenants.map fun e => (e.1, { e.2 with frames := e.2.frames.filter fun f => !(on f) }) }

/-- Every outcome of R443, `v` being lost now. -/
def loseDie (s : State) (v : Nat) : State :=
  let jobs := lostJobs s v
  let held := holdersOf s v
  let d := getDie s v
  let s := dropRemap (setDie { s with failed := s.failed ++ [d.phys] } v { d with state := 3, holders := held }) v
  let s := endCmds s (fun n _ => engDie n == v) loseCmd
  let s := loseSaved s v
  let s := s.tenants.foldl (fun s e => e.2.moves.foldl (loseMove v e.1) s) s
  let s := loseFrames s v
  let s := jobs.foldl (loseJob v) s
  let s := wakeWatchers (sendWakes s (waitsOn s v)) v
  let s := ((s.tenants.filter fun e => e.2.live).map (·.1)).foldl (loseQueues v) s
  let s := { s with
    flash := s.flash.filter fun e => e.1 / 2 ^ 37 != v
    cores := s.cores.map fun e => (e.1, if dieOf e.1 = v then { e.2 with queues := [], mail := [] } else e.2) }
  let t := freeValue s
  toHost t.2 (.deviceFault (t.1.toNat % 256) ⟨0, 0, 29, 0, 3, false, 0, BitVec.ofNat 48 v, 0⟩)

/-- DIE_LOST (R443). -/
def execDieLost (die : Nat) (s : State) : Host.Outcome State Fault Refusal :=
  if 8 ≤ die ∨ (getDie s die).state = 3 then .next s else .next (loseDie s die)

end Sys2Proof.Machine
end

