-- ==== Sys2Proof/Machine/Checkpoint.lean ====
section
/-! DEFINITION. Machine/Checkpoint.lean: checkpoints to flash (R488 to R490): of the whole module, and of one tenant whose jobs are
all saved. -/

namespace Sys2Proof.Machine

/-! ### The module (R488) -/

/-- Step 1: every tenant is halted. -/
def haltAll (s : State) : State :=
  { s with tenants := s.tenants.map fun e => (e.1, if e.2.live then { e.2 with halted := true } else e.2) }

/-- Step 2: every engine is idle, on its queue, its units and its channels. -/
def enginesIdle (s : State) : Bool :=
  (engineNumbers s).all (fun n => (engineCmds (getEngine s n)).isEmpty)
    && s.clusters.all fun e => e.2.chans.all fun c => c.2.cur.isNone && c.2.queue.isEmpty

/-- A line can be written back now, or stands in its image or in a save area. -/
def canRest (s : State) (x : LiveLine) : Bool :=
  match x.place with
  | .dram => true
  | .saved _ => true
  | .away _ _ => true
  | .cl1 _ => x.stores == 0 && hasImage s x
  | .cl2 _ => hasImage s x
  | _ => false

/-- Nothing is under way on the module beside what its lines, engines and save areas hold. -/
def quiet (s : State) : Bool :=
  s.net.isEmpty && s.msgs.isEmpty && s.pending.isEmpty && s.invals.isEmpty && s.remap.isNone
    && s.switches.all isSaved && s.tenants.all (fun e => e.2.moves.isEmpty) && s.lines.all (canRest s)

/-- Step 3: every line of a cache is written back (R434). -/
def restLine (s : State) (x : LiveLine) : State :=
  match x.place with
  | .cl1 c => (writeBack s { x with lastCl := clusterOf c }).getD s
  | .cl2 cl => (writeBack s { x with lastCl := cl }).getD s
  | _ => s

/-- The bytes of the module with every page of RC ≠ 0 as its recoded image returns it (R303, R348). -/
def recodedMemory (s : State) : Memory :=
  (s.tenants.flatMap fun e => e.2.ptab).foldl (fun m e =>
    let level := e.1 / 2 ^ 56
    if leafV e.2 && !(leafSwd e.2) && !(leafRemote e.2) && leafRc e.2 != 0 then
      writeUnits (leafAddr e.2 * 65536) (pageImages s level e.2 (leafAddr e.2 * 65536)) m
    else m) s.memory

/-- Step 4: the image of the module. -/
def moduleImage (s : State) : ModuleImage where
  memory := recodedMemory s
  lines := s.lines
  cores := s.cores
  clusters := s.clusters
  slices := s.slices
  dies := s.dies
  tenants := s.tenants
  owner := s.owner
  used := s.used
  launched := s.launched
  switches := s.switches
  gangs := s.gangs
  flash := s.flash
  accepted := s.accepted

/-- A swapped image of a line comes in before the line can be written back. -/
def bringImages (s : State) : State :=
  (s.lines.filter fun x => !(hasImage s x)).foldl (fun s x => startSwapIn s x.tenant x.addr) s

/-- A module save: the state once it is written, or the state that still works towards it. -/
def saveModule (s : State) : Except State State :=
  let s := haltAll s
  if enginesIdle s = true ∧ quiet s = true then
    let s := s.lines.foldl restLine s
    .ok { s with moduleCkpt := some (moduleImage s) }
  else .error (bringImages s)

/-- CHECKPOINT module save (R488). -/
def execCheckpointModuleSave (tag : BitVec 32) (s : State) : Host.Outcome State Fault Refusal :=
  hostMsg (.checkpointModuleSave tag) (fun s => match saveModule s with
    | .ok s' => .done (ackHost s' tag 0)
    | .error s' => .wait s') s

/-- The die map of an image is the module's. -/
def sameMap (s : State) (m : ModuleImage) : Bool :=
  (List.range 8).all fun v =>
    let d := tabGet (Die.zero v) v m.dies
    (getDie s v).phys == d.phys && (getDie s v).state == d.state

/-- CHECKPOINT module restore: refused without an image of the same die map and accepted set (R488). -/
def execCheckpointModuleRestore (tag : BitVec 32) (s : State) : Host.Outcome State Fault Refusal :=
  hostMsg (.checkpointModuleRestore tag) (fun s => match s.moduleCkpt with
    | none => .done (ackHost s tag 1)
    | some m =>
      if sameMap s m = false ∨ m.accepted ≠ s.accepted then .done (ackHost s tag 1)
      else .done (ackHost { s with
        memory := m.memory
        lines := m.lines
        cores := m.cores
        clusters := m.clusters
        slices := m.slices
        dies := m.dies
        tenants := m.tenants
        owner := m.owner
        used := m.used
        launched := m.launched
        switches := m.switches
        gangs := m.gangs
        flash := m.flash
        net := []
        msgs := []
        watch := []
        pending := []
        invals := []
        remap := none } tag 0)) s

/-! ### Parts of memory -/

/-- The `n` bytes from key `k` up as a memory from 0 up. -/
def memCut (m : Memory) (k n : Nat) : Memory :=
  let inside := fun x => decide (k ≤ x) && decide (x < k + n)
  { bytes := (m.bytes.filter fun e => inside e.1).map fun e => (e.1 - k, e.2)
    full := (m.full.filter inside).map (· - k)
    poison := (m.poison.filter inside).map (· - k) }

/-- A memory from 0 up put in place of the `n` bytes from key `k` up. -/
def memPaste (m : Memory) (k n : Nat) (p : Memory) : Memory :=
  let m := memScrub m k n
  { bytes := p.bytes.foldl (fun c e => bytePut (e.1 + k) e.2 c) m.bytes
    full := p.full.foldl (fun l x => setIns (x + k) l) m.full
    poison := p.poison.foldl (fun l x => setIns (x + k) l) m.poison }

/-! ### A tenant: save (R489) -/

/-- The job of a tenant is saved. -/
def jobSaved (s : State) (t j : Nat) : Bool :=
  match findSwitch s t j with
  | some w => isSaved w
  | none => false

/-- Every job of the tenant is saved. -/
def tenantSaved (s : State) (t : Nat) : Bool :=
  s.lines.all (fun x => x.tenant != t || jobSaved s t (jobOf s x))
    && s.cores.all (fun e => (e.2.ring ++ e.2.deque).all fun r => r.tenant != t || jobSaved s t r.job)
    && (allCmds s).all (fun c => c.tenant != t || jobSaved s t c.job)
    && s.switches.all (fun w => w.tenant != t || isSaved w)

/-- A page of a tenant as an image: of flash, or made of its frame (R348). -/
def pageImage (s : State) (t level : Nat) (w : Word) : FlashImage :=
  if leafSwd w then
    match tabFind (leafAddr w) s.flash with
    | some i => i
    | none => ⟨t, 0, []⟩
  else
    let l := pageImages s level w (leafAddr w * 65536)
    ⟨t, imageBlocks l, l⟩

/-- The pages of a tenant; a remote page has no bytes here. -/
def tenantPages (s : State) (t : Nat) : List (Nat × Nat × Word × FlashImage) :=
  (getTenant s t).ptab.filterMap fun e =>
    let level := e.1 / 2 ^ 56
    if leafV e.2 && !(leafRemote e.2) then
      some (level, e.1 % 2 ^ 56 * 2 ^ levelShift level, e.2, pageImage s t level e.2)
    else none

/-- The checkpoint of a tenant (R489). -/
def tenantImage (s : State) (t : Nat) : TenantImage where
  tenant := t
  regs := getTenant s t
  pages := tenantPages s t
  granules := (s.owner.filter fun e => e.2 == t).map fun e =>
    (e.1, memCut s.memory (granulePlace e.1).1 (granulePlace e.1).2)
  tdt := s.clusters.flatMap fun e =>
    (e.2.tdt.filter fun d => d.2.state != 0 && d.2.tenant.toNat == t).map fun d => (e.1, d.1, d.2)
  counters := s.cores.flatMap fun e => (e.2.mail.filter fun c => c.2.valid && c.2.tenant == t).map fun c => (e.1, c.1, c.2)
  guards := s.clusters.flatMap fun e => (e.2.guards.filter fun g => g.2.state != 0 && g.2.tenant == t).map fun g => (e.1, g.1, g.2)
  switches := s.switches.filter fun w => w.tenant == t
  jobs := (s.switches.filter fun w => w.tenant == t).flatMap fun w => w.cmds.filterMap fun c =>
    (tabFind c.cmd.entry (getEngine s c.eng).jobs).map fun j => (c.eng, c.cmd.entry, j)
  recs := s.cores.filterMap fun e =>
    let l := e.2.ring.filter fun r => r.tenant == t
    if l.isEmpty then none else some (e.1, l)
  ready := s.clusters.filterMap fun e =>
    let l := (e.2.ready.filter fun r => r.1 == t).map (·.2)
    if l.isEmpty then none else some (e.1, l)
  lines := s.lines.filter fun x => x.tenant == t
  queues := s.cores.flatMap fun e => (e.2.queues.filter fun q => q.tenant == t).map fun q => (e.1, q)
  accepted := s.accepted

/-- A checkpoint's images take their time on flash, the device's choice; while they do the message stays first in its queue (R490). -/
def flashTime (s : State) (k : State → HostRes) : HostRes :=
  let r := choose s 2
  if r.1 = 0 then k r.2 else .wait r.2

/-- CHECKPOINT tenant save (R489): refused unless every job of the tenant is saved. -/
def execCheckpointTenantSave (tn : Nat) (tag : BitVec 32) (s : State) : Host.Outcome State Fault Refusal :=
  hostMsg (.checkpointTenantSave tn tag) (fun s =>
    if (getTenant s tn).live = false ∨ tenantSaved s tn = false then .done (ackHost s tag 1)
    else if (getTenant s tn).moves ≠ [] then .wait s
    else flashTime s fun s =>
      let keep := s.tenantCkpts.filter fun i => i.tenant != tn
      .done (ackHost { s with tenantCkpts := keep ++ [tenantImage s tn] } tag 0)) s

/-! ### A tenant: restore (R489) -/

/-- The tenant has been created and has no state. -/
def tenantFresh (s : State) (t : Nat) : Bool :=
  { getTenant s t with capGen := 0 } == { Tenant.zero with live := true } && !((List.range 8).any fun v => holdsOn s v t)
    && !(s.lines.any fun x => x.tenant == t)

/-- A command saved by the tenant may have its job-table entry again. -/
def jobFree (s : State) (e : Nat × Nat × JobEntry) : Bool :=
  match tabFind e.2.1 (getEngine s e.1).jobs with
  | none => true
  | some j => jobFinal j

/-- A core's queue buffer has room for all of these queues (R151). -/
def buffersFit (c : Core) (l : List ResQueue) : Bool :=
  decide (c.queues.length + l.length ≤ 16) && decide (bufferLoad c + (l.map fun q => q.elems.length).sum ≤ 2048)

/-- What the image names is free, on a die that is in use, and the rings have room (R489, R140). -/
def placesFree (s : State) (i : TenantImage) : Bool :=
  let up := fun v => (getDie s v).state == 0
  i.granules.all (fun e => (tabFind e.1 s.owner).isNone && up (granuleDie e.1))
    && i.tdt.all (fun e => (getTdt s e.1 e.2.1).state == 0 && up (dieOfCluster e.1))
    && i.counters.all (fun e => !((getCounter s e.1 e.2.1).valid) && up (dieOf e.1))
    && i.guards.all (fun e => (getGuard s e.1 e.2.1).state == 0 && up (dieOfCluster e.1))
    && i.jobs.all (fun e => jobFree s e && up (engDie e.1))
    && i.ready.all (fun e => up (dieOfCluster e.1))
    && i.recs.all (fun e => up (dieOf e.1) && decide ((getCore s e.1).ring.length + e.2.length + (getCore s e.1).deque.length ≤ 2 ^ (getCore s e.1).spillLog))
    && i.queues.all (fun e => up (dieOf e.1) && buffersFit (getCore s e.1) ((i.queues.filter fun q => q.1 == e.1).map (·.2)))
    && decide (s.switches.length + i.switches.length ≤ 9)

/-- A page comes back: a swapped one at a new flash location of an online die (R438), a resident one in a frame, both the device's
choice. -/
def restorePage (t : Nat) (s : State) (e : Nat × Nat × Word × FlashImage) : Option State :=
  let level := e.1
  let va := e.2.1
  let w := e.2.2.1
  if leafSwd w then
    let dies := (List.range 8).filter fun v => (getDie s v).state == 0
    let r := choose s dies.length
    (dies[r.1]?).map fun v =>
      let d := flashPlace r.2 v e.2.2.2.blocks
      setLeaf { d.2 with flash := tabIns d.1 { e.2.2.2 with tenant := t } d.2.flash } t level va (leafWith w true d.1)
  else
    match takeFrame s t level with
    | none => none
    | some (b, s') =>
      if frameHeld s b then none
      else
      let m := writeUnits b e.2.2.2.units (memScrub s'.memory b (2 ^ levelShift level))
      some (setLeaf { s' with memory := m } t level va (leafWith w false (b / 65536)))

/-- Every page, or none when frames run out. -/
def restorePages (t : Nat) : List (Nat × Nat × Word × FlashImage) → State → Option State
  | [], s => some s
  | e :: l, s => (restorePage t s e).bind (restorePages t l)

/-- Everything else of the image. -/
def restoreRest (s : State) (i : TenantImage) : State :=
  let s := i.granules.foldl (fun s e =>
    { s with owner := tabIns e.1 i.tenant s.owner, memory := memPaste s.memory (granulePlace e.1).1 (granulePlace e.1).2 e.2 }) s
  let s := i.tdt.foldl (fun s e => setTdt s e.1 e.2.1 e.2.2) s
  let s := i.counters.foldl (fun s e => setCounter s e.1 e.2.1 e.2.2) s
  let s := i.guards.foldl (fun s e => setGuard s e.1 e.2.1 e.2.2) s
  let s := i.jobs.foldl (fun s e =>
    setEngine s e.1 { getEngine s e.1 with jobs := tabIns e.2.1 e.2.2 (getEngine s e.1).jobs }) s
  let s := i.recs.foldl (fun s e => setCore s e.1 { getCore s e.1 with ring := (getCore s e.1).ring ++ e.2 }) s
  let s := i.ready.foldl (fun s e =>
    setCluster s e.1 { getCluster s e.1 with ready := (getCluster s e.1).ready ++ e.2.map fun a => (i.tenant, a) }) s
  let s := i.queues.foldl (fun s e => setCore s e.1 { getCore s e.1 with queues := (getCore s e.1).queues ++ [e.2] }) s
  { s with lines := s.lines ++ i.lines, switches := s.switches ++ i.switches }

/-- The restored tenant, its registers as saved; nothing when frames run out. -/
def restoreTenant (s : State) (i : TenantImage) : Option State :=
  let s := setTenant s i.tenant { i.regs with ptab := i.regs.ptab.filter fun e => leafRemote e.2, frames := [], moves := [] }
  (restorePages i.tenant i.pages s).map fun s => restoreRest s i

/-- CHECKPOINT tenant restore (R489): refused with nothing changed unless everything it needs is free. -/
def execCheckpointTenantRestore (tn : Nat) (tag : BitVec 32) (s : State) : Host.Outcome State Fault Refusal :=
  hostMsg (.checkpointTenantRestore tn tag) (fun s => match s.tenantCkpts.find? fun i => i.tenant == tn with
    | none => .done (ackHost s tag 1)
    | some i =>
      if (getTenant s tn).live = false ∨ tenantFresh s tn = false ∨ i.accepted ≠ s.accepted ∨ placesFree s i = false then
        .done (ackHost s tag 1)
      else flashTime s fun s => match restoreTenant s i with
        | none => .done (ackHost s tag 1)
        | some s' => .done (ackHost s' tag 0)) s

/-! ### Flash errors -/

/-- The checkpoint of tenant `tn` ends: its message is refused, and the host is told by a DEVICEFAULT, whose record the rule does not
give (R490, log entry 106). -/
def endCheckpoint (s : State) (tn : Nat) : State :=
  match s.host.waiting.find? fun i => ckptOf i == some tn with
  | none => s
  | some i =>
    let tag := match i with
      | .checkpointTenantSave _ g | .checkpointTenantRestore _ g => g
      | _ => 0
    let code := freeValue (ackHost (unholdMsg s i) tag 1)
    let data := freeValue code.2
    toHost data.2 (.deviceFault tn ⟨0, 0, code.1.setWidth 8, 0, 3, false, 0, data.1.setWidth 48, 0⟩)

/-- FLASH_READ_ERROR: it ends a checkpoint of the tenant (R490), or the swap-in of a page (R350). -/
def execFlashReadError (tn : Nat) (page : Word) (s : State) : Host.Outcome State Fault Refusal :=
  .next (if checkpointing s tn then endCheckpoint s tn else failSwapIn s tn page.toNat)

end Sys2Proof.Machine
end

