-- ==== Sys2Proof/Machine/Boot.lean ====
section
/-! DEFINITION. Machine/Boot.lean: boot (R485), and what firmware does when power or cooling leave their limits (R491). -/

namespace Sys2Proof.Machine

/-- The first step of boot that fails (R485): the key and the version against the fuses, the body against the manifest; that the image
can be read and that its signature verifies are inputs (log entry 28). -/
def bootFailure (p : HostPort) (b : BootInput) : Option Nat :=
  if b.imageOk = false then some 1
  else if b.keyDigest ≠ p.vendorKey then some 2
  else if b.sigOk = false then some 3
  else if b.version.toNat < p.minVersion.toNat then some 4
  else if b.bodySum ≠ b.bodyDigest then some 5
  else none

/-- The die map that boot firmware sets. -/
def bootDies (b : BootInput) : Tab Die :=
  b.dies.foldl (fun t e => tabPut (Die.zero e.1) e.1 ⟨e.2.1, e.2.2, Engine.zero, []⟩ t) []

/-- What boot firmware may choose: dies online, offline or lost with distinct PHYS among those in use (R437), spill rings of 2⁸ to
2²⁰ records (R140), CL2s of 1 to 8 MiB (R125), a heliostat among the cores of each cluster (R343). -/
def bootChoicesOk (b : BootInput) : Bool :=
  let d := bootDies b
  let used := ((List.range 8).map fun v => tabGet (Die.zero v) v d).filter fun x => x.state == 0
  b.dies.all (fun e => decide (e.1 < 8) && decide (e.2.1 < 8) && (e.2.2 == 0 || e.2.2 == 2 || e.2.2 == 3))
    && decide ((used.map (·.phys)).eraseDups.length = used.length)
    && b.spill.all (fun e => decide (e.1 < 2048) && decide (8 ≤ e.2) && decide (e.2 ≤ 20))
    && b.cl2.all (fun e => decide (e.1 < 256) && decide (1 ≤ e.2) && decide (e.2 ≤ 8))
    && b.helio.all (fun e => decide (e.1 < 256) && decide (e.2 < 8))

/-- 256 free bits. -/
def freeDigest (s : State) : BitVec 256 × State :=
  ((List.range 4).foldl (fun (r : BitVec 256 × State) _ => (r.1 <<< 64 ||| (freeValue r.2).1.setWidth 256, (freeValue r.2).2)) (0, s))

/-- Step 6: firmware runs and waits for BIND (R485); the boot ROM has made the identity key pair of the seed (R487), and the device a
nonce whose value no rule states (R486, log entry 5). -/
def bootDone (s : State) (b : BootInput) : State :=
  let n := freeDigest s
  let s := { n.2 with
    dies := bootDies b
    failed := (bootDies b).filterMap fun e => if e.2.state = 3 then some e.2.phys else none
    host := { s.host with
      phase := 1, hostKey := b.hostKeyDigest, bodyDigest := b.bodyDigest, version := b.version, microcode := b.microcode,
      faultCkpt := b.faultCkpt, nonce := n.1, identity := Config.identityKey s.host.seed }
    etherType := b.etherType }
  let s := b.spill.foldl (fun s e => setCore s e.1 { getCore s e.1 with spillLog := e.2 }) s
  let s := b.cl2.foldl (fun s e => setCluster s e.1 { getCluster s e.1 with cl2Mib := e.2 }) s
  b.helio.foldl (fun s e => setCluster s e.1 { getCluster s e.1 with helio := e.2 }) s

/-- BOOT (R485): at reset only; a failure stops boot and tells the host port's broadcast address. -/
def execBoot (b : BootInput) (s : State) : Host.Outcome State Fault Refusal :=
  if s.host.phase ≠ 0 then .next s
  else match bootFailure s.host b with
    | some n => .next (toHost { s with host := { s.host with phase := 2 } } (.bootFail n))
    | none => if bootChoicesOk b then .next (bootDone s b) else .next s

/-- CLOCK_REDUCTION: only timing changes (R491). -/
def execClockReduction (s : State) : Host.Outcome State Fault Refusal :=
  .next { s with host := { s.host with slowed := true } }

/-- The shutdown with its DEVICEFAULT, whose tenant and record the spec does not state (R491, log entry 5). -/
def shutDown (s : State) : State :=
  let t := freeValue s
  let a := freeValue t.2
  let c := freeValue a.2
  let d := freeValue c.2
  toHost { d.2 with host := { d.2.host with phase := 3 } }
    (.deviceFault (t.1.toNat % 256) ⟨0, 0, c.1.setWidth 8, 0, 3, false, a.1, d.1.setWidth 48, 0⟩)

/-- SUPPLY_FAULT_SHUTDOWN: a module checkpoint first, if the host has enabled it (R491). -/
def execSupplyFaultShutdown (s : State) : Host.Outcome State Fault Refusal :=
  if s.host.faultCkpt then
    match saveModule s with
    | .ok s' => .next (shutDown s')
    | .error s' => .next s'
  else .next (shutDown s)

end Sys2Proof.Machine
end

