-- ==== Sys2Proof/Machine/Branch.lean ====
section
/-! DEFINITION. Machine/Branch.lean: control transfers (R112), nop (R426), hint words (R63 to R67), and a word that is no
instruction (R68). -/

namespace Sys2Proof.Machine

/-- PC + 4 × offset modulo 2^48 (R57, R112). -/
def branchTarget (p : BitVec 48) (off : Word) : BitVec 48 := p + (off * 4).setWidth 48

/-- The tag of a code address. -/
def codeTag : Byte := 0x0C

/-- The test of a register-indirect target (R29, R112). -/
def codeAligned (t : Word) : Bool := nbits t.toNat 0 2 == 0 && nbits t.toNat 48 16 == 0

/-- g7 := P + 4, a code address. -/
def linkLine (l : Line) (p : BitVec 48) : Line := setG l 7 ((p + 4).setWidth 64) codeTag

def execBr (g : BitVec 4) (o : BitVec 22) (s : State) : Host.Outcome State Fault Refusal :=
  issueWord (hdr g []) (fun c s => .jump s c.t (branchTarget c.p (extField c o.toNat 22 true))) s

def execCall (g : BitVec 4) (o : BitVec 22) (s : State) : Host.Outcome State Fault Refusal :=
  issueWord (hdr g [7]) (fun c s =>
    .jump s { c.t with line := linkLine c.t.line c.p } (branchTarget c.p (extField c o.toNat 22 true))) s

/-- A jump to the code address in gA, with the line changed by `f` once the address is checked. -/
def jumpReg (a : Reg) (f : Line → BitVec 48 → Line) (c : Ctx) (s : State) : Res :=
  match checkTags c.t.line [(a, [codeTag, 0])] with
  | some e => .trap e
  | none =>
    let t := getG c.t.line a
    if codeAligned t then .jump s { c.t with line := f c.t.line c.p } (t.setWidth 48)
    else .trap (trapCodeAlign t.toNat)

def execJr (g : BitVec 4) (a : Reg) (s : State) : Host.Outcome State Fault Refusal :=
  issueWord (hdr g [a]) (jumpReg a fun l _ => l) s

def execRet (g : BitVec 4) (a : Reg) (s : State) : Host.Outcome State Fault Refusal :=
  issueWord (hdr g [a]) (jumpReg a fun l _ => l) s

/-- callr reads gA before it writes g7. -/
def execCallr (g : BitVec 4) (a : Reg) (s : State) : Host.Outcome State Fault Refusal :=
  issueWord (hdr g [a, 7]) (jumpReg a linkLine) s

def execLoop (g : BitVec 4) (d : Reg) (o : BitVec 16) (s : State) : Host.Outcome State Fault Refusal :=
  issueWord (hdr g [d]) (fun c s =>
    match checkTags c.t.line [(d, [0])] with
    | some e => .trap e
    | none =>
      let v := getG c.t.line d - 1
      let t := { c.t with line := setG c.t.line d v 0 }
      if v = 0 then .ok s t else .jump s t (branchTarget c.p (extField c o.toNat 16 true))) s

def execNop (g : BitVec 4) (s : State) : Host.Outcome State Fault Refusal :=
  issueWord (hdr g []) (fun c s => .ok s c.t) s

/-! ### Hints -/

/-- The word of an instruction. -/
def wordOf (i : Instr) : Nat := (encodeNat i).getD 0

/-- The word of an hmod with these bits [9:0]. -/
def hmodOf (m : BitVec 10) : Nat :=
  wordOf (.hmod (m.extractLsb' 6 4) (m.extractLsb' 5 1) (m.extractLsb' 2 3) (m.extractLsb' 1 1) (m.extractLsb' 0 1))

/-- Issue a hint word: no guard, no wait on the window, no count in LACNT, HCNT and HPAY as `f` leaves them (R63). One that is the
target of an hmod is the illegal-instruction trap of that hmod (R66). -/
def issueHint (f : Line → Except Trap Line) (s : State) : Host.Outcome State Fault Refusal :=
  match s.thr with
  | none => .fault .noIssuingLine
  | some t =>
    match t.md, f t.line with
    | some m, _ => finishIssue s t (coreOfPlace t.place) (.trap (trapIllegal (hmodOf m)))
    | none, .error e => finishIssue s t (coreOfPlace t.place) (.trap e)
    | none, .ok l => .next (afterIssue s { t with await := stillAwaits t, line := l } (wordPc t + 4))

/-- hext collects 24 bits; a third is illegal (R64). -/
def execHext (p : BitVec 24) (s : State) : Host.Outcome State Fault Refusal :=
  issueHint (fun l =>
    if l.hcnt = 2 then .error (trapIllegal (wordOf (.hext p)))
    else if l.hcnt = 0 then .ok { l with hcnt := 1, hpay := (l.hpay.extractLsb' 24 24) ++ p }
    else .ok { l with hcnt := l.hcnt + 1, hpay := p ++ (l.hpay.extractLsb' 0 24) }) s

/-- hsched has no visible effect (R65). -/
def execHsched (_c : BitVec 24) (s : State) : Host.Outcome State Fault Refusal := issueHint .ok s

/-- The word that follows an hmod is a hint word (R66). Where it cannot be fetched yet, it is tested when it issues. -/
def hintFollows (s : State) (t : LiveLine) : Bool :=
  match fetchWord s t (coreOfPlace t.place) (t.line.pc + 4) with
  | .ok w => bits w 26 6 == 0x3F
  | .error _ => false

/-- hmod: its bits wait for the target with PC at the hmod (R66, R67). -/
def execHmod (l : BitVec 4) (v : BitVec 1) (r : Reg) (k n : BitVec 1) (s : State) : Host.Outcome State Fault Refusal :=
  match s.thr with
  | none => .fault .noIssuingLine
  | some t =>
    if t.md.isSome || hintFollows s t then
      finishIssue s t (coreOfPlace t.place) (.trap (trapIllegal (hmodOf (t.md.getD (l ++ v ++ r ++ k ++ n)))))
    else .next { countIssue s t.place with thr := some { agedLine s t with md := some (l ++ v ++ r ++ k ++ n), word := none } }

/-! ### Words that are no instruction -/

/-- The trap of a word that is no instruction, or is one of an unaccepted feature (R68, R482). -/
def rejectTrap (s : State) (w : Nat) : Option Trap :=
  if featureOk s w then
    match decodeNat w with
    | .ok _ => none
    | .error .emulation => some (trapEmulation w)
    | .error .illegal => some (trapIllegal w)
  else some (trapEmulation w)

/-- A word that is no instruction takes its trap before every other condition (R47); one that is an instruction is never
given here, and nothing happens. -/
def execNotAnInstructionWord (w : BitVec 32) (s : State) : Host.Outcome State Fault Refusal :=
  match s.thr with
  | none => .fault .noIssuingLine
  | some t =>
    match rejectTrap s w.toNat with
    | some e => finishIssue s t (coreOfPlace t.place) (.trap e)
    | none => .next s

end Sys2Proof.Machine
end

