-- ==== Sys2Proof/Machine/Flags.lean ====
section
/-! DEFINITION. Machine/Flags.lean: what float exceptions do to the line: the sticky flags and the float trap of R44, and the
forfeit of R45. -/

namespace Sys2Proof.Machine

/-- An exception whose enable is set occurred (R44). -/
def floatTraps (l : Line) (e : BitVec 5) : Bool := e &&& l.fen != 0

/-- The sticky flags with new exceptions (R44). -/
def raiseFlags (l : Line) (e : BitVec 5) : Line := { l with fflg := l.fflg ||| e }

/-- A float instruction with a subnormal source or result forfeits four turns, and more while another thread holds the
normaliser (R45). -/
def forfeitFor (s : State) (c : Nat) (sub : Bool) (t : LiveLine) : LiveLine :=
  if sub then { t with forfeit := 4, norm := true, normWait := normHeld s c t } else t

/-- signal(F), then the write (R44, R108): a trap leaves the destination and the flags unchanged. -/
def signal (c : Ctx) (s : State) (e : BitVec 5) (sub : Bool) (l : Line) : Res :=
  if floatTraps c.t.line e then .trap (trapFloat e)
  else .ok s (forfeitFor s c.core sub { c.t with line := raiseFlags l e })

end Sys2Proof.Machine
end

