-- ==== Sys2Proof/Machine/Predicate.lean ====
section
/-! DEFINITION. Machine/Predicate.lean: compares and predicate operations: majors 0x08 to 0x0A (R104, R105). -/

namespace Sys2Proof.Machine

/-- A condition of R104 on two n-bit values: 0 eq, 1 ne, 2 lt, 3 le, 4 gt, 5 ge, 6 ltb, 7 leb, 8 gtb, 9 geb, 10 tst,
11 ntst. -/
def condition (c : Nat) (x y : Word) (n : Nat) : Bool :=
  match c with
  | 0 => uval x n == uval y n
  | 1 => uval x n != uval y n
  | 2 => decide (sval x n < sval y n)
  | 3 => decide (sval x n ≤ sval y n)
  | 4 => decide (sval y n < sval x n)
  | 5 => decide (sval y n ≤ sval x n)
  | 6 => decide (uval x n < uval y n)
  | 7 => decide (uval x n ≤ uval y n)
  | 8 => decide (uval y n < uval x n)
  | 9 => decide (uval y n ≤ uval x n)
  | 10 => uval (x &&& y) n != 0
  | _ => uval (x &&& y) n == 0

/-- A scalar truth as a predicate field (R15). -/
def truthField (b : Bool) : Byte := if b then 0xFF else 0

/-- The lane results of a compare (R15, R104): enabled lanes new, disabled lanes kept, bits [7:n] zero. -/
def laneField (old mask : Byte) (n : Nat) (f : Nat → Bool) : Byte :=
  BitVec.ofNat 8 (((List.range n).map fun j => b2n (if mask.getLsbD j then f j else old.getLsbD j) * 2 ^ j).sum)

/-- A lane of a register as a word. -/
def laneWord (v : Word) (b j : Nat) : Word := BitVec.ofNat 64 (laneAt v b j)

/-- cmp, scalar on int64 sources, or lanewise on the lane class of its width. -/
def execCmp (g : BitVec 4) (d a b : Reg) (c : BitVec 5) (w : BitVec 2) (l : BitVec 1) (s : State) :
    Host.Outcome State Fault Refusal :=
  issueWord (hdr g [a, b]) (lineBody fun x =>
    let t := x.t.line
    let n := widthBits w
    if l = 0 then
      orTrap (checkTags t [(a, [0]), (b, [0])]) (setQ t d (truthField (condition c.toNat (getG t a) (getG t b) n)))
    else
      orTrap (checkTags t [(a, [laneTag w]), (b, [laneTag w])])
        (setQ t d (laneField (getQ t d) (laneMask t g) (2 ^ w.toNat) fun j =>
          condition c.toNat (laneWord (getG t a) n j) (laneWord (getG t b) n j) n))) s

/-- The extension of cmpi: zero for ltb, leb, gtb and geb, else sign (R60). -/
def cmpiSigned (c : BitVec 4) : Bool := !(decide (6 ≤ c.toNat) && decide (c.toNat ≤ 9))

/-- cmpi compares all 64 bits. -/
def execCmpi (g : BitVec 4) (d a : Reg) (c : BitVec 4) (i : BitVec 12) (s : State) : Host.Outcome State Fault Refusal :=
  issueWord (hdr g [a]) (lineBody fun x =>
    let t := x.t.line
    orTrap (checkTags t [(a, [0])])
      (setQ t d (truthField (condition c.toNat (getG t a) (extField x i.toNat 12 (cmpiSigned c)) 64)))) s

/-- Issue a predicate operation: qD takes a function of the line (R105). -/
def issueQ (g : BitVec 4) (d : Reg) (f : Line → Byte) (s : State) : Host.Outcome State Fault Refusal :=
  issueWord (hdr g []) (lineBody fun c => .ok (setQ c.t.line d (f c.t.line))) s

def execQand (g : BitVec 4) (d a b : Reg) (s : State) : Host.Outcome State Fault Refusal :=
  issueQ g d (fun t => getQ t a &&& getQ t b) s

def execQor (g : BitVec 4) (d a b : Reg) (s : State) : Host.Outcome State Fault Refusal :=
  issueQ g d (fun t => getQ t a ||| getQ t b) s

def execQxor (g : BitVec 4) (d a b : Reg) (s : State) : Host.Outcome State Fault Refusal :=
  issueQ g d (fun t => getQ t a ^^^ getQ t b) s

def execQnot (g : BitVec 4) (d a : Reg) (s : State) : Host.Outcome State Fault Refusal :=
  issueQ g d (fun t => ~~~(getQ t a)) s

def execQmov (g : BitVec 4) (d a : Reg) (s : State) : Host.Outcome State Fault Refusal :=
  issueQ g d (fun t => getQ t a) s

def execQset (g : BitVec 4) (d : Reg) (i : BitVec 8) (s : State) : Host.Outcome State Fault Refusal :=
  issueQ g d (fun _ => i) s

def execQany (g : BitVec 4) (d a : Reg) (w : BitVec 2) (s : State) : Host.Outcome State Fault Refusal :=
  issueQ g d (fun t => truthField ((List.range (2 ^ w.toNat)).any fun j => (getQ t a).getLsbD j)) s

def execQall (g : BitVec 4) (d a : Reg) (w : BitVec 2) (s : State) : Host.Outcome State Fault Refusal :=
  issueQ g d (fun t => truthField ((List.range (2 ^ w.toNat)).all fun j => (getQ t a).getLsbD j)) s

def execQtog (g : BitVec 4) (d : Reg) (i : BitVec 8) (s : State) : Host.Outcome State Fault Refusal :=
  issueQ g d (fun t => getQ t d ^^^ i) s

/-- gtoq reads an int64 register. -/
def execGtoq (g : BitVec 4) (d a : Reg) (s : State) : Host.Outcome State Fault Refusal :=
  issueWord (hdr g [a]) (lineBody fun c =>
    orTrap (checkTags c.t.line [(a, [0])]) (setQ c.t.line d ((getG c.t.line a).setWidth 8))) s

end Sys2Proof.Machine
end

