-- ==== Sys2Proof/Machine/Float.lean ====
section
/-! DEFINITION. Machine/Float.lean: the float operations and conversions: majors 0x0C and 0x0D (R108 to R111). -/

namespace Sys2Proof.Machine

/-- The exceptions of the enabled lanes together (R44). -/
def laneExc (mask : Byte) (n : Nat) (f : Nat → BitVec 5) : BitVec 5 :=
  (List.range n).foldl (fun e j => if mask.getLsbD j then e ||| f j else e) 0

/-- The mask of a float operation: lane 0 alone when X = 0. -/
def floatMask (l : Line) (g : BitVec 4) (x : BitVec 1) : Byte := if x = 1 then laneMask l g else 1

/-- The lanes a float operation may touch. -/
def floatLanes (f : Fmt) (x : BitVec 1) : Nat := if x = 1 then 64 / f.bits else 1

/-- A register written by R11 when X = 0 and by R14 when X = 1. -/
def floatWrite (old : Word) (mask : Byte) (f : Fmt) (x : BitVec 1) (r : Nat → Nat) : Word :=
  if x = 1 then laneWrite old mask f.bits (64 / f.bits) r else BitVec.ofNat 64 (r 0)

/-- The lanes of the sources at position j. -/
def lanesAt (l : Line) (srcs : List Reg) (n j : Nat) : List Nat := srcs.map fun r => laneAt (getG l r) n j

/-- Issue a float operation of sources of one format to gD; a lane that is not written keeps its bits (log entry 77). -/
def issueFloat (g : BitVec 4) (d : Reg) (srcs : List Reg) (w : BitVec 2) (x : BitVec 1)
    (op : Fmt → Nat → List Nat → Nat × BitVec 5) (s : State) : Host.Outcome State Fault Refusal :=
  issueWord (hdr g (d :: srcs)) (fun c s =>
    let l := c.t.line
    let f := fmtOf w
    let rm := roundingOf c
    let mask := floatMask l g x
    match checkTags l (srcs.map fun r => (r, [floatTag w])) with
    | some e => .trap e
    | none =>
      let r := fun j => op f rm (lanesAt l srcs f.bits j)
      let n := floatLanes f x
      let sub := (List.range n).any fun j => mask.getLsbD j &&
        ((lanesAt l srcs f.bits j).any (isSubnormal f) || isSubnormal f (r j).1)
      signal c s (laneExc mask n fun j => (r j).2) sub
        (setG l d (floatWrite (getG l d) mask f x fun j => (r j).1) (floatTag w))) s

/-- A function of two values from one of a list. -/
def two (f : Nat → Nat → Nat × BitVec 5) : List Nat → Nat × BitVec 5
  | [x, y] => f x y
  | _ => (0, 0)

/-- A function of one value from one of a list. -/
def one (f : Nat → Nat × BitVec 5) : List Nat → Nat × BitVec 5
  | [x] => f x
  | _ => (0, 0)

/-- A function of three values from one of a list. -/
def three (f : Nat → Nat → Nat → Nat × BitVec 5) : List Nat → Nat × BitVec 5
  | [x, y, z] => f x y z
  | _ => (0, 0)

def execFadd (g : BitVec 4) (d a b : Reg) (w : BitVec 2) (x : BitVec 1) (s : State) : Host.Outcome State Fault Refusal :=
  issueFloat g d [a, b] w x (fun f rm => two (fadd f rm)) s

def execFsub (g : BitVec 4) (d a b : Reg) (w : BitVec 2) (x : BitVec 1) (s : State) : Host.Outcome State Fault Refusal :=
  issueFloat g d [a, b] w x (fun f rm => two (fsub f rm)) s

def execFmul (g : BitVec 4) (d a b : Reg) (w : BitVec 2) (x : BitVec 1) (s : State) : Host.Outcome State Fault Refusal :=
  issueFloat g d [a, b] w x (fun f rm => two (fmul f rm)) s

def execFdiv (g : BitVec 4) (d a b : Reg) (w : BitVec 2) (x : BitVec 1) (s : State) : Host.Outcome State Fault Refusal :=
  issueFloat g d [a, b] w x (fun f rm => two (fdiv f rm)) s

def execFsqrt (g : BitVec 4) (d a : Reg) (w : BitVec 2) (x : BitVec 1) (s : State) : Host.Outcome State Fault Refusal :=
  issueFloat g d [a] w x (fun f rm => one (fsqrt f rm)) s

def execFmin (g : BitVec 4) (d a b : Reg) (w : BitVec 2) (x : BitVec 1) (s : State) : Host.Outcome State Fault Refusal :=
  issueFloat g d [a, b] w x (fun f _ => two (fmin f)) s

def execFmax (g : BitVec 4) (d a b : Reg) (w : BitVec 2) (x : BitVec 1) (s : State) : Host.Outcome State Fault Refusal :=
  issueFloat g d [a, b] w x (fun f _ => two (fmax f)) s

/-- fma reads gD as its third source. -/
def execFma (g : BitVec 4) (d a b : Reg) (w : BitVec 2) (x : BitVec 1) (s : State) : Host.Outcome State Fault Refusal :=
  issueFloat g d [a, b, d] w x (fun f rm => three (fma f rm)) s

/-- fcmp writes a predicate field (R15). -/
def execFcmp (g : BitVec 4) (d a b : Reg) (w : BitVec 2) (c : BitVec 4) (x : BitVec 1) (s : State) :
    Host.Outcome State Fault Refusal :=
  issueWord (hdr g [a, b]) (fun k s =>
    let l := k.t.line
    let f := fmtOf w
    let mask := floatMask l g x
    match checkTags l [(a, [floatTag w]), (b, [floatTag w])] with
    | some e => .trap e
    | none =>
      let r := fun j => fcmp f c.toNat (laneAt (getG l a) f.bits j) (laneAt (getG l b) f.bits j)
      let n := floatLanes f x
      let sub := (List.range n).any fun j => mask.getLsbD j && ((lanesAt l [a, b] f.bits j).any (isSubnormal f))
      signal k s (laneExc mask n fun j => (r j).2) sub
        (setQ l d (if x = 1 then laneField (getQ l d) mask n fun j => (r j).1 else truthField (r 0).1))) s

/-! ### Conversions -/

/-- The float format of a code of R76, 0 to 3. -/
def cvtFmt (k : Reg) : Fmt := fmtOf (k.setWidth 2)

/-- The code names a float format. -/
def cvtFloat (k : Reg) : Bool := decide (k.toNat < 4)

/-- The bits of a code's value: i64 and b64 64, i32 and b32 32. -/
def cvtBits (k : Reg) : Nat := if cvtFloat k then (cvtFmt k).bits else if k.toNat < 6 then 64 else 32

/-- The code is signed: i64 or i32. -/
def cvtSigned (k : Reg) : Bool := k.toNat % 2 == 0

/-- The range of an integer code. -/
def cvtRange (k : Reg) : Int × Int :=
  if cvtSigned k then (-(2 ^ (cvtBits k - 1) : Nat), (2 ^ (cvtBits k - 1) : Nat) - 1) else (0, (2 ^ cvtBits k : Nat) - 1)

/-- The integer a source of an integer code holds. -/
def cvtInt (k : Reg) (x : Nat) : Int := if cvtSigned k then signed (x % 2 ^ cvtBits k) (cvtBits k) else (x % 2 ^ cvtBits k : Nat)

/-- One conversion (R110 items 3 to 6): the bits of the target code, and the exceptions. -/
def convert (src tgt : Reg) (rm x : Nat) : Nat × BitVec 5 :=
  let r := cvtRange tgt
  if cvtFloat src then
    if cvtFloat tgt then floatToFloat (cvtFmt src) (cvtFmt tgt) rm (x % 2 ^ cvtBits src)
    else
      let v := floatToInt (cvtFmt src) rm r.1 r.2 (x % 2 ^ cvtBits src)
      (wrapTo v.1 (cvtBits tgt), v.2)
  else if cvtFloat tgt then intToFloat (cvtFmt tgt) rm (cvtInt src x)
  else
    let v := intoRange r.1 r.2 (cvtInt src x)
    (wrapTo v.1 (cvtBits tgt), v.2)

/-- The register class of a code: its float class, int64 when scalar, int32x2 in lanes. -/
def cvtTag (k : Reg) (l : BitVec 2) : Byte :=
  if cvtFloat k then floatTag (k.setWidth 2) else if l = 1 then 1 else 0

/-- A scalar target written: i32 and b32 extended to 64 bits (R110 item 1). -/
def cvtScalar (tgt : Reg) (r : Nat) : Word :=
  if tgt = 6 then extS r 32 else BitVec.ofNat 64 r

/-- A source or result of a float code is subnormal (R45). -/
def cvtSub (k : Reg) (x : Nat) : Bool := cvtFloat k && isSubnormal (cvtFmt k) (x % 2 ^ cvtBits k)

/-- fcvt (R110): a lane that is not written keeps its bits (log entry 77). -/
def execFcvt (g : BitVec 4) (d a : Reg) (l : BitVec 2) (ss t : Reg) (s : State) : Host.Outcome State Fault Refusal :=
  issueWord (hdr g [d, a]) (fun c s =>
    let k := c.t.line
    let rm := roundingOf c
    match checkTags k [(a, [cvtTag ss l])] with
    | some e => .trap e
    | none =>
      let n := cvtBits ss
      let lanes := if l = 1 then 64 / n else 1
      let mask := if l = 1 then laneMask k g else 1
      let r := fun j => convert ss t rm (laneAt (getG k a) n j)
      let sub := (List.range lanes).any fun j => mask.getLsbD j && (cvtSub ss (laneAt (getG k a) n j) || cvtSub t (r j).1)
      signal c s (laneExc mask lanes fun j => (r j).2) sub
        (setG k d (if l = 1 then laneWrite (getG k d) mask n lanes fun j => (r j).1 else cvtScalar t (r 0).1) (cvtTag t l))) s

def execFround (g : BitVec 4) (d a : Reg) (w : BitVec 2) (x : BitVec 1) (s : State) : Host.Outcome State Fault Refusal :=
  issueFloat g d [a] w x (fun f rm => one (fround f rm)) s

end Sys2Proof.Machine
end

