-- ==== Sys2Proof/Machine/Integer.lean ====
section
/-! DEFINITION. Machine/Integer.lean: the integer register, immediate and bit-field operations: majors 0x00 to 0x07 and
0x0E (R98 to R103). -/

namespace Sys2Proof.Machine

/-! ### Values of R98 -/

/-- add. -/
def addVal (w r : BitVec 2) (x y : Word) : Word :=
  reduce r (widthBits w) (ruleVal r x (widthBits w) + ruleVal r y (widthBits w))

/-- sub. -/
def subVal (w r : BitVec 2) (x y : Word) : Word :=
  reduce r (widthBits w) (ruleVal r x (widthBits w) - ruleVal r y (widthBits w))

/-- mul. -/
def mulVal (w r : BitVec 2) (x y : Word) : Word :=
  reduce r (widthBits w) (ruleVal r x (widthBits w) * ruleVal r y (widthBits w))

/-- A bitwise function of the whole registers at a width, marked s. -/
def bitVal (w : BitVec 2) (v : Word) : Word := extS v.toNat (widthBits w)

/-- shl: an amount of n or more moves every bit out, so it is limited to n. -/
def shlVal (w r : BitVec 2) (x y : Word) : Word :=
  reduce r (widthBits w) (ruleVal r x (widthBits w) * (2 ^ min y.toNat (widthBits w) : Nat))

/-- shr. -/
def shrVal (w : BitVec 2) (x y : Word) : Word :=
  extZ (uval x (widthBits w) / 2 ^ min y.toNat (widthBits w) : Nat) (widthBits w)

/-- sar. -/
def sarVal (w : BitVec 2) (x y : Word) : Word :=
  extS (sval x (widthBits w) / (2 ^ min y.toNat (widthBits w) : Nat)) (widthBits w)

/-- An n-bit number rotated left by k < n. -/
def rotl (u n k : Nat) : Nat := u * 2 ^ k % 2 ^ n + u / 2 ^ (n - k)

/-- rol. -/
def rolVal (w : BitVec 2) (x y : Word) : Word :=
  extS (rotl (uval x (widthBits w)) (widthBits w) (y.toNat % widthBits w) : Nat) (widthBits w)

/-- ror: left by the rest of the width. -/
def rorVal (w : BitVec 2) (x y : Word) : Word :=
  extS (rotl (uval x (widthBits w)) (widthBits w) ((widthBits w - y.toNat % widthBits w) % widthBits w) : Nat) (widthBits w)

/-- min. -/
def minVal (w : BitVec 2) (x y : Word) : Word := extS (min (sval x (widthBits w)) (sval y (widthBits w))) (widthBits w)

/-- max. -/
def maxVal (w : BitVec 2) (x y : Word) : Word := extS (max (sval x (widthBits w)) (sval y (widthBits w))) (widthBits w)

/-- minb. -/
def minbVal (w : BitVec 2) (x y : Word) : Word :=
  extZ (min (uval x (widthBits w)) (uval y (widthBits w)) : Nat) (widthBits w)

/-- maxb. -/
def maxbVal (w : BitVec 2) (x y : Word) : Word :=
  extZ (max (uval x (widthBits w)) (uval y (widthBits w)) : Nat) (widthBits w)

/-- mulh: the quotient is the floor. -/
def mulhVal (w : BitVec 2) (x y : Word) : Word :=
  extS (sval x (widthBits w) * sval y (widthBits w) / (2 ^ widthBits w : Nat)) (widthBits w)

/-- mulhb. -/
def mulhbVal (w : BitVec 2) (x y : Word) : Word :=
  extZ (uval x (widthBits w) * uval y (widthBits w) / 2 ^ widthBits w : Nat) (widthBits w)

/-- The quotient of `div`: truncated toward zero, −1 for a zero divisor (R98, R99). -/
def divInt (x y : Int) : Int := if y = 0 then -1 else x.tdiv y

/-- div. -/
def divVal (w : BitVec 2) (x y : Word) : Word :=
  extS (divInt (sval x (widthBits w)) (sval y (widthBits w))) (widthBits w)

/-- rem. -/
def remVal (w : BitVec 2) (x y : Word) : Word :=
  extS (sval x (widthBits w) - sval y (widthBits w) * divInt (sval x (widthBits w)) (sval y (widthBits w))) (widthBits w)

/-- divb: all ones for a zero divisor (R99). -/
def divbVal (w : BitVec 2) (x y : Word) : Word :=
  extZ (if uval y (widthBits w) = 0 then 2 ^ widthBits w - 1 else uval x (widthBits w) / uval y (widthBits w) : Nat)
    (widthBits w)

/-- remb: x for a zero divisor (R99). -/
def rembVal (w : BitVec 2) (x y : Word) : Word :=
  extZ (uval x (widthBits w) % uval y (widthBits w) : Nat) (widthBits w)

/-- neg. -/
def negVal (w r : BitVec 2) (x : Word) : Word := reduce r (widthBits w) (-(sval x (widthBits w)))

/-- abs. -/
def absVal (w r : BitVec 2) (x : Word) : Word := reduce r (widthBits w) ((sval x (widthBits w)).natAbs : Int)

/-- The bits of an n-bit number that are one. -/
def oneBits (u n : Nat) : List Nat := (List.range n).filter fun i => u / 2 ^ i % 2 == 1

/-- clz. -/
def clzVal (w : BitVec 2) (x : Word) : Word :=
  extZ (widthBits w - ((oneBits (uval x (widthBits w)) (widthBits w)).getLast?.map (· + 1)).getD 0 : Nat) (widthBits w)

/-- ctz. -/
def ctzVal (w : BitVec 2) (x : Word) : Word :=
  extZ ((oneBits (uval x (widthBits w)) (widthBits w)).headD (widthBits w) : Nat) (widthBits w)

/-- popc. -/
def popcVal (w : BitVec 2) (x : Word) : Word :=
  extZ ((oneBits (uval x (widthBits w)) (widthBits w)).length : Nat) (widthBits w)

/-- bswap. -/
def bswapVal (w : BitVec 2) (x : Word) : Word :=
  extZ (leNat (natLe (uval x (widthBits w)) (widthBits w / 8)).reverse : Nat) (widthBits w)

/-- sext. -/
def sextVal (w : BitVec 2) (x : Word) : Word := extS (sval x (widthBits w)) (widthBits w)

/-! ### Values of R102 and R103 -/

/-- movh: halfword p replaced. -/
def movhVal (p : Reg) (i : BitVec 16) (x : Word) : Word :=
  BitVec.ofNat 64 (x.toNat % 2 ^ (16 * p.toNat) + i.toNat * 2 ^ (16 * p.toNat)
    + x.toNat / 2 ^ (16 * p.toNat + 16) * 2 ^ (16 * p.toNat + 16))

/-- bext: m bits from bit p, sign-extended. -/
def bextVal (p n : BitVec 6) (x : Word) : Word := extS (x.toNat / 2 ^ p.toNat : Nat) (n.toNat + 1)

/-- bextb: the same, zero-extended. -/
def bextbVal (p n : BitVec 6) (x : Word) : Word := extZ (x.toNat / 2 ^ p.toNat : Nat) (n.toNat + 1)

/-- bins: the low m bits of x at bit p of the old value. -/
def binsVal (p n : BitVec 6) (old x : Word) : Word :=
  BitVec.ofNat 64 (old.toNat % 2 ^ p.toNat + x.toNat % 2 ^ (n.toNat + 1) * 2 ^ p.toNat
    + old.toNat / 2 ^ (p.toNat + n.toNat + 1) * 2 ^ (p.toNat + n.toNat + 1))

/-! ### The effect of R100 -/

/-- Two int64 sources, an int64 result. -/
def intBinary (d a b : Reg) (f : Word → Word → Word) (c : Ctx) : Except Trap Line :=
  orTrap (checkTags c.t.line [(a, [0]), (b, [0])]) (setG c.t.line d (f (getG c.t.line a) (getG c.t.line b)) 0)

/-- One int64 source, an int64 result. -/
def intUnary (d a : Reg) (f : Word → Word) (c : Ctx) : Except Trap Line :=
  orTrap (checkTags c.t.line [(a, [0])]) (setG c.t.line d (f (getG c.t.line a)) 0)

/-- Issue a function of two registers. -/
def issueBinary (g : BitVec 4) (d a b : Reg) (f : Word → Word → Word) (s : State) : Host.Outcome State Fault Refusal :=
  issueWord (hdr g [d, a, b]) (lineBody (intBinary d a b f)) s

/-- Issue a function of one register. -/
def issueUnary (g : BitVec 4) (d a : Reg) (f : Word → Word) (s : State) : Host.Outcome State Fault Refusal :=
  issueWord (hdr g [d, a]) (lineBody (intUnary d a f)) s

/-- Issue a function of a register and an extended imm16 (R102). -/
def issueImm (g : BitVec 4) (d a : Reg) (i : BitVec 16) (signExt : Bool) (f : Word → Word → Word) (s : State) :
    Host.Outcome State Fault Refusal :=
  issueWord (hdr g [d, a]) (lineBody fun c => intUnary d a (fun x => f x (extField c i.toNat 16 signExt)) c) s

def execAdd (g : BitVec 4) (d a b : Reg) (w r : BitVec 2) (s : State) : Host.Outcome State Fault Refusal :=
  issueBinary g d a b (addVal w r) s

def execSub (g : BitVec 4) (d a b : Reg) (w r : BitVec 2) (s : State) : Host.Outcome State Fault Refusal :=
  issueBinary g d a b (subVal w r) s

def execAnd (g : BitVec 4) (d a b : Reg) (w : BitVec 2) (s : State) : Host.Outcome State Fault Refusal :=
  issueBinary g d a b (fun x y => bitVal w (x &&& y)) s

def execOr (g : BitVec 4) (d a b : Reg) (w : BitVec 2) (s : State) : Host.Outcome State Fault Refusal :=
  issueBinary g d a b (fun x y => bitVal w (x ||| y)) s

def execXor (g : BitVec 4) (d a b : Reg) (w : BitVec 2) (s : State) : Host.Outcome State Fault Refusal :=
  issueBinary g d a b (fun x y => bitVal w (x ^^^ y)) s

def execAndn (g : BitVec 4) (d a b : Reg) (w : BitVec 2) (s : State) : Host.Outcome State Fault Refusal :=
  issueBinary g d a b (fun x y => bitVal w (x &&& ~~~y)) s

def execOrn (g : BitVec 4) (d a b : Reg) (w : BitVec 2) (s : State) : Host.Outcome State Fault Refusal :=
  issueBinary g d a b (fun x y => bitVal w (x ||| ~~~y)) s

def execXnor (g : BitVec 4) (d a b : Reg) (w : BitVec 2) (s : State) : Host.Outcome State Fault Refusal :=
  issueBinary g d a b (fun x y => bitVal w (~~~(x ^^^ y))) s

def execShl (g : BitVec 4) (d a b : Reg) (w r : BitVec 2) (s : State) : Host.Outcome State Fault Refusal :=
  issueBinary g d a b (shlVal w r) s

def execShr (g : BitVec 4) (d a b : Reg) (w : BitVec 2) (s : State) : Host.Outcome State Fault Refusal :=
  issueBinary g d a b (shrVal w) s

def execSar (g : BitVec 4) (d a b : Reg) (w : BitVec 2) (s : State) : Host.Outcome State Fault Refusal :=
  issueBinary g d a b (sarVal w) s

def execRol (g : BitVec 4) (d a b : Reg) (w : BitVec 2) (s : State) : Host.Outcome State Fault Refusal :=
  issueBinary g d a b (rolVal w) s

def execRor (g : BitVec 4) (d a b : Reg) (w : BitVec 2) (s : State) : Host.Outcome State Fault Refusal :=
  issueBinary g d a b (rorVal w) s

def execMin (g : BitVec 4) (d a b : Reg) (w : BitVec 2) (s : State) : Host.Outcome State Fault Refusal :=
  issueBinary g d a b (minVal w) s

def execMax (g : BitVec 4) (d a b : Reg) (w : BitVec 2) (s : State) : Host.Outcome State Fault Refusal :=
  issueBinary g d a b (maxVal w) s

def execMinb (g : BitVec 4) (d a b : Reg) (w : BitVec 2) (s : State) : Host.Outcome State Fault Refusal :=
  issueBinary g d a b (minbVal w) s

def execMaxb (g : BitVec 4) (d a b : Reg) (w : BitVec 2) (s : State) : Host.Outcome State Fault Refusal :=
  issueBinary g d a b (maxbVal w) s

def execMul (g : BitVec 4) (d a b : Reg) (w r : BitVec 2) (s : State) : Host.Outcome State Fault Refusal :=
  issueBinary g d a b (mulVal w r) s

def execMulh (g : BitVec 4) (d a b : Reg) (w : BitVec 2) (s : State) : Host.Outcome State Fault Refusal :=
  issueBinary g d a b (mulhVal w) s

def execMulhb (g : BitVec 4) (d a b : Reg) (w : BitVec 2) (s : State) : Host.Outcome State Fault Refusal :=
  issueBinary g d a b (mulhbVal w) s

def execDiv (g : BitVec 4) (d a b : Reg) (w : BitVec 2) (s : State) : Host.Outcome State Fault Refusal :=
  issueBinary g d a b (divVal w) s

def execDivb (g : BitVec 4) (d a b : Reg) (w : BitVec 2) (s : State) : Host.Outcome State Fault Refusal :=
  issueBinary g d a b (divbVal w) s

def execRem (g : BitVec 4) (d a b : Reg) (w : BitVec 2) (s : State) : Host.Outcome State Fault Refusal :=
  issueBinary g d a b (remVal w) s

def execRemb (g : BitVec 4) (d a b : Reg) (w : BitVec 2) (s : State) : Host.Outcome State Fault Refusal :=
  issueBinary g d a b (rembVal w) s

def execNeg (g : BitVec 4) (d a : Reg) (w r : BitVec 2) (s : State) : Host.Outcome State Fault Refusal :=
  issueUnary g d a (negVal w r) s

def execClz (g : BitVec 4) (d a : Reg) (w : BitVec 2) (s : State) : Host.Outcome State Fault Refusal :=
  issueUnary g d a (clzVal w) s

def execCtz (g : BitVec 4) (d a : Reg) (w : BitVec 2) (s : State) : Host.Outcome State Fault Refusal :=
  issueUnary g d a (ctzVal w) s

def execPopc (g : BitVec 4) (d a : Reg) (w : BitVec 2) (s : State) : Host.Outcome State Fault Refusal :=
  issueUnary g d a (popcVal w) s

def execBswap (g : BitVec 4) (d a : Reg) (w : BitVec 2) (s : State) : Host.Outcome State Fault Refusal :=
  issueUnary g d a (bswapVal w) s

/-- mov copies the register and its tag, whatever the tag (R100). -/
def execMov (g : BitVec 4) (d a : Reg) (s : State) : Host.Outcome State Fault Refusal :=
  issueWord (hdr g [d, a]) (lineBody fun c => .ok (setG c.t.line d (getG c.t.line a) (getTag c.t.line a))) s

def execAbs (g : BitVec 4) (d a : Reg) (w r : BitVec 2) (s : State) : Host.Outcome State Fault Refusal :=
  issueUnary g d a (absVal w r) s

def execSext (g : BitVec 4) (d a : Reg) (w : BitVec 2) (s : State) : Host.Outcome State Fault Refusal :=
  issueUnary g d a (sextVal w) s

def execAddi (g : BitVec 4) (d a : Reg) (i : BitVec 16) (s : State) : Host.Outcome State Fault Refusal :=
  issueImm g d a i true (· + ·) s

def execAndi (g : BitVec 4) (d a : Reg) (i : BitVec 16) (s : State) : Host.Outcome State Fault Refusal :=
  issueImm g d a i false (· &&& ·) s

def execOri (g : BitVec 4) (d a : Reg) (i : BitVec 16) (s : State) : Host.Outcome State Fault Refusal :=
  issueImm g d a i false (· ||| ·) s

def execXori (g : BitVec 4) (d a : Reg) (i : BitVec 16) (s : State) : Host.Outcome State Fault Refusal :=
  issueImm g d a i false (· ^^^ ·) s

def execShli (g : BitVec 4) (d a : Reg) (w : BitVec 2) (k : BitVec 6) (s : State) : Host.Outcome State Fault Refusal :=
  issueUnary g d a (fun x => shlVal w 0 x (k.setWidth 64)) s

def execShri (g : BitVec 4) (d a : Reg) (w : BitVec 2) (k : BitVec 6) (s : State) : Host.Outcome State Fault Refusal :=
  issueUnary g d a (fun x => shrVal w x (k.setWidth 64)) s

def execSari (g : BitVec 4) (d a : Reg) (w : BitVec 2) (k : BitVec 6) (s : State) : Host.Outcome State Fault Refusal :=
  issueUnary g d a (fun x => sarVal w x (k.setWidth 64)) s

def execRoli (g : BitVec 4) (d a : Reg) (w : BitVec 2) (k : BitVec 6) (s : State) : Host.Outcome State Fault Refusal :=
  issueUnary g d a (fun x => rolVal w x (k.setWidth 64)) s

/-- movi does not read gD (R102). -/
def execMovi (g : BitVec 4) (d : Reg) (i : BitVec 16) (s : State) : Host.Outcome State Fault Refusal :=
  issueWord (hdr g [d]) (lineBody fun c => .ok (setG c.t.line d (extField c i.toNat 16 true) 0)) s

/-- movh reads gD and checks its tag (R102). -/
def execMovh (g : BitVec 4) (d p : Reg) (i : BitVec 16) (s : State) : Host.Outcome State Fault Refusal :=
  issueWord (hdr g [d]) (lineBody (intUnary d d (movhVal p i))) s

def execBext (g : BitVec 4) (d a : Reg) (p n : BitVec 6) (s : State) : Host.Outcome State Fault Refusal :=
  issueUnary g d a (bextVal p n) s

def execBextb (g : BitVec 4) (d a : Reg) (p n : BitVec 6) (s : State) : Host.Outcome State Fault Refusal :=
  issueUnary g d a (bextbVal p n) s

/-- bins reads gD (R103). -/
def execBins (g : BitVec 4) (d a : Reg) (p n : BitVec 6) (s : State) : Host.Outcome State Fault Refusal :=
  issueBinary g d a d (fun x old => binsVal p n old x) s

end Sys2Proof.Machine
end

