-- ==== Sys2Proof/Machine/Parallel.lean ====
section
/-! DEFINITION. Machine/Parallel.lean: threads: spawn, join, yield, exit, go, goc, self, cancel, waitne, waiteq (R162 to
R171). -/

namespace Sys2Proof.Machine

/-! ### Join counters -/

/-- The location of a join counter for a write: alignment, space, translation (R162, R165). -/
def counterLoc (s : State) (c : Ctx) (j : Nat) : Except Stop Loc :=
  match addrTrap 8 j true with
  | some t => .error (.trap t)
  | none => locateWrite s c.who j 0

/-- The record a spawn pushes (R162); CONT is not stated there and is 0. -/
def spawnRecord (s : State) (c : Ctx) (pc j : Word) (p : BitVec 4) (ss : BitVec 2) : TaskRec where
  pc := pc.setWidth 48
  g0 := getG c.t.line 0
  g1 := getG c.t.line 1
  g2 := getG c.t.line 2
  g3 := getG c.t.line 3
  jaddr := j.setWidth 56
  tenant := c.who.tenant
  job := c.who.job
  prio := if p.toNat < c.t.line.prio.toNat then p else c.t.line.prio
  sdom := ss
  cont := false
  tags := getTag c.t.line 3 ++ getTag c.t.line 2 ++ getTag c.t.line 1 ++ getTag c.t.line 0
  origin := c.core
  serial := (getCore s c.core).serial
  held := false

/-- The push of a spawn and its result in gD, with the error of a poisoned counter (R404); a full deque traps, or waits once the
counter was raised elsewhere. -/
def spawnPush (c : Ctx) (d : Reg) (r : TaskRec) (s : State) (bad : Bool) : Res :=
  match dequePush (getCore s c.core) r with
  | none => .retry s c.t.req c.t.replies
  | some k =>
    .ok (setCore s c.core { k with serial := k.serial + 1 })
      (noteError { c.t with line := setG c.t.line d (BitVec.ofNat 64 (r.serial.toNat + r.origin * 2 ^ 32)) 0 } bad none
        r.jaddr.toNat)

/-- spawn reads g0 to g3, so it waits for them; it waits for the line's stores (R162, R32), and then issues again until its earlier reads,
which R227 orders before the child, are performed. A counter on another member is raised once (R447). -/
def execSpawn (g : BitVec 4) (d a b : Reg) (p : BitVec 4) (ss : BitVec 2) (s : State) : Host.Outcome State Fault Refusal :=
  issueWord (hdr g [d, a, b, 0, 1, 2, 3]) (fun c s =>
    match checkTags c.t.line [(a, [codeTag, 0]), (b, [0])] with
    | some e => .trap e
    | none =>
      let t := getG c.t.line a
      let j := getG c.t.line b
      let r := spawnRecord s c t j p ss
      if codeAligned t = false then .trap (trapCodeAlign t.toNat)
      else
        let go := fun (k : Res) =>
          if c.t.stores ≠ 0 then .drain s .stores
          else if readsDone s c.t.tenant c.t.addr = false then .bounce s
          else if (dequePush (getCore s c.core) r).isNone then .trap (mkTrap 14 0 0)
          else k
        if j = 0 then go (spawnPush c d r s false)
        else remoteOnce s c (spawnPush c d r s false) (match counterLoc s c j.toNat with
          | .error e => stopRes s c e
          | .ok loc => go (syncAdd s c 1 j.toNat loc (spawnPush c d r)))) s

/-- join: an acquire at home scope; a nonzero counter is waited for with kind 7 (R163). -/
def execJoin (g : BitVec 4) (a : Reg) (s : State) : Host.Outcome State Fault Refusal :=
  issueWord (hdr g [a]) (fun c s =>
    match checkTags c.t.line [(a, [0])] with
    | some e => .trap e
    | none =>
      let j := (getG c.t.line a).toNat
      withLoc s c 8 j false (locate s c.who .load j 0) fun loc =>
        syncRead s c 0 8 true j loc fun v bad =>
          if v = 0 then .ok s (noteError c.t bad none j) else .wait s (waitTag 7 j)) s

/-- yield: with another candidate for the slot the line waits with kind 9 past the word, till that slot is filled (R164). -/
def execYield (g : BitVec 4) (s : State) : Host.Outcome State Fault Refusal :=
  issueWord (hdr g []) (fun c s =>
    match c.t.place with
    | .slot core k =>
      if hasCandidate s core then
        .ok s { c.t with line := { c.t.line with wait := waitTag 9 0 }, yieldOf := some (core, k) }
      else .ok s c.t
    | _ => .ok s c.t) s

/-- The line retires once drained (R165), when its home directory can be reached (R440). -/
def exitWith (c : Ctx) (s : State) (k : (State → Res) → Res) : Res :=
  if drained s c.t = false then .drain s .all
  else if dirHeld s c.t then .retry s c.t.req c.t.replies
  else k (fun s => .leave (retireLine s c.t))

def execExit (g : BitVec 4) (s : State) : Host.Outcome State Fault Refusal :=
  issueWord (hdr g []) (fun c s => exitWith c s fun retire => retire s) s

/-- exit with a counter: the decrement is a release at home scope (R165, R166), made once when the counter is on another member
(R447); a poisoned counter is left, and the line retires with the error's record (R404). -/
def execExitCounter (g : BitVec 4) (a : Reg) (s : State) : Host.Outcome State Fault Refusal :=
  issueWord (hdr g [a]) (fun c s =>
    match checkTags c.t.line [(a, [0])] with
    | some e => .trap e
    | none =>
      let j := (getG c.t.line a).toNat
      remoteOnce s c (exitWith c s fun retire => retire s) (match counterLoc s c j with
        | .error e => stopRes s c e
        | .ok loc => exitWith c s fun _ => syncAdd s c (-1) j loc fun s bad =>
            .leave (retireLine s (noteError c.t bad none j)))) s

/-! ### Migration (R143, R144, R167) -/

/-- Where a `go` goes: a cluster, a die of this module, or the member that holds the address. -/
inductive GoTo where
  | cluster (cl : Nat)
  | die (v : Nat)
  | member (vmod paddr : Nat)
  deriving DecidableEq, Repr

/-- The owner of the addressed memory (R144, R167). A window address is not checked for ownership (log entry 80). -/
def goTarget (s : State) (who : Who) (va : Nat) : Except Stop GoTo :=
  if 2 ^ 56 ≤ va then .error (.trap (trapPageFault false va))
  else match regionOf va with
    | .reserved => .error (.trap (trapPageFault false va))
    | .vault cl _ => .ok (.cluster cl)
    | .localStore c _ => .ok (.cluster (clusterOf c))
    | .mailbox c _ => .ok (.cluster (clusterOf c))
    | .tdt cl _ => .ok (.cluster cl)
    | .paged =>
      match checkLeaf s who .load va (findLeaf s who va) with
      | .error e => .error e
      | .ok (level, w) =>
        let off := va % 2 ^ levelShift level
        if leafRemote w then .ok (.member (nbits w.toNat 45 10) (nbits w.toNat 16 25 * 65536 + off))
        else match virtOf s ((leafAddr w * 65536 + off) / 2 ^ 38) with
          | some v => .ok (.die v)
          | none => .error (.trap (trapPageFault false va))

/-- The line as it leaves its slot for another core, its word issued (R143, R439). -/
def departing (s : State) (c : Ctx) (place : Place) : LiveLine :=
  { agedLine s c.t with
    place := place
    line := { c.t.line with pc := c.p + 4, lver := c.t.line.lver + 1 }
    md := none
    req := none
    replies := []
    word := none
    count := 0
    forfeit := 0
    norm := false
    normWait := false
    passed := 0
    passedCl := 0
    route := s.dmgen }

/-- Depart to `core`; offline and lost dies are unreachable, and the line first drains (R167, R438). -/
def depart (c : Ctx) (s : State) (core : Nat) (va : Nat) : Res :=
  if 2 ≤ (getDie s (dieOf core)).state then .trap (mkTrap 15 (core / 8 * 8) va)
  else if drained s c.t = false then .drain s .all
  else if dirHeld s c.t then .retry s c.t.req c.t.replies
  else .leave (putLine s (departing s c (.flight core)))

/-- Depart to another member: the line is a packet of the fabric; its home directory keeps the entry (R434, R447). -/
def departMember (c : Ctx) (s : State) (vmod paddr : Nat) : Res :=
  if drained s c.t = false then .drain s .all
  else if dirHeld s c.t then .retry s c.t.req c.t.replies
  else
    let x := departing s c (.away vmod false)
    let img := BitVec.ofNat 1024 (leNat (lineBytes x.line))
    .leave (sendPkt (putLine s x) (mkPkt s c (.line img 0) false c.t.addr (.remote vmod paddr)))

/-- go (R167): the core coordinate that names a cluster of `go` in Unreachable, and the core the line goes to: any core of the cluster,
or of any cluster above the slice's base die, the device's choice. -/
def execGo (g : BitVec 4) (a : Reg) (s : State) : Host.Outcome State Fault Refusal :=
  issueWord (hdr g [a]) (fun c s =>
    match checkTags c.t.line [(a, [0])] with
    | some e => .trap e
    | none =>
      let va := (getG c.t.line a).toNat
      match goTarget s c.who va with
      | .error e => stopRes s c e
      | .ok (.cluster cl) =>
        if 2 ≤ (getDie s (dieOfCluster cl)).state then .trap (mkTrap 15 (cl * 8) va)
        else depart c (choose s 8).2 (cl * 8 + (choose s 8).1) va
      | .ok (.die v) =>
        if 2 ≤ (getDie s v).state then .trap (mkTrap 15 (v * 256) va)
        else depart c (choose s 256).2 (v * 256 + (choose s 256).1) va
      | .ok (.member m p) => departMember c s m p) s

/-- goc names a core coordinate (R167). -/
def execGoc (g : BitVec 4) (a : Reg) (s : State) : Host.Outcome State Fault Refusal :=
  issueWord (hdr g [a]) (fun c s =>
    match checkTags c.t.line [(a, [0])] with
    | some e => .trap e
    | none =>
      let v := (getG c.t.line a).toNat
      if 2 ^ 11 ≤ v then .trap (trapRange a) else depart c s v 0) s

/-- self (R169). -/
def execSelf (g : BitVec 4) (d : Reg) (s : State) : Host.Outcome State Fault Refusal :=
  issueWord (hdr g [d]) (fun c s => .ok s { c.t with line := setG c.t.line d (BitVec.ofNat 64 c.t.addr) 0 }) s

/-! ### cancel (R170) -/

/-- The outcome of a cancel in gD. -/
def cancelDone (c : Ctx) (d : Reg) (found : Bool) (s : State) : Res :=
  .ok s { c.t with line := setG c.t.line d (BitVec.ofNat 64 (b2n found)) 0 }

/-- The core without a record. -/
def withoutRecord (k : Core) (r : TaskRec) : Core := { k with deque := k.deque.erase r, ring := k.ring.erase r }

/-- The decrement of the join counter of a cancelled record is a release: it waits for the line's earlier instructions, and the window
closes (R218, R221). -/
def cancelRelease (c : Ctx) (d : Reg) (j : Nat) (loc : Loc) (s s' : State) : Res :=
  let t := { c.t with line := closedWindow c.t.line true }
  if drained s c.t = false then .drain s .all
  else if isRemote loc then .retry (sendPkt s' (mkPkt s' c (.rmw 0 8 (-1) 0 0) true j loc)) (some s'.nextId) []
  else if locHeld s loc || readHeld s loc 8 then .retry s c.t.req c.t.replies
  else if locPoisoned s loc 8 then cancelDone { c with t := noteError t true none j } d true s'
  else cancelDone { c with t := t } d true (performRmw s' c.who.tenant loc 0 8 (2 ^ 64 - 1) 0).1

/-- cancel (R170): the record is found and taken as one operation at its deque. -/
def execCancel (g : BitVec 4) (d a : Reg) (s : State) : Host.Outcome State Fault Refusal :=
  issueWord (hdr g [d, a]) (fun c s =>
    match checkTags c.t.line [(a, [0])] with
    | some e => .trap e
    | none =>
      let id := getG c.t.line a
      if 2 ^ 43 ≤ id.toNat then .trap (trapRange a)
      else remoteOnce s c (cancelDone { c with t := { c.t with line := closedWindow c.t.line true } } d true s) (
        let origin := id.toNat / 2 ^ 32
        let k := getCore s origin
        match (k.ring ++ k.deque).find? (isRecord c.who.tenant origin (id.setWidth 32)) with
        | none => cancelDone c d false s
        | some r =>
          let s' := setCore s origin (withoutRecord k r)
          if r.jaddr = 0 then cancelDone c d true s'
          else match locateWrite s c.who r.jaddr.toNat 0 with
            | .error e => stopRes s c e
            | .ok loc => cancelRelease c d r.jaddr.toNat loc s s')) s

/-! ### waitne and waiteq (R171) -/

/-- The value is read; gD is written when the condition holds, else the line waits with kind 3. A poisoned value gives 0 and its
deferred error, and no wait (R404, log entry 73). -/
def waitValue (eq : Bool) (d a b : Reg) (w : BitVec 2) (c : Ctx) (s : State) : Res :=
  match checkTags c.t.line [(a, [0]), (b, [0])] with
  | some e => .trap e
  | none =>
    let size := 8 / 2 ^ w.toNat
    let ea := (getG c.t.line a).toNat
    withLoc s c size ea false (locate s c.who .load ea 0) fun loc =>
      syncRead s c 0 size true ea loc fun v bad =>
        if bad = true ∨ (v == uval (getG c.t.line b) (8 * size)) = eq then
          .ok s (noteError { c.t with line := setG c.t.line d (BitVec.ofNat 64 v) 0 } bad (some d) ea)
        else .wait s (waitTag 3 ea)

def execWaitne (g : BitVec 4) (d a b : Reg) (w _c : BitVec 2) (s : State) : Host.Outcome State Fault Refusal :=
  issueWord (hdr g [d, a, b]) (waitValue false d a b w) s

def execWaiteq (g : BitVec 4) (d a b : Reg) (w _c : BitVec 2) (s : State) : Host.Outcome State Fault Refusal :=
  issueWord (hdr g [d, a, b]) (waitValue true d a b w) s

end Sys2Proof.Machine
end

