-- ==== Sys2Proof/Machine/ShortVector.lean ====
section
/-! DEFINITION. Machine/ShortVector.lean: the short-vector integer operations: major 0x0B (R106, R107). -/

namespace Sys2Proof.Machine

/-- Lane j of gA and gB to lane j of gD: both sources and the result of the lane class of the width. A lane that is not written keeps its
bits, whatever the tag of gD was (log entry 77). -/
def issueLanes (g : BitVec 4) (d a b : Reg) (w : BitVec 2) (f : Nat → Nat → Nat) (s : State) :
    Host.Outcome State Fault Refusal :=
  issueWord (hdr g [d, a, b]) (lineBody fun c =>
    let t := c.t.line
    let n := widthBits w
    orTrap (checkTags t [(a, [laneTag w]), (b, [laneTag w])])
      (setG t d (laneWrite (getG t d) (laneMask t g) n (2 ^ w.toNat) fun j =>
        f (laneAt (getG t a) n j) (laneAt (getG t b) n j)) (laneTag w))) s

def execVadd (g : BitVec 4) (d a b : Reg) (w : BitVec 2) (s : State) : Host.Outcome State Fault Refusal :=
  issueLanes g d a b w (fun x y => (x + y) % 2 ^ widthBits w) s

def execVsub (g : BitVec 4) (d a b : Reg) (w : BitVec 2) (s : State) : Host.Outcome State Fault Refusal :=
  issueLanes g d a b w (fun x y => wrapTo ((x : Int) - y) (widthBits w)) s

def execVadds (g : BitVec 4) (d a b : Reg) (w : BitVec 2) (u : BitVec 1) (s : State) : Host.Outcome State Fault Refusal :=
  issueLanes g d a b w (fun x y => laneSat u (laneInt u x (widthBits w) + laneInt u y (widthBits w)) (widthBits w)) s

def execVsubs (g : BitVec 4) (d a b : Reg) (w : BitVec 2) (u : BitVec 1) (s : State) : Host.Outcome State Fault Refusal :=
  issueLanes g d a b w (fun x y => laneSat u (laneInt u x (widthBits w) - laneInt u y (widthBits w)) (widthBits w)) s

def execVmul (g : BitVec 4) (d a b : Reg) (w : BitVec 2) (u : BitVec 1) (s : State) : Host.Outcome State Fault Refusal :=
  issueLanes g d a b w (fun x y => laneSat u (laneInt u x (widthBits w) * laneInt u y (widthBits w)) (widthBits w)) s

def execVmin (g : BitVec 4) (d a b : Reg) (w : BitVec 2) (u : BitVec 1) (s : State) : Host.Outcome State Fault Refusal :=
  issueLanes g d a b w (fun x y => if laneInt u x (widthBits w) ≤ laneInt u y (widthBits w) then x else y) s

def execVmax (g : BitVec 4) (d a b : Reg) (w : BitVec 2) (u : BitVec 1) (s : State) : Host.Outcome State Fault Refusal :=
  issueLanes g d a b w (fun x y => if laneInt u x (widthBits w) ≤ laneInt u y (widthBits w) then y else x) s

/-- vavg: the quotient is the floor. -/
def execVavg (g : BitVec 4) (d a b : Reg) (w : BitVec 2) (u : BitVec 1) (s : State) : Host.Outcome State Fault Refusal :=
  issueLanes g d a b w (fun x y => wrapTo ((laneInt u x (widthBits w) + laneInt u y (widthBits w) + 1) / 2) (widthBits w)) s

def execVshl (g : BitVec 4) (d a b : Reg) (w : BitVec 2) (s : State) : Host.Outcome State Fault Refusal :=
  issueLanes g d a b w (fun x y => x * 2 ^ min y (widthBits w) % 2 ^ widthBits w) s

def execVshr (g : BitVec 4) (d a b : Reg) (w : BitVec 2) (s : State) : Host.Outcome State Fault Refusal :=
  issueLanes g d a b w (fun x y => x / 2 ^ min y (widthBits w)) s

def execVsar (g : BitVec 4) (d a b : Reg) (w : BitVec 2) (s : State) : Host.Outcome State Fault Refusal :=
  issueLanes g d a b w (fun x y => wrapTo (signed x (widthBits w) / (2 ^ min y (widthBits w) : Nat)) (widthBits w)) s

/-- vsel takes lane j of gA where bit j of qS is 1; a lane the guard disables keeps its value. -/
def execVsel (g : BitVec 4) (d a b : Reg) (w : BitVec 2) (ss : Reg) (s : State) : Host.Outcome State Fault Refusal :=
  issueWord (hdr g [d, a, b]) (lineBody fun c =>
    let t := c.t.line
    let n := widthBits w
    orTrap (checkTags t [(a, [laneTag w]), (b, [laneTag w])])
      (setG t d (laneWrite (getG t d) (laneMask t g) n (2 ^ w.toNat) fun j =>
        if (getQ t ss).getLsbD j then laneAt (getG t a) n j else laneAt (getG t b) n j) (laneTag w))) s

/-- vshuf: the nibbles of an int64 gB name lanes of gA. -/
def execVshuf (g : BitVec 4) (d a b : Reg) (w : BitVec 2) (s : State) : Host.Outcome State Fault Refusal :=
  issueWord (hdr g [d, a, b]) (lineBody fun c =>
    let t := c.t.line
    let n := widthBits w
    orTrap (checkTags t [(a, [laneTag w]), (b, [0])])
      (setG t d (laneWrite (getG t d) (laneMask t g) n (2 ^ w.toNat) fun j =>
        let k := laneAt (getG t b) 4 j
        if k < 2 ^ w.toNat then laneAt (getG t a) n k else 0) (laneTag w))) s

/-- vpack: the lanes of gA, then of gB, each saturated to half its width; the mask acts on the 2n result lanes. -/
def execVpack (g : BitVec 4) (d a b : Reg) (w : BitVec 2) (u : BitVec 1) (s : State) : Host.Outcome State Fault Refusal :=
  issueWord (hdr g [d, a, b]) (lineBody fun c =>
    let t := c.t.line
    let n := widthBits w
    let m := 2 ^ w.toNat
    orTrap (checkTags t [(a, [laneTag w]), (b, [laneTag w])])
      (setG t d (laneWrite (getG t d) (laneMask t g) (n / 2) (2 * m) fun j =>
        laneSat u (laneInt u (if j < m then laneAt (getG t a) n j else laneAt (getG t b) n (j - m)) n) (n / 2))
        (laneTag (w + 1)))) s

/-- vunpk: half of the lanes of gA, sign-extended to twice the width; the mask acts on the result lanes. -/
def execVunpk (g : BitVec 4) (d a : Reg) (w : BitVec 2) (h : BitVec 1) (s : State) : Host.Outcome State Fault Refusal :=
  issueWord (hdr g [d, a]) (lineBody fun c =>
    let t := c.t.line
    let n := widthBits w
    let half := 2 ^ w.toNat / 2
    orTrap (checkTags t [(a, [laneTag w])])
      (setG t d (laneWrite (getG t d) (laneMask t g) (2 * n) half fun j =>
        wrapTo (signed (laneAt (getG t a) n (j + h.toNat * half)) n) (2 * n)) (laneTag (w - 1)))) s

/-- The sum over the enabled lanes. -/
def laneSum (mask : Byte) (n : Nat) (f : Nat → Int) : Int :=
  ((List.range n).map fun j => if mask.getLsbD j then f j else 0).sum

/-- vdot adds the products of the enabled lanes to an int64 gD. -/
def execVdot (g : BitVec 4) (d a b : Reg) (w : BitVec 2) (u : BitVec 1) (s : State) : Host.Outcome State Fault Refusal :=
  issueWord (hdr g [d, a, b]) (lineBody fun c =>
    let t := c.t.line
    let n := widthBits w
    orTrap (checkTags t [(a, [laneTag w]), (b, [laneTag w]), (d, [0])])
      (setG t d (getG t d + BitVec.ofInt 64 (laneSum (laneMask t g) (2 ^ w.toNat) fun j =>
        laneInt u (laneAt (getG t a) n j) n * laneInt u (laneAt (getG t b) n j) n)) 0)) s

/-- vsum sums the enabled lanes into an int64. -/
def execVsum (g : BitVec 4) (d a : Reg) (w : BitVec 2) (u : BitVec 1) (s : State) : Host.Outcome State Fault Refusal :=
  issueWord (hdr g [d, a]) (lineBody fun c =>
    let t := c.t.line
    let n := widthBits w
    orTrap (checkTags t [(a, [laneTag w])])
      (setG t d (BitVec.ofInt 64 (laneSum (laneMask t g) (2 ^ w.toNat) fun j => laneInt u (laneAt (getG t a) n j) n)) 0)) s

end Sys2Proof.Machine
end

