-- ==== Sys2Proof/Machine/Dispatch.lean ====
section
/-! DEFINITION. Machine/Dispatch.lean: one arm per constructor, each a call of its meaning. -/

namespace Sys2Proof.Machine

def exec (i : Instr) (s : State) : Host.Outcome State Fault Refusal :=
  match i with
  | .add g d a b w r => Sys2Proof.Machine.execAdd g d a b w r s
  | .sub g d a b w r => Sys2Proof.Machine.execSub g d a b w r s
  | .and g d a b w => Sys2Proof.Machine.execAnd g d a b w s
  | .or g d a b w => Sys2Proof.Machine.execOr g d a b w s
  | .xor g d a b w => Sys2Proof.Machine.execXor g d a b w s
  | .andn g d a b w => Sys2Proof.Machine.execAndn g d a b w s
  | .orn g d a b w => Sys2Proof.Machine.execOrn g d a b w s
  | .xnor g d a b w => Sys2Proof.Machine.execXnor g d a b w s
  | .shl g d a b w r => Sys2Proof.Machine.execShl g d a b w r s
  | .shr g d a b w => Sys2Proof.Machine.execShr g d a b w s
  | .sar g d a b w => Sys2Proof.Machine.execSar g d a b w s
  | .rol g d a b w => Sys2Proof.Machine.execRol g d a b w s
  | .ror g d a b w => Sys2Proof.Machine.execRor g d a b w s
  | .min g d a b w => Sys2Proof.Machine.execMin g d a b w s
  | .max g d a b w => Sys2Proof.Machine.execMax g d a b w s
  | .minb g d a b w => Sys2Proof.Machine.execMinb g d a b w s
  | .maxb g d a b w => Sys2Proof.Machine.execMaxb g d a b w s
  | .mul g d a b w r => Sys2Proof.Machine.execMul g d a b w r s
  | .mulh g d a b w => Sys2Proof.Machine.execMulh g d a b w s
  | .mulhb g d a b w => Sys2Proof.Machine.execMulhb g d a b w s
  | .div g d a b w => Sys2Proof.Machine.execDiv g d a b w s
  | .divb g d a b w => Sys2Proof.Machine.execDivb g d a b w s
  | .rem g d a b w => Sys2Proof.Machine.execRem g d a b w s
  | .neg g d a w r => Sys2Proof.Machine.execNeg g d a w r s
  | .remb g d a b w => Sys2Proof.Machine.execRemb g d a b w s
  | .clz g d a w => Sys2Proof.Machine.execClz g d a w s
  | .ctz g d a w => Sys2Proof.Machine.execCtz g d a w s
  | .popc g d a w => Sys2Proof.Machine.execPopc g d a w s
  | .bswap g d a w => Sys2Proof.Machine.execBswap g d a w s
  | .mov g d a => Sys2Proof.Machine.execMov g d a s
  | .abs g d a w r => Sys2Proof.Machine.execAbs g d a w r s
  | .sext g d a w => Sys2Proof.Machine.execSext g d a w s
  | .addi g d a imm => Sys2Proof.Machine.execAddi g d a imm s
  | .andi g d a imm => Sys2Proof.Machine.execAndi g d a imm s
  | .ori g d a imm => Sys2Proof.Machine.execOri g d a imm s
  | .xori g d a imm => Sys2Proof.Machine.execXori g d a imm s
  | .shli g d a w k => Sys2Proof.Machine.execShli g d a w k s
  | .shri g d a w k => Sys2Proof.Machine.execShri g d a w k s
  | .sari g d a w k => Sys2Proof.Machine.execSari g d a w k s
  | .roli g d a w k => Sys2Proof.Machine.execRoli g d a w k s
  | .movi g d imm => Sys2Proof.Machine.execMovi g d imm s
  | .movh g d p imm => Sys2Proof.Machine.execMovh g d p imm s
  | .cmp g d a b c w l => Sys2Proof.Machine.execCmp g d a b c w l s
  | .cmpi g d a c imm => Sys2Proof.Machine.execCmpi g d a c imm s
  | .qand g d a b => Sys2Proof.Machine.execQand g d a b s
  | .qor g d a b => Sys2Proof.Machine.execQor g d a b s
  | .qxor g d a b => Sys2Proof.Machine.execQxor g d a b s
  | .qnot g d a => Sys2Proof.Machine.execQnot g d a s
  | .qmov g d a => Sys2Proof.Machine.execQmov g d a s
  | .qset g d imm => Sys2Proof.Machine.execQset g d imm s
  | .qany g d a w => Sys2Proof.Machine.execQany g d a w s
  | .qall g d a w => Sys2Proof.Machine.execQall g d a w s
  | .qtog g d imm => Sys2Proof.Machine.execQtog g d imm s
  | .gtoq g d a => Sys2Proof.Machine.execGtoq g d a s
  | .vadd g d a b w => Sys2Proof.Machine.execVadd g d a b w s
  | .vsub g d a b w => Sys2Proof.Machine.execVsub g d a b w s
  | .vadds g d a b w u => Sys2Proof.Machine.execVadds g d a b w u s
  | .vsubs g d a b w u => Sys2Proof.Machine.execVsubs g d a b w u s
  | .vmul g d a b w u => Sys2Proof.Machine.execVmul g d a b w u s
  | .vmin g d a b w u => Sys2Proof.Machine.execVmin g d a b w u s
  | .vmax g d a b w u => Sys2Proof.Machine.execVmax g d a b w u s
  | .vavg g d a b w u => Sys2Proof.Machine.execVavg g d a b w u s
  | .vshl g d a b w => Sys2Proof.Machine.execVshl g d a b w s
  | .vshr g d a b w => Sys2Proof.Machine.execVshr g d a b w s
  | .vsar g d a b w => Sys2Proof.Machine.execVsar g d a b w s
  | .vsel g d a b w ss => Sys2Proof.Machine.execVsel g d a b w ss s
  | .vshuf g d a b w => Sys2Proof.Machine.execVshuf g d a b w s
  | .vpack g d a b w u => Sys2Proof.Machine.execVpack g d a b w u s
  | .vunpk g d a w h => Sys2Proof.Machine.execVunpk g d a w h s
  | .vdot g d a b w u => Sys2Proof.Machine.execVdot g d a b w u s
  | .vsum g d a w u => Sys2Proof.Machine.execVsum g d a w u s
  | .fadd g d a b w x => Sys2Proof.Machine.execFadd g d a b w x s
  | .fsub g d a b w x => Sys2Proof.Machine.execFsub g d a b w x s
  | .fmul g d a b w x => Sys2Proof.Machine.execFmul g d a b w x s
  | .fdiv g d a b w x => Sys2Proof.Machine.execFdiv g d a b w x s
  | .fsqrt g d a w x => Sys2Proof.Machine.execFsqrt g d a w x s
  | .fmin g d a b w x => Sys2Proof.Machine.execFmin g d a b w x s
  | .fmax g d a b w x => Sys2Proof.Machine.execFmax g d a b w x s
  | .fma g d a b w x => Sys2Proof.Machine.execFma g d a b w x s
  | .fcmp g d a b w c x => Sys2Proof.Machine.execFcmp g d a b w c x s
  | .fcvt g d a l ss t => Sys2Proof.Machine.execFcvt g d a l ss t s
  | .fround g d a w x => Sys2Proof.Machine.execFround g d a w x s
  | .bext g d a p n => Sys2Proof.Machine.execBext g d a p n s
  | .bextb g d a p n => Sys2Proof.Machine.execBextb g d a p n s
  | .bins g d a p n => Sys2Proof.Machine.execBins g d a p n s
  | .br g o => Sys2Proof.Machine.execBr g o s
  | .call g o => Sys2Proof.Machine.execCall g o s
  | .jr g a => Sys2Proof.Machine.execJr g a s
  | .ret g a => Sys2Proof.Machine.execRet g a s
  | .callr g a => Sys2Proof.Machine.execCallr g a s
  | .loop g d o => Sys2Proof.Machine.execLoop g d o s
  | .spawn g d a b p ss => Sys2Proof.Machine.execSpawn g d a b p ss s
  | .join g a => Sys2Proof.Machine.execJoin g a s
  | .yield g => Sys2Proof.Machine.execYield g s
  | .exit g => Sys2Proof.Machine.execExit g s
  | .exitCounter g a => Sys2Proof.Machine.execExitCounter g a s
  | .go g a => Sys2Proof.Machine.execGo g a s
  | .goc g a => Sys2Proof.Machine.execGoc g a s
  | .self g d => Sys2Proof.Machine.execSelf g d s
  | .cancel g d a => Sys2Proof.Machine.execCancel g d a s
  | .waitne g d a b w c => Sys2Proof.Machine.execWaitne g d a b w c s
  | .waiteq g d a b w c => Sys2Proof.Machine.execWaiteq g d a b w c s
  | .ld g d a z c l o => Sys2Proof.Machine.execLd g d a z c l o s
  | .st g d a z c l o => Sys2Proof.Machine.execSt g d a z c l o s
  | .ldx g d a t z c l o => Sys2Proof.Machine.execLdx g d a t z c l o s
  | .stx g d a t z c l o => Sys2Proof.Machine.execStx g d a t z c l o s
  | .ldfe g d a z c o => Sys2Proof.Machine.execLdfe g d a z c o s
  | .ldff g d a z c o => Sys2Proof.Machine.execLdff g d a z c o s
  | .stf g d a z c o => Sys2Proof.Machine.execStf g d a z c o s
  | .ste g d a z c l o => Sys2Proof.Machine.execSte g d a z c l o s
  | .amoAdd g d a b w o c => Sys2Proof.Machine.execAmoAdd g d a b w o c s
  | .amoAnd g d a b w o c => Sys2Proof.Machine.execAmoAnd g d a b w o c s
  | .amoOr g d a b w o c => Sys2Proof.Machine.execAmoOr g d a b w o c s
  | .amoXor g d a b w o c => Sys2Proof.Machine.execAmoXor g d a b w o c s
  | .amoMin g d a b w o c => Sys2Proof.Machine.execAmoMin g d a b w o c s
  | .amoMax g d a b w o c => Sys2Proof.Machine.execAmoMax g d a b w o c s
  | .amoMinb g d a b w o c => Sys2Proof.Machine.execAmoMinb g d a b w o c s
  | .amoMaxb g d a b w o c => Sys2Proof.Machine.execAmoMaxb g d a b w o c s
  | .amoSwap g d a b w o c => Sys2Proof.Machine.execAmoSwap g d a b w o c s
  | .amoCas g d a b w o c => Sys2Proof.Machine.execAmoCas g d a b w o c s
  | .amoFadd g d a b w o c => Sys2Proof.Machine.execAmoFadd g d a b w o c s
  | .fence g k c => Sys2Proof.Machine.execFence g k c s
  | .tkld g d a w c => Sys2Proof.Machine.execTkld g d a w c s
  | .tkred g d a b p => Sys2Proof.Machine.execTkred g d a b p s
  | .tkdrop g d a => Sys2Proof.Machine.execTkdrop g d a s
  | .tkstat g d a => Sys2Proof.Machine.execTkstat g d a s
  | .mpost g a b c => Sys2Proof.Machine.execMpost g a b c s
  | .mexp g a b => Sys2Proof.Machine.execMexp g a b s
  | .mwait g a b c => Sys2Proof.Machine.execMwait g a b c s
  | .mread g d a c => Sys2Proof.Machine.execMread g d a c s
  | .enq g a b c => Sys2Proof.Machine.execEnq g a b c s
  | .deq g d a aq c => Sys2Proof.Machine.execDeq g d a aq c s
  | .qlen g d a => Sys2Proof.Machine.execQlen g d a s
  | .qmake g d a b => Sys2Proof.Machine.execQmake g d a b s
  | .qfree g a => Sys2Proof.Machine.execQfree g a s
  | .rmov g d a b w => Sys2Proof.Machine.execRmov g d a b w s
  | .rfill g d a b w => Sys2Proof.Machine.execRfill g d a b w s
  | .rcmp g d a b w => Sys2Proof.Machine.execRcmp g d a b w s
  | .lw g d a x ss aq r c => Sys2Proof.Machine.execLw g d a x ss aq r c s
  | .lswap g d x ss aq r c => Sys2Proof.Machine.execLswap g d x ss aq r c s
  | .lstream g d a x ss aq r c => Sys2Proof.Machine.execLstream g d a x ss aq r c s
  | .ldrain g d x ss aq r c => Sys2Proof.Machine.execLdrain g d x ss aq r c s
  | .lcfg g d a x ss aq r c => Sys2Proof.Machine.execLcfg g d a x ss aq r c s
  | .lrem g d a b => Sys2Proof.Machine.execLrem g d a b s
  | .tadd g d a x ss aq r c => Sys2Proof.Machine.execTadd g d a x ss aq r c s
  | .tmul g d a x ss aq r c => Sys2Proof.Machine.execTmul g d a x ss aq r c s
  | .tfma g d a x ss aq r c => Sys2Proof.Machine.execTfma g d a x ss aq r c s
  | .tmax g d a x ss aq r c => Sys2Proof.Machine.execTmax g d a x ss aq r c s
  | .tmin g d a x ss aq r c => Sys2Proof.Machine.execTmin g d a x ss aq r c s
  | .texp2 g d a x ss aq r c => Sys2Proof.Machine.execTexp2 g d a x ss aq r c s
  | .trcp g d a x ss aq r c => Sys2Proof.Machine.execTrcp g d a x ss aq r c s
  | .trsqrt g d a x ss aq r c => Sys2Proof.Machine.execTrsqrt g d a x ss aq r c s
  | .tcvt g d a x ss aq r c => Sys2Proof.Machine.execTcvt g d a x ss aq r c s
  | .tred g d a b x ss aq r c => Sys2Proof.Machine.execTred g d a b x ss aq r c s
  | .tsel g d a x ss aq r c => Sys2Proof.Machine.execTsel g d a x ss aq r c s
  | .ttrn g d a x ss aq r c => Sys2Proof.Machine.execTtrn g d a x ss aq r c s
  | .cpy g d a x ss aq r c => Sys2Proof.Machine.execCpy g d a x ss aq r c s
  | .cpyd g d a x ss aq r c => Sys2Proof.Machine.execCpyd g d a x ss aq r c s
  | .cwm g d a b x ss aq r c => Sys2Proof.Machine.execCwm g d a b x ss aq r c s
  | .chan g d a x ss aq r c => Sys2Proof.Machine.execChan g d a x ss aq r c s
  | .scmc g d a b x ss aq r c => Sys2Proof.Machine.execScmc g d a b x ss aq r c s
  | .sld g d a b x ss aq r c => Sys2Proof.Machine.execSld g d a b x ss aq r c s
  | .swpin g d a x ss aq r c => Sys2Proof.Machine.execSwpin g d a x ss aq r c s
  | .swpout g d a x ss aq r c => Sys2Proof.Machine.execSwpout g d a x ss aq r c s
  | .swpq g d a b x ss aq r c => Sys2Proof.Machine.execSwpq g d a b x ss aq r c s
  | .gslot g d a => Sys2Proof.Machine.execGslot g d a s
  | .gset g d a b => Sys2Proof.Machine.execGset g d a b s
  | .gfree g a => Sys2Proof.Machine.execGfree g a s
  | .jwait g a => Sys2Proof.Machine.execJwait g a s
  | .jtest g d a => Sys2Proof.Machine.execJtest g d a s
  | .jstat g d a => Sys2Proof.Machine.execJstat g d a s
  | .talloc g d a b => Sys2Proof.Machine.execTalloc g d a b s
  | .tfree g a => Sys2Proof.Machine.execTfree g a s
  | .tdesc g d a b => Sys2Proof.Machine.execTdesc g d a b s
  | .tinfo g d a b m => Sys2Proof.Machine.execTinfo g d a b m s
  | .capmint g d a => Sys2Proof.Machine.execCapmint g d a s
  | .caprev g => Sys2Proof.Machine.execCaprev g s
  | .fin g => Sys2Proof.Machine.execFin g s
  | .trap g imm => Sys2Proof.Machine.execTrap g imm s
  | .csrr g d n => Sys2Proof.Machine.execCsrr g d n s
  | .csrw g a n => Sys2Proof.Machine.execCsrw g a n s
  | .rft g a f => Sys2Proof.Machine.execRft g a f s
  | .cevictSelf g => Sys2Proof.Machine.execCevictSelf g s
  | .cevict g a => Sys2Proof.Machine.execCevict g a s
  | .cclaim g d a => Sys2Proof.Machine.execCclaim g d a s
  | .cpark g a b => Sys2Proof.Machine.execCpark g a b s
  | .transit g a => Sys2Proof.Machine.execTransit g a s
  | .tlbinv g a b => Sys2Proof.Machine.execTlbinv g a b s
  | .gsw g d a b => Sys2Proof.Machine.execGsw g d a b s
  | .nop g => Sys2Proof.Machine.execNop g s
  | .halt g a b => Sys2Proof.Machine.execHalt g a b s
  | .seal g a => Sys2Proof.Machine.execSeal g a s
  | .hext p => Sys2Proof.Machine.execHext p s
  | .hsched c => Sys2Proof.Machine.execHsched c s
  | .hmod l v r k n => Sys2Proof.Machine.execHmod l v r k n s
  | .notAnInstructionWord w => Sys2Proof.Machine.execNotAnInstructionWord w s
  | .fmodeWrite g a => Sys2Proof.Machine.execFmodeWrite g a s
  | .fflagsWrite g a => Sys2Proof.Machine.execFflagsWrite g a s
  | .fqHeadWrite g a => Sys2Proof.Machine.execFqHeadWrite g a s
  | .ctxpoolBaseWrite g a => Sys2Proof.Machine.execCtxpoolBaseWrite g a s
  | .ctxpoolLinesWrite g a => Sys2Proof.Machine.execCtxpoolLinesWrite g a s
  | .map tn g1 g2 g3 => Sys2Proof.Machine.execMap tn g1 g2 g3 s
  | .unmap tn g1 => Sys2Proof.Machine.execUnmap tn g1 s
  | .protect tn g1 g3 => Sys2Proof.Machine.execProtect tn g1 g3 s
  | .grantTake tn g1 => Sys2Proof.Machine.execGrantTake tn g1 s
  | .grantGiveBack tn g1 => Sys2Proof.Machine.execGrantGiveBack tn g1 s
  | .pushmask tn g1 g2 => Sys2Proof.Machine.execPushmask tn g1 g2 s
  | .killjob tn g1 => Sys2Proof.Machine.execKilljob tn g1 s
  | .swapallot tn g1 => Sys2Proof.Machine.execSwapallot tn g1 s
  | .counterTake tn g1 => Sys2Proof.Machine.execCounterTake tn g1 s
  | .counterGiveBack tn g1 => Sys2Proof.Machine.execCounterGiveBack tn g1 s
  | .write tn addr data rel tag => Sys2Proof.Machine.execWrite tn addr data rel tag s
  | .read tn addr len acq tag => Sys2Proof.Machine.execRead tn addr len acq tag s
  | .launch tn rec tag => Sys2Proof.Machine.execLaunch tn rec tag s
  | .push tn name elem tag => Sys2Proof.Machine.execPush tn name elem tag s
  | .post tn name inc tag => Sys2Proof.Machine.execPost tn name inc tag s
  | .tenantCreate tn tag => Sys2Proof.Machine.execTenantCreate tn tag s
  | .tenantTearDown tn tag => Sys2Proof.Machine.execTenantTearDown tn tag s
  | .tenantStartSupervisor tn blk tag => Sys2Proof.Machine.execTenantStartSupervisor tn blk tag s
  | .gangmap tn job gm tag => Sys2Proof.Machine.execGangmap tn job gm tag s
  | .gswitch tn job tag => Sys2Proof.Machine.execGswitch tn job tag s
  | .gresume tn job gm tag => Sys2Proof.Machine.execGresume tn job gm tag s
  | .hostHalt tn tag => Sys2Proof.Machine.execHostHalt tn tag s
  | .hostHaltResume tn tag => Sys2Proof.Machine.execHostHaltResume tn tag s
  | .lineResume tn addr tag => Sys2Proof.Machine.execLineResume tn addr tag s
  | .lineKill tn addr tag => Sys2Proof.Machine.execLineKill tn addr tag s
  | .diemapRead die tag => Sys2Proof.Machine.execDiemapRead die tag s
  | .diemapRemap die phys tag => Sys2Proof.Machine.execDiemapRemap die phys tag s
  | .diemapOffline die tag => Sys2Proof.Machine.execDiemapOffline die tag s
  | .service tn n g1 g2 g3 tag => Sys2Proof.Machine.execService tn n g1 g2 g3 tag s
  | .featuresRead tag => Sys2Proof.Machine.execFeaturesRead tag s
  | .featuresAccept set tag => Sys2Proof.Machine.execFeaturesAccept set tag s
  | .checkpointModuleSave tag => Sys2Proof.Machine.execCheckpointModuleSave tag s
  | .checkpointModuleRestore tag => Sys2Proof.Machine.execCheckpointModuleRestore tag s
  | .checkpointTenantSave tn tag => Sys2Proof.Machine.execCheckpointTenantSave tn tag s
  | .checkpointTenantRestore tn tag => Sys2Proof.Machine.execCheckpointTenantRestore tn tag s
  | .bind src keyDigest sigOk tag => Sys2Proof.Machine.execBind src keyDigest sigOk tag s
  | .attest nonce tag => Sys2Proof.Machine.execAttest nonce tag s
  | .boot b => Sys2Proof.Machine.execBoot b s
  | .clockReduction => Sys2Proof.Machine.execClockReduction s
  | .supplyFaultShutdown => Sys2Proof.Machine.execSupplyFaultShutdown s
  | .resultArrival id => Sys2Proof.Machine.execResultArrival id s
  | .storeAcknowledgement id => Sys2Proof.Machine.execStoreAcknowledgement id s
  | .sweptStoreAck id => Sys2Proof.Machine.execSweptStoreAck id s
  | .deferredMemoryError id => Sys2Proof.Machine.execDeferredMemoryError id s
  | .slotFill core slot => Sys2Proof.Machine.execSlotFill core slot s
  | .quantumExpiry core slot => Sys2Proof.Machine.execQuantumExpiry core slot s
  | .cl1Eviction core => Sys2Proof.Machine.execCl1Eviction core s
  | .cl2Eviction cl => Sys2Proof.Machine.execCl2Eviction cl s
  | .cl2Promotion cl core => Sys2Proof.Machine.execCl2Promotion cl core s
  | .readyListFill cl src => Sys2Proof.Machine.execReadyListFill cl src s
  | .readyListForcedFill cl => Sys2Proof.Machine.execReadyListForcedFill cl s
  | .fillRequest cl tn addr => Sys2Proof.Machine.execFillRequest cl tn addr s
  | .steal thief slot victim => Sys2Proof.Machine.execSteal thief slot victim s
  | .jobCompletion tn job => Sys2Proof.Machine.execJobCompletion tn job s
  | .migrationArrival tn addr core => Sys2Proof.Machine.execMigrationArrival tn addr core s
  | .wake n => Sys2Proof.Machine.execWake n s
  | .mailboxPost id => Sys2Proof.Machine.execMailboxPost id s
  | .mailboxExpectation tn name inc => Sys2Proof.Machine.execMailboxExpectation tn name inc s
  | .queuePush id => Sys2Proof.Machine.execQueuePush id s
  | .queuePushNack id => Sys2Proof.Machine.execQueuePushNack id s
  | .queueResidencyChange tn qnum core => Sys2Proof.Machine.execQueueResidencyChange tn qnum core s
  | .ticketFetchReturn slice idx => Sys2Proof.Machine.execTicketFetchReturn slice idx s
  | .ticketFetchFailure slice idx => Sys2Proof.Machine.execTicketFetchFailure slice idx s
  | .handlerCreation n => Sys2Proof.Machine.execHandlerCreation n s
  | .directoryMessage n => Sys2Proof.Machine.execDirectoryMessage n s
  | .tableWalk core tn addr => Sys2Proof.Machine.execTableWalk core tn addr s
  | .invalidationMarker inv unit => Sys2Proof.Machine.execInvalidationMarker inv unit s
  | .commandStart eng => Sys2Proof.Machine.execCommandStart eng s
  | .commandFault eng entry => Sys2Proof.Machine.execCommandFault eng entry s
  | .commandCompletion eng entry => Sys2Proof.Machine.execCommandCompletion eng entry s
  | .stagingDelivery cl core => Sys2Proof.Machine.execStagingDelivery cl core s
  | .stagingRowWrite cl row => Sys2Proof.Machine.execStagingRowWrite cl row s
  | .copySegment cl ch => Sys2Proof.Machine.execCopySegment cl ch s
  | .swapOutImageWritten tn page => Sys2Proof.Machine.execSwapOutImageWritten tn page s
  | .swapInFrameGrant tn page => Sys2Proof.Machine.execSwapInFrameGrant tn page s
  | .pageLanding tn page => Sys2Proof.Machine.execPageLanding tn page s
  | .flashReadError tn page => Sys2Proof.Machine.execFlashReadError tn page s
  | .packetReroute id => Sys2Proof.Machine.execPacketReroute id s
  | .remapPhaseCompletion => Sys2Proof.Machine.execRemapPhaseCompletion s
  | .dieLost die => Sys2Proof.Machine.execDieLost die s
  | .fabricDataFrame f => Sys2Proof.Machine.execFabricDataFrame f s
  | .fabricAck flow ackSeq => Sys2Proof.Machine.execFabricAck flow ackSeq s
  | .transportNack flow seq => Sys2Proof.Machine.execTransportNack flow seq s
  | .deviceNack flow reason => Sys2Proof.Machine.execDeviceNack flow reason s
  | .heartbeat flow ackSeq => Sys2Proof.Machine.execHeartbeat flow ackSeq s
  | .heartbeatSend port => Sys2Proof.Machine.execHeartbeatSend port s
  | .retransmission flow => Sys2Proof.Machine.execRetransmission flow s
  | .flowFailure flow => Sys2Proof.Machine.execFlowFailure flow s
  | .switchControl tn job src resume => Sys2Proof.Machine.execSwitchControl tn job src resume s
  | .meridianMarker tn job src cls => Sys2Proof.Machine.execMeridianMarker tn job src cls s
  | .switchPhaseCompletion tn job => Sys2Proof.Machine.execSwitchPhaseCompletion tn job s
  | .resumePhaseCompletion tn job => Sys2Proof.Machine.execResumePhaseCompletion tn job s
  | .transitMarker bkind block link => Sys2Proof.Machine.execTransitMarker bkind block link s
  | .remapAbandoned => Sys2Proof.Machine.execRemapAbandoned s

end Sys2Proof.Machine
end

