-- ==== Sys2Proof/Machine/Step.lean ====
section
/-! DEFINITION. Machine/Step.lean: one step: the turn that comes next is an issue cycle of a core, or an event. -/

namespace Sys2Proof.Machine

/-- A cycle of core `c` with the meaning of the word it fetches. -/
def cycleStep (s : State) (c : Nat) : Host.Outcome State Fault Refusal :=
  match beginCycle s c with
  | .quiet s' => .next s'
  | .issue i s' => endCycle (exec i s')

/-- One step of the module. -/
def step (s : State) : Host.Outcome State Fault Refusal :=
  match nextTurn s with
  | (.cycle c, s') => if s'.host.phase = 1 ∧ c < 2048 then cycleStep s' c else .next s'
  | (.event i, s') => if eventAllowed s' i then exec i s' else .next s'

/-- `s` with the instruction word `w` where the next step fetches. -/
def State.withFetchWord (s : State) (_nbits w : Nat) : State := placeWord s w

end Sys2Proof.Machine
end

