-- ==== Sys2Proof/Machine/Consistency.lean ====
section
/-! DEFINITION. Machine/Consistency.lean: the memory consistency model (R213 to R244, R430 to R432, R448, R495): executions as finite
graphs of events with their values, their relations, and the check of the axioms. It decides which outcomes several agents may see; the
machine of Machine/Step.lean is one way to produce some of them (log entry 26). -/

namespace Sys2Proof.Machine

/-! ### Locations (R214, R215, R344) -/

/-- A location of a member of the gang: a byte of DRAM by its home die and its place there, a byte of a vault or a local store, the
full/empty bit of the word at such a place, a counter's CNT or EXP, a queue by tenant, number and generation, an entry of a scale table or
of a TDT. -/
inductive Location where
  | dram (member die off : Nat)
  | window (member addr : Nat)
  | full (member : Nat) (of : Option Nat) (word : Nat)
  | cnt (member name : Nat)
  | exp (member name : Nat)
  | queue (member tenant num gen : Nat)
  | scale (member cl idx : Nat)
  | tdt (member cl idx : Nat)
  deriving DecidableEq, Repr

/-- The aligned 8-byte part of memory that a location belongs to; another location is a part of its own (R215). -/
def Location.part : Location → Location
  | .dram m d o => .full m (some d) (o / 8)
  | .window m a => .full m none (a / 8)
  | .full m of w => .full m of w
  | l => l

/-- A byte. -/
def Location.isByte : Location → Bool
  | .dram _ _ _ => true
  | .window _ _ => true
  | _ => false

/-- What a load through the device window reads of a mailbox file or a TDT (R148, R190). -/
def Location.isTable : Location → Bool
  | .cnt _ _ => true
  | .exp _ _ => true
  | .tdt _ _ _ => true
  | _ => false

/-- A location that receives RMWs only, apart from reads (R226). -/
def Location.rmwOnly : Location → Bool
  | .cnt _ _ => true
  | .exp _ _ => true
  | .queue _ _ _ _ => true
  | _ => false

/-- Each location with its value: a number, or the elements of a queue. -/
abbrev Vals := List (Location × List Nat)

/-- The value at a location, if there is one. -/
def valAt (l : Vals) (x : Location) : Option (List Nat) := (l.find? fun e => e.1 == x).map (·.2)

/-! ### Events (R213, R214, R218) -/

/-- An agent (R213). A memory-side agent counts as the thread it acts for, `device` is the launcher, also where it completes a launch, and
the initial writes have an agent of their own. -/
inductive Agent where
  | init
  | thread (n : Nat)
  | command (n : Nat)
  | swap (n : Nat)
  | device
  | host
  deriving DecidableEq, Repr

/-- Where an event comes from. -/
inductive Source where
  /-- the initial write of its locations. -/
  | initial
  /-- a word of a thread: whether its guard is true, and whether the attempt it stands for completes (R233). -/
  | word (i : Instr) (ran finished : Bool)
  /-- a relaxed access of a word beside its own event: `hasAside`. -/
  | aside (i : Instr)
  /-- a reduction result arrives in a pending register, before the word that waits for it (R241). -/
  | arrival
  /-- a fetch of code (R243). -/
  | fetch
  /-- an access of a command to an element, and the burst offset of a copy's write (R240, R227). -/
  | element (off : Nat)
  /-- the completion of a command, with what it writes to its completion counter (R241). -/
  | complete
  /-- the completion of a launched job at a scope, with what it writes to its counter (R242). -/
  | jobDone (job scope : Nat)
  /-- an access of the host on a tenant's queue: WRITE or READ (R456). -/
  | hostAccess (queue : Nat) (acq rel : Bool)
  /-- the acceptance of a launch record of a tenant's queue (R227). -/
  | accept (queue : Nat)
  /-- a host observes a job's completion message (R242). -/
  | hostObserve
  /-- the one write of a swap-out and the swap-in after it; whether it recodes (R219). -/
  | swapPage (recodes : Bool)
  /-- a PROTECT of a page's frame that leaves this HOME bit, by the thread that calls for it (R432). -/
  | protect (member die lo size : Nat) (home : Bool)
  deriving DecidableEq, Repr

/-- An event. `pos` numbers the words of its thread; `core` is where it was performed; `home` the HOME bit its translation used; `of_` the
fetch that it redeems, or the completion it observes (R238, R241); `mark` a watermark it read or waited past: of which command and how
far (R227); `waited` the swap whose page it waited for (R219); `args` the operands from which a word computes what it writes: gB or the
data, then the comparand. -/
structure Ev where
  agent  : Agent
  src    : Source
  pos    : Nat
  core   : Nat
  member : Nat
  home   : Bool
  reads  : Vals
  writes : Vals
  of_    : Option Nat
  mark   : Option (Nat × Nat)
  waited : Option Nat
  args   : List Nat
  deriving DecidableEq, Repr

/-- How a thread came to be (R227): from the initial state, a spawn, an accepted launch, a trap, or a drained row written by these
events. -/
inductive Origin where
  | start
  | spawn (e : Nat)
  | launch (e : Nat)
  | trap (e : Nat)
  | row (l : List Nat)
  deriving DecidableEq, Repr

/-- A thread's job and its origin. -/
structure ThreadInfo where
  job    : Nat
  origin : Origin
  deriving DecidableEq, Repr

/-- What a command's completion may wait for: `ldrain`, a `chan` or a copy on a channel, another command (R364, R375). -/
inductive CommandKind where
  | drain
  | marker (ch : Nat)
  | copy (ch : Nat)
  | other
  deriving DecidableEq, Repr

/-- A command's engine (from 1024 on the page swap engines), its capture, its tenant and job, its kind, and the flags of a remote one
(R366). -/
structure CommandInfo where
  engine  : Nat
  capture : Nat
  tenant  : Nat
  job     : Nat
  kind    : CommandKind
  flags   : Contribution
  deriving DecidableEq, Repr

/-- A candidate execution. Events stand in program order for each agent; `rf` gives the write from which a read takes a location, `co`
the writes of each location in coherence order; `fences` the full fences in their total order (R225); `commands` stand in the order in
which their engines take them; `resumes` pairs a handler's resumption with the first event of the line after it, `released` a `fin` with
the writes that move its row (R227). -/
structure Exec where
  evs      : List Ev
  rf       : List (Nat × Nat × Location)
  co       : List (Location × List Nat)
  fences   : List Nat
  threads  : List (Nat × ThreadInfo)
  commands : List (Nat × CommandInfo)
  resumes  : List (Nat × Nat)
  released : List (Nat × List Nat)
  deriving DecidableEq, Repr

/-- Event `i`. -/
def Exec.ev (g : Exec) (i : Nat) : Ev := g.evs.getD i ⟨.init, .initial, 0, 0, 0, true, [], [], none, none, none, []⟩

/-- The numbers of the events. -/
def Exec.ids (g : Exec) : List Nat := List.range g.evs.length

/-- The locations of an event. -/
def Ev.locs (e : Ev) : List Location := (e.reads.map (·.1) ++ e.writes.map (·.1)).eraseDups

/-- Two events touch a common location. -/
def Ev.meets (a b : Ev) : Bool := a.locs.any b.locs.contains

def Ev.isRead (e : Ev) : Bool := !(e.reads.isEmpty)
def Ev.isWrite (e : Ev) : Bool := !(e.writes.isEmpty)
def Ev.reads? (e : Ev) (x : Location) : Bool := e.reads.any fun v => v.1 == x
def Ev.writes? (e : Ev) (x : Location) : Bool := e.writes.any fun v => v.1 == x

/-- The command that a capture event started. -/
def Exec.command (g : Exec) (n : Nat) : Option CommandInfo := (g.commands.find? fun c => c.1 == n).map (·.2)

/-- The flags of a captured command: of its word, or of the remote block (R240, R241, R366). -/
def Exec.flags (g : Exec) (c : CommandInfo) : Contribution :=
  match (g.ev c.capture).src with
  | .word (.lrem _ _ _ _) _ _ => { c.flags with act := .capture }
  | .word i _ _ => contributionOf i
  | _ => relaxed .none_

/-- The flags of command `n`. -/
def Exec.captured (g : Exec) (n : Nat) : Contribution := ((g.command n).map g.flags).getD (relaxed .none_)

/-- The act, order and scope of an event without what it redeems or observes (R218, R241, R242, R456). -/
def Exec.own (g : Exec) (i : Nat) : Contribution :=
  let e := g.ev i
  match e.src, e.agent with
  | .word (.lrem _ _ _ _) true true, _ => ((g.commands.find? fun c => c.2.capture == i).map fun c => g.flags c.2).getD (relaxed .none_)
  | .word (.ld g' d a z c l o) true true, _ => if e.reads.any (·.1.isTable) then relaxed .read else contributionOf (.ld g' d a z c l o)
  | .word (.ldx g' d a t z c l o) true true, _ => if e.reads.any (·.1.isTable) then relaxed .read else contributionOf (.ldx g' d a t z c l o)
  | .word i true true, _ => contributionOf i
  | .word _ true false, _ => relaxed .read
  | .aside _, _ => relaxed (if e.writes.isEmpty then .read else .write)
  | .arrival, _ => relaxed .observe
  | .complete, .command n => ⟨.none_, false, (g.captured n).rel, (g.captured n).scope⟩
  | .jobDone _ c, _ => ⟨.none_, false, c != 0, c⟩
  | .hostAccess _ acq rel, _ => ⟨if e.writes.isEmpty then .read else .write, acq, rel, 3⟩
  | .hostObserve, _ => ⟨.observe, true, false, 3⟩
  | _, _ => relaxed .none_

/-- The order of an event: a redemption takes its ticket's acquire and scope from the `tkld`, and is a read of its own where it falls back
(R238, R239); a word that observes a completion, and the arrival of a reduction result, is an acquire at the completion's scope when that is
a release (R241). -/
def Exec.con (g : Exec) (i : Nat) : Contribution :=
  let e := g.ev i
  let c := g.own i
  match c.act, e.of_ with
  | .redeem, some f => { g.own f with act := if e.isRead then .read else .redeem }
  | .observe, some d => if (g.ev d).src = .complete then ⟨.observe, (g.own d).rel, false, (g.own d).scope⟩ else c
  | _, _ => c

/-- Whether the event is an RMW: it reads what it writes. -/
def Exec.isRmw (g : Exec) (i : Nat) : Bool :=
  let e := g.ev i
  (match e.src with
    | .element _ => false
    | .swapPage _ => false
    | .aside _ => false
    | .word (.rmov _ _ _ _ _) _ _ => false
    | .word (.tkred _ _ _ _ _) _ _ => false
    | _ => true)
    && e.isRead && e.isWrite

/-- An attempt that does not complete takes part in no synchronisation (R233). -/
def Ev.failed (e : Ev) : Bool :=
  match e.src with
  | .word _ true false => true
  | _ => false

/-! ### Scopes (R216, R217, R430, R431, R448) -/

/-- The die an agent is on, if it is on one (R430). -/
def Ev.die (e : Ev) : Option Nat :=
  match e.agent with
  | .thread _ => some (e.core / 256)
  | .command _ => some (e.core / 256)
  | .swap _ => some (e.core / 256)
  | _ => none

/-- The cluster an agent belongs to: a page swap engine, its commands and the agents outside belong to none (R213). -/
def Exec.inCluster (g : Exec) (e : Ev) : Option Nat :=
  match e.agent with
  | .thread _ => some (e.core / 8)
  | .command n => if ((g.command n).map fun c => decide (1024 ≤ c.engine)) = some true then none else some (e.core / 8)
  | _ => none

/-- The word's home instance is the module whatever the page: a join operation (R431). -/
def Ev.joins (e : Ev) : Bool :=
  match e.src with
  | .word (.spawn _ _ _ _ _ _) _ _ => true
  | .word (.join _ _) _ _ => true
  | .word (.exitCounter _ _) _ _ => true
  | .word (.cancel _ _ _) _ _ => true
  | _ => false

/-- The member and the die whose agents alone are in the home instance: of an access to a page with HOME = 0, the page's home die; a
redemption goes by the fetched location (R209, R431, R432, R448). -/
def Exec.privateDie (g : Exec) (i : Nat) : Option (Nat × Nat) :=
  let e := g.ev i
  let a := match (g.con i).act, e.of_ with
    | .redeem, some f => g.ev f
    | _, _ => e
  if a.home || a.joins then none
  else match a.locs.head? with
    | some (.dram m d _) => some (m, d)
    | some (.full m (some d) _) => some (m, d)
    | _ => none

/-- The instance of event `i` includes the agent of event `j`. DESIGN CHOICE (log entry 105): the launcher belongs to no cluster, so the
completion of a launch at CSCOPE 1 reaches no other agent. -/
def Exec.includes (g : Exec) (i j : Nat) : Bool :=
  let x := g.ev i
  let y := g.ev j
  x.agent == y.agent || (match x.agent, (g.con i).scope with
    | _, 0 => false
    | .host, 1 => false
    | .host, 2 => false
    | _, 1 => (g.inCluster x).isSome && g.inCluster x == g.inCluster y && x.member == y.member
    | _, 2 => y.agent != .host && x.member == y.member && (match g.privateDie i with
      | none => true
      | some (m, d) => x.member == m && x.die == some d && y.die == some d)
    | _, _ => true)

/-- Mutually scoped (R217). -/
def Exec.mutual (g : Exec) (i j : Nat) : Bool := g.includes i j && g.includes j i

/-! ### Relations as rows of bits -/

/-- A relation: row `i` holds the set of events that `i` is related to. -/
abbrev Rel := List Nat

/-- The relation of a test over the events. -/
def relOf (n : Nat) (p : Nat → Nat → Bool) : Rel :=
  (List.range n).map fun i => (List.range n).foldl (fun acc j => if p i j then acc + 2 ^ j else acc) 0

/-- `i` is related to `j`. -/
def relAt (r : Rel) (i j : Nat) : Bool := (r.getD i 0).testBit j

def relUnion (a b : Rel) : Rel := List.zipWith (· ||| ·) a b

/-- One round of the closure through event `k`. -/
def relVia (r : Rel) (k : Nat) : Rel := r.map fun row => if row.testBit k then row ||| r.getD k 0 else row

/-- The transitive closure. -/
def relClosure (r : Rel) : Rel := (List.range r.length).foldl relVia r

/-- No event is related to itself. -/
def acyclic (r : Rel) : Bool := (List.range r.length).all fun i => !(relAt (relClosure r) i i)

/-! ### Program order and the window (R24, R220, R221) -/

/-- Program order: of one thread (R223). -/
def Exec.po (g : Exec) (a b : Nat) : Bool :=
  decide (a < b) && (g.ev a).agent == (g.ev b).agent && (match (g.ev a).agent with
    | .thread _ => true
    | _ => false)

/-- The word has waited for what was before it by R221: not a `cancel` that removes no record with a join address. -/
def Ev.drains (e : Ev) (i : Instr) : Bool :=
  drainsWindow i && (match i with
    | .cancel _ _ _ => e.isWrite
    | _ => true)

/-- A word of a thread as its issue shows it: its number, whether its guard is true, and whether it closes the window. -/
structure Issued where
  pos    : Nat
  instr  : Instr
  ran    : Bool
  drains : Bool
  deriving DecidableEq

/-- The words of a thread; a word of several accesses stands once. -/
def Exec.wordsOf (g : Exec) (a : Agent) : List Issued :=
  (g.evs.filterMap fun e => match e.src with
    | .word i ran _ => if e.agent = a then some ⟨e.pos, i, ran, e.drains i⟩ else none
    | _ => none).eraseDups

/-- The lookahead window while a thread's words issue: open, its count, the LA of a modifier, and the words that have waited. -/
structure WindowState where
  opened : Bool
  count  : Nat
  md     : Option Nat
  waits  : List Nat

/-- One word issues (R24, R221). -/
def windowStep (s : WindowState) (w : Issued) : WindowState :=
  if isHint w.instr then { s with md := (hintLook w.instr).or s.md }
  else if w.ran = false then { s with md := none, count := s.count - 1 }
  else
    let must := (s.opened && s.count == 0) || w.drains
    let opened := s.opened && !must
    let count := if opened then s.count - 1 else 0
    let waits := if must then s.waits ++ [w.pos] else s.waits
    match lookaheadOf w.instr s.md with
    | none => ⟨opened, count, none, waits⟩
    | some l => ⟨true, if opened then min l count else l, none, waits⟩

/-- The words of a thread that waited for everything before them. -/
def Exec.waited (g : Exec) (a : Agent) : List Nat := ((g.wordsOf a).foldl windowStep ⟨false, 0, none, []⟩).waits

/-- The word of an event is long-latency. -/
def Ev.longLatency (e : Ev) : Bool :=
  match e.src with
  | .word i _ _ => (lookaheadOf i none).isSome
  | _ => false

/-- Event `b` is in the window of event `a`, `a` taken as a read or as a write: a long-latency word whose completion nothing has waited
for yet; an acq fence waits for reads (R220). -/
def Exec.inWindow (g : Exec) (asRead : Bool) (a b : Nat) : Bool :=
  let x := g.ev a
  let y := g.ev b
  let between := fun n => decide (x.pos < n) && decide (n ≤ y.pos)
  x.longLatency && x.agent == y.agent && decide (x.pos < y.pos) && !((g.waited x.agent).any between)
    && !(asRead && (g.wordsOf x.agent).any fun w => between w.pos && w.ran && (contributionOf w.instr).act == .fenceAcq)

/-- Locally ordered (R220): `b` is outside the window of `a`, of its write where it has one. -/
def Exec.localOrder (g : Exec) (a b : Nat) : Bool := g.po a b && !(g.inWindow (!((g.ev a).isWrite)) a b)

/-! ### Dependencies (R222 item 6) -/

/-- What holds the result of a read: registers, predicate fields, and whether control has come to depend on it. -/
structure Taint where
  regs    : List Reg
  preds   : List Reg
  control : Bool

/-- A word computes from what is tainted; predicate field 0 is constant. -/
def Taint.hits (t : Taint) (u : Uses) : Bool :=
  t.control || u.srcs.any t.regs.contains || (u.guard.extractLsb' 0 3 :: u.qsrcs).any fun q => q != 0 && t.preds.contains q

/-- What word `i`, number `pos` of a thread, computes from and writes: a `tkred` that writes memory takes gD as an address. -/
def Exec.uses (g : Exec) (a : Agent) (pos : Nat) (i : Instr) : Uses :=
  if g.evs.any fun e => e.agent == a && e.pos == pos && e.src == .aside i && e.isWrite then usesWide i else usesOf i

/-- The word of an event, or the word beside which it stands. -/
def Ev.instr (e : Ev) : Option Instr :=
  match e.src with
  | .word i _ _ => some i
  | .aside i => some i
  | _ => none

/-- One word passes the taint on, or overwrites it. -/
def taintStep (g : Exec) (a : Agent) (t : Taint) (w : Issued) : Taint :=
  let u := g.uses a w.pos w.instr
  let mark := fun (l d : List Reg) =>
    if t.hits u then (l ++ d).eraseDups else if w.ran then l.filter fun r => !(d.contains r) else l
  ⟨mark t.regs u.dsts, mark t.preds u.qdsts, t.control || (u.jump && t.hits u)⟩

/-- The address, data or guard of event `b` is computed from the result of read `a` (R222 item 6). -/
def Exec.depends (g : Exec) (a b : Nat) : Bool :=
  let x := g.ev a
  let y := g.ev b
  match x.src, y.instr with
  | .word i _ _, some j =>
    let u := g.uses x.agent x.pos i
    let between := (g.wordsOf x.agent).filter fun w => decide (x.pos < w.pos) && decide (w.pos < y.pos)
    g.po a b && x.isRead && decide (x.pos < y.pos)
      && (between.foldl (taintStep g x.agent) ⟨u.dsts, u.qdsts, false⟩).hits (g.uses y.agent y.pos j)
  | _, _ => false

/-! ### The relations of R223 -/

/-- Reads-from, at some location. -/
def Exec.rfAt (g : Exec) (w r : Nat) : Bool := g.rf.any fun e => e.1 == w && e.2.1 == r

/-- `a` stands before `b` in a list. -/
def before (l : List Nat) (a b : Nat) : Bool := l.contains a && l.contains b && a != b && decide (l.idxOf a < l.idxOf b)

/-- The coherence order of a location. -/
def Exec.order (g : Exec) (x : Location) : List Nat := ((g.co.find? fun c => c.1 == x).map (·.2)).getD []

/-- Coherence order, at some location. -/
def Exec.coAt (g : Exec) (a b : Nat) : Bool := g.co.any fun e => before e.2 a b

/-- From-reads: `r` reads a write that precedes `w`, at some location. -/
def Exec.frAt (g : Exec) (r w : Nat) : Bool := r != w && g.rf.any fun e => e.2.1 == r && before (g.order e.2.2) e.1 w

/-- An event after which the rest of its thread is ordered as after an acquire read (R222 item 1, R238, R241). -/
def Exec.acquires (g : Exec) (i : Nat) : Bool :=
  let c := g.con i
  c.acq && (c.act == .redeem || c.act == .observe || (g.ev i).isRead)

/-- An event before which the rest of its thread is ordered as before a release write (R222 item 2, R227, R240, R241). -/
def Exec.releases (g : Exec) (i : Nat) : Bool :=
  let c := g.con i
  let e := g.ev i
  (c.rel && c.act != .capture && (e.isWrite || e.src == .complete)) || (c.acq && c.act == .capture)
    || (match e.src with
      | .word (.spawn _ _ _ _ _ _) true true => true
      | .jobDone _ c => c != 0
      | _ => false)

/-- Preserved program order (R222). -/
def Exec.ppo (g : Exec) (a b : Nat) : Bool :=
  let x := g.ev a
  let y := g.ev b
  let ca := (g.con a).act
  let cb := (g.con b).act
  g.po a b &&
    ((g.acquires a && !(g.inWindow true a b))
      || g.releases b
      || cb == .fenceRel || cb == .fenceFull || (cb == .fenceAcq && x.isRead)
      || ca == .fenceAcq || ca == .fenceFull || (ca == .fenceRel && y.isWrite)
      || (x.isRead && y.isWrite && !(g.inWindow true a b))
      || g.depends a b
      || (x.meets y && g.localOrder a b))

/-- The run of RMWs that follows a write in the coherence order of one location. -/
def rmwRun (g : Exec) : List Nat → List Nat
  | [] => []
  | x :: l => if g.isRmw x then x :: rmwRun g l else []

/-- The release sequence of `w` at a location: `w` and the unbroken run of RMWs behind it. -/
def releaseSeq (g : Exec) (w : Nat) (l : List Nat) : List Nat := w :: rmwRun g ((l.dropWhile (· != w)).drop 1)

/-- `r` reads from a member of the release sequence of `w` (R223, R224). -/
def Exec.readsRs (g : Exec) (w r : Nat) : Bool :=
  g.rf.any fun e => e.2.1 == r && (g.order e.2.2).contains w && (releaseSeq g w (g.order e.2.2)).contains e.1

/-- The writes that stand behind a release-side event `x`: itself, or the writes after a fence (R224). -/
def Exec.relWrites (g : Exec) (x : Nat) : List Nat :=
  let c := g.con x
  if c.act = .fenceRel ∨ c.act = .fenceFull then g.ids.filter fun w => g.po x w && (g.ev w).isWrite
  else if c.rel && c.act != .capture && (g.ev x).isWrite then [x]
  else []

/-- The reads that stand before an acquire-side event `y`; an attempt that did not complete is none (R224, R233, R238). -/
def Exec.acqReads (g : Exec) (y : Nat) : List Nat :=
  let c := g.con y
  if c.act = .fenceAcq ∨ c.act = .fenceFull then g.ids.filter fun r => g.po r y && (g.ev r).isRead && !((g.ev r).failed)
  else if c.act = .redeem then (if c.acq then (g.ev y).of_.toList else [])
  else if c.acq && c.act != .capture && (g.ev y).isRead then [y]
  else []

/-- Synchronises-with (R224, R225, R238, R241, R242). The write and the read are of different agents, but of a redemption it is asked only
that the fetch reads from the write. -/
def Exec.sw (g : Exec) (x y : Nat) : Bool :=
  let cx := g.con x
  let cy := g.con y
  g.mutual x y &&
    ((g.relWrites x).any (fun w => (g.acqReads y).any fun r =>
        g.readsRs w r && (cy.act == .redeem || (g.ev w).agent != (g.ev r).agent))
      || (cx.rel && cy.acq && cy.act == .observe && (g.ev y).of_ == some x && (g.ev x).agent != (g.ev y).agent)
      || (cx.act == .fenceFull && cy.act == .fenceFull && before g.fences x y))

/-- A release-side event in the sense of obs (R223, R227). -/
def Exec.obsSide (g : Exec) (y : Nat) : Bool :=
  g.releases y || (g.con y).act == .fenceFull || (g.con y).act == .fenceRel

/-- The job of an event: of its thread or its command. -/
def Exec.jobOf (g : Exec) (i : Nat) : Option Nat :=
  match (g.ev i).agent with
  | .thread n => (g.threads.find? fun t => t.1 == n).map (·.2.job)
  | .command n => (g.command n).map (·.job)
  | _ => none

/-- Event `r` is ordered before release-side event `y` in its thread, or is covered by the completion of its job (R242). -/
def Exec.coveredBy (g : Exec) (r y : Nat) : Bool :=
  g.ppo r y || (match (g.ev y).src with
    | .jobDone j _ => g.jobOf r == some j
    | _ => false)

/-- obs (R223). -/
def Exec.obs (g : Exec) (x y : Nat) : Bool :=
  g.obsSide y && g.ids.any fun r => g.rfAt x r && (g.ev x).agent != (g.ev r).agent && g.coveredBy r y

/-! ### Device edges (R219, R227, R240, R241, R364) -/

/-- The thread's origin comes after event `a` (R227). -/
def Exec.originAfter (g : Exec) (a : Nat) (o : Origin) : Bool :=
  match o with
  | .start => false
  | .spawn e => a == e || g.po a e
  | .launch e => a == e || (decide (a < e) && (match (g.ev a).src, (g.ev e).src with
    | .hostAccess q _ _, .accept q' => q == q' && (g.ev a).isWrite
    | _, _ => false))
  | .trap e => g.po a e
  | .row l => l.contains a

/-- The completion of the second command covers the first, which stands before it at its engine: an `ldrain` those of its tenant and job,
a `chan` the copies on its channel of its tenant (R364, R375). -/
def CommandInfo.covers (c d : CommandInfo) : Bool :=
  c.engine == d.engine && c.tenant == d.tenant && (match d.kind, c.kind with
    | .drain, _ => c.job == d.job
    | .marker h, .copy h' => h == h'
    | _, _ => false)

/-- The accesses of command `m` are covered by the completion of command `n`. -/
def Exec.completesAfter (g : Exec) (m n : Nat) : Bool :=
  m == n || (before (g.commands.map (·.1)) m n && (match g.command m, g.command n with
    | some c, some d => c.covers d
    | _, _ => false))

/-- The edges to an event of a thread: its creation, a resumption, a watermark, a page it waited for, a tile it cleared before (R266), a
PROTECT it called for (R432). -/
def Exec.toThread (g : Exec) (a b : Nat) : Bool :=
  let y := g.ev b
  (g.po a b && (match (g.ev a).src with
    | .aside (.talloc _ _ _ _) => (g.ev a).isWrite
    | .protect _ _ _ _ _ => true
    | _ => false)) ||
  (match y.agent with
    | .thread n => (match g.threads.find? fun t => t.1 == n with
      | some t => g.originAfter a t.2.origin
      | none => false)
    | _ => false)
    || g.resumes.any (fun r => g.po a r.1 && y.agent == (g.ev r.2).agent && decide (r.2 ≤ b))
    || (match y.mark, (g.ev a).agent, (g.ev a).src with
      | some m, .command n, .element off => n == m.1 && (g.ev a).isWrite && decide (off < m.2)
      | _, _, _ => false)
    || (match y.waited, (g.ev a).src with
      | some w, .swapPage _ => a == w
      | _, _ => false)

/-- The edges at a command: from a capture with ACQ = 1 whose scope includes both, to a completion with REL = 1, from a `fin` to the
writes of its row. -/
def Exec.atCommand (g : Exec) (a b : Nat) : Bool :=
  (match (g.ev b).agent, (g.ev b).src with
    | .command n, .element _ => (g.captured n).acq && ((g.command n).map (·.capture)) == some a && g.includes a b
    | .command n, .complete => (g.captured n).rel && (match (g.ev a).agent, (g.ev a).src with
      | .command m, .element _ => g.completesAfter m n
      | _, _ => false)
    | _, _ => false)
    || g.released.any fun f => f.2.contains b && g.po a f.1

/-- The edges to the completion of a job: from its lines' events and its commands' writes (R227, R242). -/
def Exec.toJob (g : Exec) (a b : Nat) : Bool :=
  match (g.ev b).src with
  | .jobDone j _ => g.jobOf a == some j && (match (g.ev a).agent with
    | .command _ => (g.ev a).isWrite
    | _ => true)
  | _ => false

/-- A device edge. -/
def Exec.xeAt (g : Exec) (a b : Nat) : Bool := g.toThread a b || g.atCommand a b || g.toJob a b

/-- Every other event comes after the initial write of a location it touches (R214). -/
def Exec.fromInit (g : Exec) (a b : Nat) : Bool :=
  (g.ev a).agent == .init && (g.ev b).agent != .init && (g.ev a).meets (g.ev b)

/-- Happens-before (R223). -/
def Exec.hb (g : Exec) : Rel :=
  relClosure (relOf g.evs.length fun a b =>
    a != b && (g.ppo a b || g.sw a b || g.obs a b || g.xeAt a b || g.fromInit a b))

/-- Extended coherence order (R223). -/
def Exec.eco (g : Exec) : Rel :=
  relClosure (relOf g.evs.length fun a b => a != b && (g.rfAt a b || g.coAt a b || g.frAt a b))

/-! ### Well-formed executions (R214, R218, R219, R231) -/

/-- What an event touches is what its source does (R218): nothing where the guard is false, and each act its reads and writes; a compare
and swap whose comparison fails is a read, as is a `deq` of an empty queue; a ticket without a fetch falls back. Counters and queues
receive RMWs only (R226). -/
def Exec.shaped (g : Exec) (i : Nat) : Bool :=
  let e := g.ev i
  let r := e.isRead
  let w := e.isWrite
  (e.src == .initial || !(e.writes.any fun v => v.1.rmwOnly) || g.isRmw i) && match e.src with
  | .word _ false _ => !r && !w
  | .word j true false => !w && isWait j
  | .word (.rmov _ _ _ _ _) _ _ => r || w
  | .word (.amoCas _ _ _ _ _ _ _) _ _ => r
  | .word (.deq _ _ _ _ _) _ _ => r
  | .word (.tkld _ _ _ _ _) _ _ => !w
  | .word (.tkred _ _ _ _ _) _ _ => !w
  | .aside j => r != w && hasAside j w
  | .arrival => !r && !w
  | .word (.spawn _ _ _ _ _ _) _ _ => r == w
  | .word (.cancel _ _ _) _ _ => r == w
  | .word j true true => match (contributionOf j).act with
    | .read => r && !w
    | .write => w && !r
    | .rmw => r && w
    | _ => !r && !w
  | .initial => w && !r && e.agent == .init
  | .swapPage _ => w && !r
  | .fetch => r && !w
  | .accept _ => !r && !w
  | .hostObserve => !r && !w
  | .protect _ _ _ _ _ => !r && !w
  | _ => true

/-- An attempt that does not complete is followed by one that does before the thread goes on (R233). -/
def Exec.triesAgain (g : Exec) (i : Nat) : Bool :=
  let e := g.ev i
  !(e.failed) || g.ids.all fun j => !(g.po i j && decide (e.pos < (g.ev j).pos))
    || g.ids.any fun k => g.po i k && (g.ev k).pos == e.pos && !((g.ev k).failed) && decide (k < j)

/-! ### What an event writes (R149, R151, R170 to R172, R177, R178, R247, R266) -/

/-- The bytes among some values as a number, and how many they are. -/
def numOf (v : Vals) : Nat := (v.filter fun e => e.1.isByte).foldr (fun e n => e.2.headD 0 + 256 * n) 0
def bytesIn (v : Vals) : Nat := v.countP fun e => e.1.isByte

/-- The value at the one location of a kind. -/
def oneOf (v : Vals) (p : Location → Bool) : List Nat := ((v.find? fun e => p e.1).map (·.2)).getD []

def Location.isFull : Location → Bool
  | .full _ _ _ => true
  | _ => false
def Location.isCnt : Location → Bool
  | .cnt _ _ => true
  | _ => false
def Location.isExp : Location → Bool
  | .exp _ _ => true
  | _ => false
def Location.isQueue : Location → Bool
  | .queue _ _ _ _ => true
  | _ => false

/-- A wait's condition holds on what it read (R149, R170 to R172). -/
def Ev.holds (e : Ev) (i : Instr) : Bool :=
  let v := numOf e.reads
  let y := e.args.headD 0
  match i with
  | .waitne _ _ _ _ _ _ => v != y % 256 ^ bytesIn e.reads
  | .waiteq _ _ _ _ _ _ => v == y % 256 ^ bytesIn e.reads
  | .ldfe _ _ _ _ _ _ | .ldff _ _ _ _ _ _ => oneOf e.reads Location.isFull == [1]
  | .stf _ _ _ _ _ _ => oneOf e.reads Location.isFull == [0]
  | .mwait _ _ _ _ => decide (((oneOf e.reads Location.isCnt).headD 0 + 2 ^ 32 - y % 2 ^ 32) % 2 ^ 32 < 2 ^ 31)
  | .join _ _ => v == 0
  | _ => true

/-- A counter goes up by `n`. -/
def Ev.adds (e : Ev) (p : Location → Bool) (n : Nat) : Bool :=
  oneOf e.writes p == [((oneOf e.reads p).headD 0 + n) % 2 ^ 32]

/-- What a completed word writes is what it computes from what it read and its operands. -/
def Ev.computes (e : Ev) (i : Instr) : Bool :=
  let old := numOf e.reads
  let new := numOf e.writes
  let n := 8 * max (bytesIn e.reads) (bytesIn e.writes)
  let y := e.args.headD 0 % 2 ^ n
  let c := e.args.getD 1 0 % 2 ^ n
  e.holds i && (match amoOf i with
    | some fn => if fn = 9 ∧ old ≠ c then !(e.isWrite) else e.isWrite && new == (amoNew fn n old y c).1
    | none => match i with
      | .st _ _ _ _ _ _ _ | .stx _ _ _ _ _ _ _ _ | .rfill _ _ _ _ _ => new == y
      | .ste _ _ _ _ _ _ _ => new == y && oneOf e.writes Location.isFull == [0]
      | .stf _ _ _ _ _ _ => new == y && oneOf e.writes Location.isFull == [1]
      | .ldfe _ _ _ _ _ _ => new == old && oneOf e.writes Location.isFull == [0]
      | .rmov _ _ _ _ _ => !(e.isRead && e.isWrite) || new == old
      | .spawn _ _ _ _ _ _ => !(e.isWrite) || new == (old + 1) % 2 ^ 64
      | .exitCounter _ _ => new == (old + (2 ^ 64 - 1)) % 2 ^ 64
      | .cancel _ _ _ => !(e.isWrite) || new == (old + (2 ^ 64 - 1)) % 2 ^ 64
      | .mpost _ _ _ _ => e.adds Location.isCnt (e.args.headD 0)
      | .mexp _ _ _ => e.adds Location.isExp (e.args.headD 0)
      | .enq _ _ _ _ => oneOf e.writes Location.isQueue == oneOf e.reads Location.isQueue ++ [e.args.headD 0]
      | .deq _ _ _ _ _ => match oneOf e.reads Location.isQueue with
        | [] => !(e.isWrite)
        | _ :: rest => e.isWrite && oneOf e.writes Location.isQueue == rest
      | _ => true)

/-- What event `i` writes is what its source writes; an attempt that does not complete finds its condition false (R233). -/
def Exec.valued (g : Exec) (i : Nat) : Bool :=
  let e := g.ev i
  match e.src with
  | .word j true true => e.computes j
  | .word j true false => !(e.holds j)
  | .aside (.talloc _ _ _ _) => e.writes.all fun v => v.2 == [0]
  | .complete => !(e.isWrite) || e.adds Location.isCnt 1
  | .jobDone _ _ => !(e.isWrite) || e.adds Location.isCnt 1
  | _ => true

/-- Each location that an event reads takes its value from one write to it, and has that write's value (R231). -/
def Exec.readsFrom (g : Exec) (r : Nat) : Bool :=
  (g.ev r).reads.all fun v =>
    match g.rf.filter fun e => e.2.1 == r && e.2.2 == v.1 with
    | [e] => e.1 != r && valAt (g.ev e.1).writes v.1 == some v.2
    | _ => false

/-- The writes of a location stand in one order, the initial one first (R214, R223). -/
def Exec.ordered (g : Exec) (x : Location) : Bool :=
  let l := g.order x
  decide l.Nodup && g.ids.all (fun w => (g.ev w).writes? x == l.contains w)
    && (match l with
      | w :: t => (g.ev w).src == .initial && t.all fun v => (g.ev v).src != .initial
      | [] => false)

/-- The write immediately before `w` in a list. -/
def directlyBefore (l : List Nat) (w : Nat) : Option Nat :=
  match l with
  | a :: b :: t => if b = w then some a else directlyBefore (b :: t) w
  | _ => none

/-- A swap that does not recode leaves each byte the value it had (R219). -/
def Exec.swapKeeps (g : Exec) (i : Nat) : Bool :=
  match (g.ev i).src with
  | .swapPage false => (g.ev i).writes.all fun v => match directlyBefore (g.order v.1) i with
    | some p => valAt (g.ev p).writes v.1 == some v.2
    | none => false
  | _ => true

/-- The parts of an execution fit together: events their sources, reads their writes, coherence the writes, the fence order the full
fences. -/
def Exec.wellFormed (g : Exec) : Bool :=
  g.ids.all (fun i => g.shaped i && g.valued i && g.triesAgain i && g.readsFrom i && g.swapKeeps i)
    && g.rf.all (fun e => (g.ev e.2.1).reads? e.2.2)
    && (g.ids.flatMap fun i => (g.ev i).locs).eraseDups.all g.ordered
    && decide g.fences.Nodup && g.ids.all fun i => ((g.con i).act == .fenceFull) == g.fences.contains i

/-! ### The axioms (R215, R225, R228 to R232, R243, R432) -/

/-- R228. -/
def Exec.coherent (g : Exec) : Bool :=
  let hb := g.hb
  let eco := g.eco
  g.ids.all fun x => !(relAt eco x x) && !(relAt hb x x) && g.ids.all fun y => !(relAt hb x y && relAt eco y x)

/-- R229. -/
def Exec.propagates (g : Exec) : Bool :=
  let hb := g.hb
  acyclic (relOf g.evs.length fun a b =>
    a != b && (g.ev a).isWrite && (g.ev b).isWrite && (g.coAt a b || relAt hb a b))

/-- R230. -/
def Exec.atomic (g : Exec) : Bool :=
  g.rf.all fun e => !(g.isRmw e.2.1 && (g.ev e.2.1).writes? e.2.2) || directlyBefore (g.order e.2.2) e.2.1 == some e.1

/-- R231. -/
def Exec.grounded (g : Exec) : Bool := acyclic (relOf g.evs.length fun a b => a != b && (g.ppo a b || g.rfAt a b))

/-- The write at a location of a read, or an earlier one, is `w`. -/
def Exec.sees (g : Exec) (r : Nat) (x : Location) (w : Nat) : Bool :=
  g.rf.any fun e => e.2.1 == r && e.2.2 == x && (e.1 == w || before (g.order x) w e.1)

/-- R215: within each aligned 8-byte part a read sees all that it shares with a write, or none of it. -/
def Exec.singleCopy (g : Exec) : Bool :=
  g.ids.all fun r => g.ids.all fun w => (g.ev w).src == .initial
    || (let shared := ((g.ev r).reads.map (·.1)).filter (g.ev w).writes?
        (shared.map Location.part).eraseDups.all fun p =>
          let xs := shared.filter fun x => x.part == p
          xs.all (fun x => g.sees r x w) || xs.all fun x => !(g.sees r x w))

/-- The total order of full fences agrees with hb (R225). -/
def Exec.fenceOrder (g : Exec) : Bool :=
  let hb := g.hb
  g.fences.all fun a => g.fences.all fun b => !(before g.fences a b && relAt hb b a)

/-- The event is a seal. -/
def Ev.isSeal (e : Ev) : Bool :=
  match e.src with
  | .word (.seal _ _) true true => true
  | _ => false

/-- A seal reads the bytes its page holds when it completes: no write to them comes after, and a fetch of such a byte takes it from the same
write, or faults and is no event (R207, R243). -/
def Exec.sealedCode (g : Exec) : Bool :=
  g.rf.all fun e => !((g.ev e.2.1).isSeal)
    || ((g.order e.2.2).getLast? == some e.1
      && g.rf.all fun f => f.2.2 != e.2.2 || (g.ev f.2.1).src != .fetch || f.1 == e.1)

/-- The PROTECT covers a byte that the event touches. -/
def Ev.covers (p e : Ev) : Bool :=
  match p.src with
  | .protect m d lo n _ => e.locs.any fun
    | .dram m' d' o => m == m' && d == d' && decide (lo ≤ o) && decide (o < lo + n)
    | _ => false
  | _ => false

/-- Two events touch one 64 KiB page of DRAM. -/
def Ev.samePage (a b : Ev) : Bool :=
  a.locs.any fun x => b.locs.any fun y => match x, y with
    | .dram m d o, .dram m' d' o' => m == m' && d == d' && o / 65536 == o' / 65536
    | _, _ => false

/-- The PROTECTs whose HOME bit event `i` may have used are those not after it, and those before it in hb are past. -/
def Exec.protects (g : Exec) (hb : Rel) (i : Nat) : List Nat := g.ids.filter fun p => (g.ev p).covers (g.ev i) && !(relAt hb i p)

/-- An access uses the HOME bit of a PROTECT that no later one hides from it: one of the last before it in hb, or a concurrent one. -/
def Exec.homeGiven (g : Exec) (hb : Rel) (i : Nat) : Bool :=
  let ps := g.protects hb i
  let past := ps.filter fun p => relAt hb p i
  ps.any fun p => !(past.any fun q => relAt hb p q) && (match (g.ev p).src with
    | .protect _ _ _ _ h => h == (g.ev i).home
    | _ => false)

/-- The HOME bits of all accesses: with a PROTECT before it, an access uses what a PROTECT gave; without one it may use the bit that the
page had at first, which is one for all accesses of the page (R432). -/
def Exec.homeBits (g : Exec) : Bool :=
  let hb := g.hb
  let first := g.ids.filter fun i => !(g.homeGiven hb i)
  first.all fun i => (g.protects hb i).all (fun p => !(relAt hb p i))
    && first.all fun j => !((g.ev i).samePage (g.ev j)) || (g.ev i).home == (g.ev j).home

/-- The execution is allowed (R232). -/
def Exec.allowed (g : Exec) : Bool :=
  g.wellFormed && g.coherent && g.propagates && g.atomic && g.grounded && g.singleCopy && g.fenceOrder && g.sealedCode && g.homeBits

/-! ### Races (R244) -/

/-- An RMW or a synchronising operation of R218. -/
def Exec.syncs (g : Exec) (i : Nat) : Bool :=
  let c := g.con i
  g.isRmw i || ((c.acq || c.rel) && decide (0 < c.scope))

/-- Two events touch a common location that at least one of them writes. -/
def Ev.conflicts (e f : Ev) : Bool := e.locs.any fun x => f.locs.contains x && (e.writes? x || f.writes? x)

/-- Two events race (R244). -/
def Exec.race (g : Exec) (x y : Nat) : Bool :=
  let e := g.ev x
  let f := g.ev y
  e.agent != f.agent && e.agent != .init && f.agent != .init && e.conflicts f
    && !(relAt g.hb x y) && !(relAt g.hb y x) && !(g.syncs x && g.syncs y && g.mutual x y)

/-- Some two events of the execution race. -/
def Exec.racy (g : Exec) : Bool := g.ids.any fun x => g.ids.any fun y => g.race x y

/-! ### The accesses of the machine as events (R209, R214, R431, R432) -/

/-- The location of a byte of member `m`, whose state is `s`. -/
def byteLocation (s : State) (m k : Nat) : Location :=
  if k < windowBase then .dram m ((homeDie s k).getD (k / 2 ^ 38)) (k % 2 ^ 38) else .window m k

/-- The `n` bytes of member `m` from key `k` up, with their values. -/
def byteVals (s : State) (m k n : Nat) : Vals :=
  (List.range n).map fun i => (byteLocation s m (k + i), [(byteAt (k + i) s.memory.bytes).toNat])

/-- The HOME bit that an access of tenant `t` at `va` takes from its leaf entry; beside the pages the home instance is the module. -/
def homeBit (s : State) (t va : Nat) : Bool :=
  match regionOf va with
  | .paged => match walkTable (getTenant s t) va with
    | some (_, w) => leafHome w
    | none => true
  | _ => true

/-- The event of word `i` with these operands, number `pos` of line `x` of thread `n` in state `s`, that accesses `size` bytes at `va`:
those of member `m` from key `k` up, where the access changes the state of that member from `o` to `o'`. For an access to the module's own
memory `o` is `s`. -/
def accessEvent (s o o' : State) (m : Nat) (x : LiveLine) (n pos core : Nat) (i : Instr) (args : List Nat) (va k size : Nat) (r w : Bool) :
    Ev where
  agent := .thread n
  src := .word i true true
  pos := pos
  core := core
  member := vmodOf s x.tenant x.line.job.toNat
  home := homeBit s x.tenant va
  reads := if r then byteVals o m k size else []
  writes := if w then byteVals o' m k size else []
  of_ := none
  mark := none
  waited := none
  args := args

end Sys2Proof.Machine
end

