-- ==== Sys2Proof/Safety.lean ====
section
/-! DEFINITION. Safety.lean: the terms in which claims are stated: a word that may issue, the state after a word that is done, a run
that never stops, the canonical memory, and what one instruction may leave changed. -/

namespace Sys2Proof.Machine

/-- The issuing line `t` may issue a word with this header (R47): its level suffices, its guard is true, no register the word names
is pending, and no drain is awaited. -/
def Ready (h : Hdr) (s : State) (t : LiveLine) : Prop :=
  s.thr = some t ∧ h.level ≤ t.line.tlvl.toNat ∧ guardTrue t.line h.guard = true ∧ firstPending t.line h.named = none
    ∧ mustDrain s h t = false

/-- The line as a word of this header finds it: its issue counted in the lookahead window, its extension taken (R24, R62). -/
def counted (h : Hdr) (t : LiveLine) : Line := (issueCtx h t).t.line

/-- The lowest trap level at which a word may issue (R416, R413). -/
def wordLevel (i : Instr) : Nat :=
  match i with
  | .csrr _ _ n => csrLevel n.toNat
  | .csrw _ _ n => csrLevel n.toNat
  | .rft _ _ _ | .cevict _ _ | .cclaim _ _ _ | .cpark _ _ _ | .seal _ _ | .caprev _ => 1
  | .gsw _ _ _ _ | .tlbinv _ _ _ | .halt _ _ _ | .transit _ _ => 2
  | _ => 0

/-- A word is done: the line's content is `l` and PC stands past the word. -/
def done (s : State) (t : LiveLine) (l : Line) : State := afterIssue s { t with await := stillAwaits t, line := l } (wordPc t + 4)

/-- The same with control at `pc`. -/
def doneAt (s : State) (t : LiveLine) (l : Line) (pc : BitVec 48) : State := afterIssue s { t with await := stillAwaits t, line := l } pc

/-- The state in which trap `e` of line `t` has been taken (R46, R396). -/
def trapped (s : State) (t : LiveLine) (e : Trap) : State :=
  { (takeTrap s t e (coreOfPlace t.place)).1 with thr := some (takeTrap s t e (coreOfPlace t.place)).2 }

/-- The state in which line `t` waits with a tag at its own word (R157). -/
def waiting (s : State) (t : LiveLine) (tag : Word) : State := { s with thr := some (waitLine t tag) }

/-- The state in which line `t` waits at its own word for its earlier instructions (R32). -/
def draining (s : State) (t : LiveLine) (d : Drain) : State := { s with thr := some (drainLine t d) }

/-- No earlier access of line `t` stands out: its stores are performed and its reads too (R162, R227). -/
def AccessesDone (s : State) (t : LiveLine) : Prop := t.stores = 0 ∧ readsDone s t.tenant t.addr = true

/-- On whose behalf the accesses of line `t` are made, and through which TLBs (R206, R410). -/
def whoOf (t : LiveLine) : Who :=
  ⟨t.line.tenant.toNat, t.line.job.toNat, t.line.tlvl.toNat, .core (coreOfPlace t.place)⟩

/-- The bytes at `va` of a size in whole words are plain memory from key `key` up that the issuing line may read now: aligned, located
by the checks of R206, on a die that serves them, held back by no copy, without a memory error (R206, R340, R404, R440). -/
def Readable (s : State) (t : LiveLine) (va size key : Nat) : Prop :=
  va % size = 0 ∧ va < 2 ^ 56 ∧ locate s (whoOf t) .load va 0 = .ok (.cell key)
    ∧ ∀ i, 8 * i < size → locHeld s (.cell (key + 8 * i)) = false ∧ readHeld s (.cell (key + 8 * i)) 8 = false
      ∧ poisoned s.memory (key + 8 * i) 8 = false

/-- The ports of virtual die `die` serve an engine instruction now (R440, R444). -/
def Serves (s : State) (die : Nat) : Prop := (getDie s die).state < 2 ∧ dieHeld s die = false

/-- A command that its guard holds at its cluster, outside the queue: a guarded swap command (R390). -/
def outsideQueue (q : Capture) : Bool := decide (1024 ≤ q.eng) && q.form.x == 1

/-- The command of an engine instruction may enter now: its die serves it, the guard slot it names is the tenant's, a release-side
capture finds the earlier accesses performed, and the queue and the job table have an entry for it (R240, R305, R311, R354). -/
def Enters (s : State) (t : LiveLine) (die : Nat) (q : Capture) : Prop :=
  Serves s die ∧ guardFree s t.line.tenant.toNat q.gcl q.form = false
    ∧ (q.form.aq = 1 → (q.eng < 1024 ∧ q.eng % 4 = 3) ∨ AccessesDone s t)
    ∧ ringFree (granting s q.eng) = true
    ∧ (outsideQueue q = true ∨ mayTake s q.eng (requester (coreOfPlace t.place) q.eng q.answered) = true)

/-- What a completed engine instruction leaves: its command last in the queue (a guarded swap command last of those held), its job new
and queued in an entry that was free, the job number with its tag in gD, the result register pending. Every other entry of the job table
is as before, and so is every other requester's claim on the queue: a reservation, or the entry granted for it. Nothing else has changed
(R305, R306, R310, R311, R354, R390). -/
def Captures (o : Host.Outcome State Fault Refusal) (s : State) (h : Hdr) (t : LiveLine) (q : Capture) : Prop :=
  let e := getEngine s q.eng
  ∃ e' n cmd, o = .next (afterIssue (setEngine s q.eng e')
      (issueScale q { t with
        await := stillAwaits t, line := captureLine (counted h t) q.d (jobWord q.eng n e.seq t.line.tenant.toNat) q.res })
      (wordPc t + 4))
    ∧ entryFree e n = true ∧ n < 512
    ∧ cmd = ⟨n, t.line.tenant.toNat, t.line.job.toNat, t.line.prio, t.line.tlvl.toNat, t.addr,
        guardOf s q.gcl q.form, q.form.aq == 1, q.form.r == 1, q.form.scope, q.op, q.res.map (·.1), q.post, 0, [], 0, none⟩
    ∧ (e'.queue, e'.held) = (if outsideQueue q then (e.queue, e.held ++ [cmd]) else (e.queue ++ [cmd], e.held))
    ∧ e'.running = e.running ∧ e'.parked = e.parked ∧ e'.seq = e.seq + 1
    ∧ tabFind n e'.jobs = some ⟨e.seq, t.line.tenant.toNat, t.line.job.toNat, 0, 0, false, false, 0, 0, false⟩
    ∧ (∀ m, m ≠ n → tabFind m e'.jobs = tabFind m e.jobs)
    ∧ ∀ k, k ≠ requester (coreOfPlace t.place) q.eng q.answered →
      (k ∈ e'.reserve ∨ k ∈ e'.grants ↔ k ∈ e.reserve ∨ k ∈ e.grants)

/-- Command `c` runs at an engine that may work on it now, meets no failure, and has its job in the table (R313, R315). -/
def Works (s : State) (eng : Nat) (c : Cmd) : Prop :=
  runningCmd s eng c.entry = some c ∧ mayWork s eng c = true ∧ cmdFault s eng c = none
    ∧ (tabFind c.entry (getEngine s eng).jobs).isSome = true

/-- Command `c` of an engine has ended in job state `k`: it stands in no list of the engine, and its job keeps its number (R311, R313). -/
def Ended (s s' : State) (eng : Nat) (c : Cmd) (k : Nat) : Prop :=
  let e := getEngine s' eng
  (∀ x ∈ e.queue ++ e.running ++ e.parked ++ e.held, x.entry ≠ c.entry)
    ∧ ∃ j j', tabFind c.entry (getEngine s eng).jobs = some j ∧ tabFind c.entry e.jobs = some j' ∧ j'.state = k ∧ j'.seq = j.seq

/-- A command at work completes as done, with `p` of the state it leaves (R313, R316). -/
def Completes (s : State) (eng : Nat) (c : Cmd) (p : State → Prop) : Prop :=
  ∃ s', exec (.commandCompletion eng c.entry) s = .next s' ∧ Ended s s' eng c 4 ∧ p s'

/-- The number that a finite value is (R282, R283). -/
def ratOf : Fv → Option ℚ
  | .zero _ => some 0
  | .fin neg m e => some ((if neg then -1 else 1) * (m : ℚ) * (2 : ℚ) ^ e)
  | _ => none

/-- A run is safe when it never stops: neither fault nor refusal. -/
def Safe (s : State) : Prop := ∀ n, ∃ s', Sys2Proof.core.run n s = .next s'

/-- The memory is in canonical form, and so is the memory of the module checkpoint, if there is one. -/
def Canonical (s : State) : Prop := memWf s.memory = true ∧ ∀ m, s.moduleCkpt = some m → memWf m.memory = true

/-- Nothing but the issuing line and its core's issue record has changed. -/
def OnlyLine (s s' : State) : Prop :=
  s' = { s with thr := s'.thr, cores := s'.cores }
    ∧ ∀ c, { getCore s' c with lastSlot := (getCore s c).lastSlot, issued := (getCore s c).issued } = getCore s c

/-- Every general register but `d`, with its tag, is as before. -/
def OtherRegs (d : Reg) (l l' : Line) : Prop := ∀ r, r ≠ d → getG l' r = getG l r ∧ getTag l' r = getTag l r

/-- Every predicate field but `d` is as before. -/
def OtherPreds (d : Reg) (l l' : Line) : Prop := ∀ r, r ≠ d → getQ l' r = getQ l r

/-- The words of a line that no ordinary word writes: mode, level, identity, counts and what traps leave. -/
def SameIdentity (l l' : Line) : Prop :=
  l'.rmode = l.rmode ∧ l'.tlvl = l.tlvl ∧ l'.tfb = l.tfb ∧ l'.fen = l.fen ∧ l'.tenant = l.tenant ∧ l'.job = l.job
    ∧ l'.prio = l.prio ∧ l'.sdom = l.sdom ∧ l'.hnd = l.hnd ∧ l'.fin = l.fin ∧ l'.root = l.root ∧ l'.lver = l.lver
    ∧ l'.hwin = l.hwin ∧ l'.fcode = l.fcode ∧ l'.tdata = l.tdata

/-- The byte that a read of key `k` finds. -/
def byteOf (s : State) (k : Nat) : Byte := byteAt k s.memory.bytes

end Sys2Proof.Machine
end

