-- ==== Sys2Proof/Certificates/Slice0/Obligations.lean ====
section
/-! DEFINITION. Certificates/Slice0/Obligations.lean: the statements for the provers, each a proposition about the machine.
Every docstring names the rules a statement formalises; a clause that rests on a choice of the model names its log entry. -/

section

open Sys2Proof Sys2Proof.Machine

/-- add, sub, mul and shl under RULE 0, 1 and 2 give the exact value reduced by R100 (R98, R100). -/
def Obligations.integer_ruled_results : Prop :=
  ∀ (g : BitVec 4) (d a b : Reg) (w : BitVec 2) (s : State) (t : LiveLine),
    Ready (hdr g [d, a, b]) s t → getTag t.line a = 0 → getTag t.line b = 0 →
    let n := widthBits w
    let x : BitVec n := (getG t.line a).setWidth n
    let y : BitVec n := (getG t.line b).setWidth n
    let k := (getG t.line b).toNat
    let gives := fun (v : Word) =>
      (Host.Outcome.next (done s t (setG (counted (hdr g [d, a, b]) t) d v 0)) : Host.Outcome State Fault Refusal)
    let clampS := fun (v : Int) => BitVec.ofInt 64 (max (-(2 : Int) ^ (n - 1)) (min ((2 : Int) ^ (n - 1) - 1) v))
    let clampU := fun (v : Int) => BitVec.ofInt 64 (max 0 (min ((2 : Int) ^ n - 1) v))
    exec (.add g d a b w 0) s = gives ((x + y).signExtend 64)
      ∧ exec (.add g d a b w 1) s = gives (clampS (x.toInt + y.toInt))
      ∧ exec (.add g d a b w 2) s = gives (clampU ((x.toNat : Int) + y.toNat))
      ∧ exec (.sub g d a b w 0) s = gives ((x - y).signExtend 64)
      ∧ exec (.sub g d a b w 1) s = gives (clampS (x.toInt - y.toInt))
      ∧ exec (.sub g d a b w 2) s = gives (clampU ((x.toNat : Int) - y.toNat))
      ∧ exec (.mul g d a b w 0) s = gives ((x * y).signExtend 64)
      ∧ exec (.mul g d a b w 1) s = gives (clampS (x.toInt * y.toInt))
      ∧ exec (.mul g d a b w 2) s = gives (clampU ((x.toNat : Int) * y.toNat))
      ∧ exec (.shl g d a b w 0) s = gives ((x <<< k).signExtend 64)
      ∧ exec (.shl g d a b w 1) s = gives (clampS (x.toInt * 2 ^ k))
      ∧ exec (.shl g d a b w 2) s = gives (clampU ((x.toNat : Int) * 2 ^ k))

/-- The other two-register integer functions give the values of R98 at the width (R98, R100). -/
def Obligations.integer_binary_results : Prop :=
  ∀ (g : BitVec 4) (d a b : Reg) (w : BitVec 2) (s : State) (t : LiveLine),
    Ready (hdr g [d, a, b]) s t → getTag t.line a = 0 → getTag t.line b = 0 →
    let n := widthBits w
    let x : BitVec n := (getG t.line a).setWidth n
    let y : BitVec n := (getG t.line b).setWidth n
    let k := (getG t.line b).toNat
    let gives := fun (v : Word) =>
      (Host.Outcome.next (done s t (setG (counted (hdr g [d, a, b]) t) d v 0)) : Host.Outcome State Fault Refusal)
    exec (.and g d a b w) s = gives ((x &&& y).signExtend 64)
      ∧ exec (.or g d a b w) s = gives ((x ||| y).signExtend 64)
      ∧ exec (.xor g d a b w) s = gives ((x ^^^ y).signExtend 64)
      ∧ exec (.andn g d a b w) s = gives ((x &&& ~~~y).signExtend 64)
      ∧ exec (.orn g d a b w) s = gives ((x ||| ~~~y).signExtend 64)
      ∧ exec (.xnor g d a b w) s = gives ((~~~(x ^^^ y)).signExtend 64)
      ∧ exec (.shr g d a b w) s = gives ((x >>> k).setWidth 64)
      ∧ exec (.sar g d a b w) s = gives ((x.sshiftRight k).signExtend 64)
      ∧ exec (.rol g d a b w) s = gives ((x.rotateLeft (k % n)).signExtend 64)
      ∧ exec (.ror g d a b w) s = gives ((x.rotateRight (k % n)).signExtend 64)
      ∧ exec (.min g d a b w) s = gives ((if x.slt y then x else y).signExtend 64)
      ∧ exec (.max g d a b w) s = gives ((if x.slt y then y else x).signExtend 64)
      ∧ exec (.minb g d a b w) s = gives ((if x.ult y then x else y).setWidth 64)
      ∧ exec (.maxb g d a b w) s = gives ((if x.ult y then y else x).setWidth 64)
      ∧ exec (.mulh g d a b w) s = gives (BitVec.ofInt 64 (x.toInt * y.toInt / 2 ^ n))
      ∧ exec (.mulhb g d a b w) s = gives (BitVec.ofNat 64 (x.toNat * y.toNat / 2 ^ n))

/-- Division never traps: the results of div, rem, divb and remb for every divisor, and abs and neg of the least value (R99). -/
def Obligations.division_never_traps : Prop :=
  ∀ (g : BitVec 4) (d a b : Reg) (w : BitVec 2) (s : State) (t : LiveLine), getTag t.line a = 0 →
    let n := widthBits w
    let x : BitVec n := (getG t.line a).setWidth n
    let y : BitVec n := (getG t.line b).setWidth n
    (Ready (hdr g [d, a, b]) s t → getTag t.line b = 0 →
      let gives := fun (v : Word) =>
        (Host.Outcome.next (done s t (setG (counted (hdr g [d, a, b]) t) d v 0)) : Host.Outcome State Fault Refusal)
      (y = 0 → exec (.div g d a b w) s = gives (-1) ∧ exec (.rem g d a b w) s = gives (x.signExtend 64)
        ∧ exec (.divb g d a b w) s = gives (BitVec.ofNat 64 (2 ^ n - 1))
        ∧ exec (.remb g d a b w) s = gives (x.setWidth 64))
      ∧ (x = BitVec.intMin n → y = -1 → exec (.div g d a b w) s = gives (x.signExtend 64)
        ∧ exec (.rem g d a b w) s = gives 0)
      ∧ (y ≠ 0 → exec (.div g d a b w) s = gives ((x.sdiv y).signExtend 64)
        ∧ exec (.rem g d a b w) s = gives ((x.srem y).signExtend 64)
        ∧ exec (.divb g d a b w) s = gives ((x.udiv y).setWidth 64)
        ∧ exec (.remb g d a b w) s = gives ((x.umod y).setWidth 64)))
    ∧ (Ready (hdr g [d, a]) s t → x = BitVec.intMin n →
      let gives := fun (v : Word) =>
        (Host.Outcome.next (done s t (setG (counted (hdr g [d, a]) t) d v 0)) : Host.Outcome State Fault Refusal)
      exec (.abs g d a w 0) s = gives (x.signExtend 64) ∧ exec (.neg g d a w 0) s = gives (x.signExtend 64)
        ∧ exec (.abs g d a w 1) s = gives ((BitVec.intMax n).setWidth 64)
        ∧ exec (.neg g d a w 1) s = gives ((BitVec.intMax n).setWidth 64))

/-- The one-register integer functions, and mov, give the values of R98 and R100 (R98, R100). -/
def Obligations.integer_unary_results : Prop :=
  ∀ (g : BitVec 4) (d a : Reg) (w : BitVec 2) (s : State) (t : LiveLine), Ready (hdr g [d, a]) s t →
    let n := widthBits w
    let x : BitVec n := (getG t.line a).setWidth n
    let gives := fun (v : Word) =>
      (Host.Outcome.next (done s t (setG (counted (hdr g [d, a]) t) d v 0)) : Host.Outcome State Fault Refusal)
    exec (.mov g d a) s = .next (done s t (setG (counted (hdr g [d, a]) t) d (getG t.line a) (getTag t.line a)))
      ∧ (getTag t.line a = 0 →
        exec (.neg g d a w 0) s = gives ((-x).signExtend 64)
          ∧ (x ≠ BitVec.intMin n → exec (.neg g d a w 1) s = gives ((-x).signExtend 64))
          ∧ exec (.abs g d a w 0) s = gives (x.abs.signExtend 64)
          ∧ (x ≠ BitVec.intMin n → exec (.abs g d a w 1) s = gives (x.abs.signExtend 64))
          ∧ exec (.sext g d a w) s = gives (x.signExtend 64)
          ∧ (∃ k, k ≤ n ∧ exec (.clz g d a w) s = gives (BitVec.ofNat 64 k) ∧ (∀ i, n - k ≤ i → x.getLsbD i = false)
            ∧ (k < n → x.getLsbD (n - 1 - k) = true))
          ∧ (∃ k, k ≤ n ∧ exec (.ctz g d a w) s = gives (BitVec.ofNat 64 k) ∧ (∀ i, i < k → x.getLsbD i = false)
            ∧ (k < n → x.getLsbD k = true))
          ∧ exec (.popc g d a w) s = gives (BitVec.ofNat 64 ((List.range n).countP fun i => x.getLsbD i))
          ∧ (∃ v : Word, exec (.bswap g d a w) s = gives v ∧ v.toNat < 2 ^ n
            ∧ ∀ j, j < n / 8 → v.extractLsb' (8 * j) 8 = x.extractLsb' (n - 8 - 8 * j) 8))

/-- The immediate, shift-by-immediate and bit-field operations give the values of R102 and R103 (R102, R103, R61). -/
def Obligations.immediate_results : Prop :=
  ∀ (g : BitVec 4) (d a p : Reg) (imm : BitVec 16) (w : BitVec 2) (k pos len : BitVec 6) (s : State) (t : LiveLine),
    let n := widthBits w
    let x : BitVec n := (getG t.line a).setWidth n
    let whole := getG t.line a
    let old := getG t.line d
    let m := len.toNat + 1
    (Ready (hdr g [d, a]) s t → getTag t.line a = 0 →
      let ext := fun (signed : Bool) => extField (issueCtx (hdr g [d, a]) t) imm.toNat 16 signed
      let gives := fun (v : Word) =>
        (Host.Outcome.next (done s t (setG (counted (hdr g [d, a]) t) d v 0)) : Host.Outcome State Fault Refusal)
      exec (.addi g d a imm) s = gives (whole + ext true)
        ∧ exec (.andi g d a imm) s = gives (whole &&& ext false)
        ∧ exec (.ori g d a imm) s = gives (whole ||| ext false)
        ∧ exec (.xori g d a imm) s = gives (whole ^^^ ext false)
        ∧ exec (.shli g d a w k) s = gives ((x <<< k.toNat).signExtend 64)
        ∧ exec (.shri g d a w k) s = gives ((x >>> k.toNat).setWidth 64)
        ∧ exec (.sari g d a w k) s = gives ((x.sshiftRight k.toNat).signExtend 64)
        ∧ exec (.roli g d a w k) s = gives ((x.rotateLeft (k.toNat % n)).signExtend 64)
        ∧ (pos.toNat + m ≤ 64 →
          exec (.bext g d a pos len) s = gives ((whole.extractLsb' pos.toNat m).signExtend 64)
            ∧ exec (.bextb g d a pos len) s = gives ((whole.extractLsb' pos.toNat m).setWidth 64)))
    ∧ (Ready (hdr g [d]) s t →
      let gives := fun (v : Word) =>
        (Host.Outcome.next (done s t (setG (counted (hdr g [d]) t) d v 0)) : Host.Outcome State Fault Refusal)
      exec (.movi g d imm) s = gives (extField (issueCtx (hdr g [d]) t) imm.toNat 16 true)
        ∧ (p.toNat < 4 → getTag t.line d = 0 →
          ∃ v : Word, exec (.movh g d p imm) s = gives v ∧ v.extractLsb' (16 * p.toNat) 16 = imm
            ∧ ∀ i, i / 16 ≠ p.toNat → v.getLsbD i = old.getLsbD i))
    ∧ (Ready (hdr g [d, a, d]) s t → getTag t.line a = 0 → getTag t.line d = 0 → pos.toNat + m ≤ 64 →
      ∃ v : Word, exec (.bins g d a pos len) s = .next (done s t (setG (counted (hdr g [d, a, d]) t) d v 0))
        ∧ ∀ i, i < 64 → v.getLsbD i
          = (if pos.toNat ≤ i ∧ i < pos.toNat + m then whole.getLsbD (i - pos.toNat) else old.getLsbD i))

/-- A hint extension makes an immediate field 24 or 48 bits wider, extended as one field (R60, R61, R62). -/
def Obligations.extended_immediates : Prop :=
  ∀ (c : Ctx) (w : Nat) (f : BitVec w), 0 < w →
    (c.hcnt = 0 → extField c f.toNat w true = f.signExtend 64 ∧ extField c f.toNat w false = f.setWidth 64)
      ∧ (c.hcnt = 1 → extField c f.toNat w true = (c.hpay.extractLsb' 0 24 ++ f).signExtend 64
        ∧ extField c f.toNat w false = (c.hpay.extractLsb' 0 24 ++ f).setWidth 64)
      ∧ (c.hcnt = 2 → extField c f.toNat w true = (c.hpay ++ f).signExtend 64
        ∧ extField c f.toNat w false = (c.hpay ++ f).setWidth 64)

/-- cmp and cmpi write their predicate field by R104 and R15, and nothing else (R104, R15, R13, R50). -/
def Obligations.compare_results : Prop :=
  ∀ (g : BitVec 4) (d a b : Reg) (c : BitVec 5) (ci : BitVec 4) (imm : BitVec 12) (w : BitVec 2) (s : State)
      (t : LiveLine),
    let n := widthBits w
    let conds := fun (m : Nat) (x y : BitVec m) =>
      [x == y, x != y, x.slt y, x.sle y, y.slt x, y.sle x, x.ult y, x.ule y, y.ult x, y.ule x, (x &&& y) != 0, (x &&& y) == 0]
    let lane := fun (v : Word) (j : Nat) => v.extractLsb' (n * j) n
    (Ready (hdr g [a, b]) s t →
      let l := counted (hdr g [a, b]) t
      (getTag t.line a = 0 → getTag t.line b = 0 →
        ∀ p, (conds n ((getG t.line a).setWidth n) ((getG t.line b).setWidth n))[c.toNat]? = some p →
          exec (.cmp g d a b c w 0) s = .next (done s t (setQ l d (if p then 0xFF else 0))))
      ∧ (w ≠ 0 → getTag t.line a = laneTag w → getTag t.line b = laneTag w → c.toNat < 12 →
        ∃ v : Byte, exec (.cmp g d a b c w 1) s = .next (done s t (setQ l d v))
          ∧ ∀ j, j < 8 → some (v.getLsbD j) = (if 2 ^ w.toNat ≤ j then some false
            else if (laneMask t.line g).getLsbD j then (conds n (lane (getG t.line a) j) (lane (getG t.line b) j))[c.toNat]?
            else some ((getQ t.line d).getLsbD j))))
    ∧ (Ready (hdr g [a]) s t → getTag t.line a = 0 →
      let y := extField (issueCtx (hdr g [a]) t) imm.toNat 12 (decide (ci.toNat < 6 ∨ 9 < ci.toNat))
      ∀ p, (conds 64 (getG t.line a) y)[ci.toNat]? = some p →
        exec (.cmpi g d a ci imm) s = .next (done s t (setQ (counted (hdr g [a]) t) d (if p then 0xFF else 0))))

/-- The predicate operations have the effects of R105 on all 8 bits (R105). -/
def Obligations.predicate_results : Prop :=
  ∀ (g : BitVec 4) (d a b : Reg) (imm : BitVec 8) (w : BitVec 2) (s : State) (t : LiveLine),
    let qa := getQ t.line a
    let qb := getQ t.line b
    let low := (List.range (2 ^ w.toNat)).map fun i => qa.getLsbD i
    let after := fun (v : Byte) (l : Line) =>
      (∀ r, getQ l r = if r ≠ 0 ∧ r = d then v else getQ t.line r) ∧ l.g = t.line.g ∧ l.tag = t.line.tag
    let gives := fun (i : Instr) (v : Byte) => ∃ l, exec i s = .next (done s t l) ∧ after v l
    (Ready (hdr g []) s t →
      gives (.qand g d a b) (qa &&& qb) ∧ gives (.qor g d a b) (qa ||| qb) ∧ gives (.qxor g d a b) (qa ^^^ qb)
        ∧ gives (.qnot g d a) (~~~qa) ∧ gives (.qmov g d a) qa ∧ gives (.qset g d imm) imm
        ∧ gives (.qany g d a w) (if low.contains true then 0xFF else 0)
        ∧ gives (.qall g d a w) (if low.contains false then 0 else 0xFF)
        ∧ gives (.qtog g d imm) (getQ t.line d ^^^ imm))
    ∧ (Ready (hdr g [a]) s t → getTag t.line a = 0 → gives (.gtoq g d a) ((getG t.line a).extractLsb' 0 8))

/-- The lanewise short-vector operations act on each enabled lane by itself and keep the disabled ones (R106, R14, R40). Where a clause goes past the words of the rules it is the choice of the model: log entry 77. -/
def Obligations.lane_results : Prop :=
  ∀ (g : BitVec 4) (d a b ss : Reg) (w : BitVec 2) (s : State) (t : LiveLine),
    Ready (hdr g [d, a, b]) s t → getTag t.line a = laneTag w → w ≠ 0 →
    let n := widthBits w
    let lane := fun (r : Reg) (j : Nat) => (getG t.line r).extractLsb' (n * j) n
    let clampS := fun (v : Int) => BitVec.ofInt n (max (-(2 : Int) ^ (n - 1)) (min ((2 : Int) ^ (n - 1) - 1) v))
    let clampU := fun (v : Int) => BitVec.ofInt n (max 0 (min ((2 : Int) ^ n - 1) v))
    let gives := fun (i : Instr) (f : Nat → BitVec n) => ∃ v : Word,
      exec i s = .next (done s t (setG (counted (hdr g [d, a, b]) t) d v (laneTag w)))
        ∧ ∀ j, j < 2 ^ w.toNat → v.extractLsb' (n * j) n = if (laneMask t.line g).getLsbD j then f j else lane d j
    (getTag t.line b = laneTag w →
      gives (.vadd g d a b w) (fun j => lane a j + lane b j)
        ∧ gives (.vsub g d a b w) (fun j => lane a j - lane b j)
        ∧ gives (.vadds g d a b w 0) (fun j => clampS ((lane a j).toInt + (lane b j).toInt))
        ∧ gives (.vadds g d a b w 1) (fun j => clampU (((lane a j).toNat : Int) + (lane b j).toNat))
        ∧ gives (.vsubs g d a b w 0) (fun j => clampS ((lane a j).toInt - (lane b j).toInt))
        ∧ gives (.vsubs g d a b w 1) (fun j => clampU (((lane a j).toNat : Int) - (lane b j).toNat))
        ∧ gives (.vmul g d a b w 0) (fun j => clampS ((lane a j).toInt * (lane b j).toInt))
        ∧ gives (.vmul g d a b w 1) (fun j => clampU (((lane a j).toNat : Int) * (lane b j).toNat))
        ∧ gives (.vmin g d a b w 0) (fun j => if (lane a j).sle (lane b j) then lane a j else lane b j)
        ∧ gives (.vmin g d a b w 1) (fun j => if (lane a j).ule (lane b j) then lane a j else lane b j)
        ∧ gives (.vmax g d a b w 0) (fun j => if (lane a j).sle (lane b j) then lane b j else lane a j)
        ∧ gives (.vmax g d a b w 1) (fun j => if (lane a j).ule (lane b j) then lane b j else lane a j)
        ∧ gives (.vavg g d a b w 0) (fun j => BitVec.ofInt n (((lane a j).toInt + (lane b j).toInt + 1) / 2))
        ∧ gives (.vavg g d a b w 1) (fun j => BitVec.ofNat n (((lane a j).toNat + (lane b j).toNat + 1) / 2))
        ∧ gives (.vshl g d a b w) (fun j => lane a j <<< (lane b j).toNat)
        ∧ gives (.vshr g d a b w) (fun j => lane a j >>> (lane b j).toNat)
        ∧ gives (.vsar g d a b w) (fun j => (lane a j).sshiftRight (lane b j).toNat)
        ∧ gives (.vsel g d a b w ss) (fun j => if (getQ t.line ss).getLsbD j then lane a j else lane b j))
    ∧ (getTag t.line b = 0 →
      gives (.vshuf g d a b w) (fun j =>
        let k := ((getG t.line b).extractLsb' (4 * j) 4).toNat
        if k < 2 ^ w.toNat then lane a k else 0))

/-- vpack halves the lanes, vunpk doubles them, and vdot and vsum reduce them to an int64 (R106, R50). -/
def Obligations.lane_class_changes : Prop :=
  ∀ (g : BitVec 4) (d a b : Reg) (w : BitVec 2) (h : BitVec 1) (s : State) (t : LiveLine),
    getTag t.line a = laneTag w →
    let n := widthBits w
    let lanes := 2 ^ w.toNat
    let mask := laneMask t.line g
    let lane := fun (r : Reg) (j : Nat) => (getG t.line r).extractLsb' (n * j) n
    let on := fun (f : Nat → Int) => BitVec.ofInt 64 (((List.range lanes).filter fun j => mask.getLsbD j).map f).sum
    (Ready (hdr g [d, a, b]) s t → getTag t.line b = laneTag w →
      let l := counted (hdr g [d, a, b]) t
      let src := fun (j : Nat) => if j < lanes then lane a j else lane b (j - lanes)
      let packs := fun (u : BitVec 1) (f : BitVec n → BitVec (n / 2)) => ∃ v : Word,
        exec (.vpack g d a b w u) s = .next (done s t (setG l d v (laneTag (w + 1))))
          ∧ ∀ j, j < 2 * lanes → v.extractLsb' (n / 2 * j) (n / 2)
            = if mask.getLsbD j then f (src j) else (getG t.line d).extractLsb' (n / 2 * j) (n / 2)
      (w = 1 ∨ w = 2 →
        packs 0 (fun x => BitVec.ofInt (n / 2) (max (-(2 : Int) ^ (n / 2 - 1)) (min ((2 : Int) ^ (n / 2 - 1) - 1) x.toInt)))
          ∧ packs 1 (fun x => BitVec.ofNat (n / 2) (min (2 ^ (n / 2) - 1) x.toNat)))
      ∧ (w ≠ 0 → getTag t.line d = 0 →
        exec (.vdot g d a b w 0) s = .next (done s t (setG l d
          (getG t.line d + on fun j => (lane a j).toInt * (lane b j).toInt) 0))
          ∧ exec (.vdot g d a b w 1) s = .next (done s t (setG l d
            (getG t.line d + on fun j => ((lane a j).toNat : Int) * (lane b j).toNat) 0))))
    ∧ (Ready (hdr g [d, a]) s t → w ≠ 0 →
      let l := counted (hdr g [d, a]) t
      exec (.vsum g d a w 0) s = .next (done s t (setG l d (on fun j => (lane a j).toInt) 0))
        ∧ exec (.vsum g d a w 1) s = .next (done s t (setG l d (on fun j => (lane a j).toNat) 0))
        ∧ ∃ v : Word, exec (.vunpk g d a w h) s = .next (done s t (setG l d v (laneTag (w - 1))))
          ∧ ∀ j, j < lanes / 2 → v.extractLsb' (2 * n * j) (2 * n)
            = if mask.getLsbD j then (lane a (j + h.toNat * (lanes / 2))).signExtend (2 * n)
              else (getG t.line d).extractLsb' (2 * n * j) (2 * n))

/-- Float operations complete with their lanes, flags and forfeit, or take the float trap with nothing changed (R108, R44, R45, R11, R14). Where a clause goes past the words of the rules it is the choice of the model: log entries 46 and 77. -/
def Obligations.float_results : Prop :=
  ∀ (g : BitVec 4) (d a b : Reg) (w : BitVec 2) (c : BitVec 4) (x : BitVec 1) (s : State) (t : LiveLine),
    (x = 0 ∨ w ≠ 0) →
    let f := fmtOf w
    let n := if x = 1 then 64 / f.bits else 1
    let mask : Byte := if x = 1 then laneMask t.line g else 1
    let lane := fun (r : Reg) (j : Nat) => ((getG t.line r).extractLsb' (f.bits * j) f.bits).toNat
    let enabled := (List.range n).filter fun j => mask.getLsbD j
    let exceptions := fun (res : Nat → BitVec 5) => (enabled.map res).foldl (· ||| ·) 0
    let met := fun (srcs : List Reg) (res : Nat → Nat) =>
      enabled.any fun j => isSubnormal f (res j) || srcs.any fun r => isSubnormal f (lane r j)
    let ends := fun (i : Instr) (srcs : List Reg) (res : Nat → Nat) (exc : Nat → BitVec 5) (sub : Bool) (l : Line → Prop) =>
      if exceptions exc &&& t.line.fen = 0 then
        ∃ u, exec i s = .next (afterIssue s u (wordPc t + 4)) ∧ l u.line
          ∧ u.line.fflg = t.line.fflg ||| exceptions exc ∧ u.forfeit = (if sub && met srcs res then 4 else t.forfeit)
          ∧ u.place = t.place
      else exec i s = .next (trapped s t (trapFloat (exceptions exc)))
    let arith := fun (i : Instr) (srcs : List Reg) (r : Nat → Nat × BitVec 5) =>
      Ready (hdr g (d :: srcs)) s t → (∀ q ∈ srcs, getTag t.line q = floatTag w) →
        ends i srcs (fun j => (r j).1) (fun j => (r j).2) true fun l => getTag l d = floatTag w ∧ OtherRegs d t.line l
          ∧ (∀ q, getQ l q = getQ t.line q)
          ∧ (x = 0 → getG l d = BitVec.ofNat 64 (r 0).1)
          ∧ (x = 1 → ∀ j, j < n → (getG l d).extractLsb' (f.bits * j) f.bits
            = if mask.getLsbD j then BitVec.ofNat f.bits (r j).1 else (getG t.line d).extractLsb' (f.bits * j) f.bits)
    let rm := roundingOf (issueCtx (hdr g [d, a, b]) t)
    arith (.fadd g d a b w x) [a, b] (fun j => fadd f rm (lane a j) (lane b j))
      ∧ arith (.fsub g d a b w x) [a, b] (fun j => fsub f rm (lane a j) (lane b j))
      ∧ arith (.fmul g d a b w x) [a, b] (fun j => fmul f rm (lane a j) (lane b j))
      ∧ arith (.fdiv g d a b w x) [a, b] (fun j => fdiv f rm (lane a j) (lane b j))
      ∧ arith (.fsqrt g d a w x) [a] (fun j => fsqrt f rm (lane a j))
      ∧ arith (.fmin g d a b w x) [a, b] (fun j => fmin f (lane a j) (lane b j))
      ∧ arith (.fmax g d a b w x) [a, b] (fun j => fmax f (lane a j) (lane b j))
      ∧ arith (.fma g d a b w x) [a, b, d] (fun j => fma f rm (lane a j) (lane b j) (lane d j))
      ∧ arith (.fround g d a w x) [a] (fun j => fround f rm (lane a j))
      ∧ (Ready (hdr g [a, b]) s t → getTag t.line a = floatTag w → getTag t.line b = floatTag w →
        let r := fun j => fcmp f c.toNat (lane a j) (lane b j)
        ends (.fcmp g d a b w c x) [a, b] (fun _ => 0) (fun j => (r j).2) true fun l => l.g = t.line.g ∧ l.tag = t.line.tag
          ∧ OtherPreds d t.line l
          ∧ (d ≠ 0 → x = 0 → getQ l d = if (r 0).1 then 0xFF else 0)
          ∧ (d ≠ 0 → x = 1 → ∀ j, j < 8 → (getQ l d).getLsbD j
            = (decide (j < n) && (if mask.getLsbD j then (r j).1 else (getQ t.line d).getLsbD j))))

/-- fcvt converts each enabled lane, tags the target class, and flags or traps by its exceptions (R110, R44). Where a clause goes past the words of the rules it is the choice of the model: log entries 46 and 77. -/
def Obligations.conversion_results : Prop :=
  ∀ (g : BitVec 4) (d a src tgt : Reg) (s : State) (t : LiveLine),
    Ready (hdr g [d, a]) s t → src ≠ tgt →
    let rm := roundingOf (issueCtx (hdr g [d, a]) t)
    let v := getG t.line a
    let n := cvtBits src
    let one := convert src tgt rm (v.toNat % 2 ^ n)
    let lanes := fun (j : Nat) => convert src tgt rm (v.extractLsb' (n * j) n).toNat
    let enabled := (List.range (64 / n)).filter fun j => (laneMask t.line g).getLsbD j
    let exc := (enabled.map fun j => (lanes j).2).foldl (· ||| ·) 0
    let i := fun (l : BitVec 2) => Instr.fcvt g d a l src tgt
    (getTag t.line a = cvtTag src 0 →
      if one.2 &&& t.line.fen = 0 then
        ∃ u, exec (i 0) s = .next (afterIssue s u (wordPc t + 4)) ∧ u.line.fflg = t.line.fflg ||| one.2
          ∧ getTag u.line d = (if tgt.toNat < 4 then floatTag (tgt.setWidth 2) else 0) ∧ OtherRegs d t.line u.line
          ∧ getG u.line d = (if tgt = 6 then (BitVec.ofNat 32 one.1).signExtend 64 else BitVec.ofNat 64 one.1)
      else exec (i 0) s = .next (trapped s t (trapFloat one.2)))
    ∧ (getTag t.line a = cvtTag src 1 →
      (src = 1 ∨ src = 6 ∨ src = 7) ∧ (tgt = 1 ∨ tgt = 6 ∨ tgt = 7) ∨ (src = 2 ∨ src = 3) ∧ (tgt = 2 ∨ tgt = 3) →
      if exc &&& t.line.fen = 0 then
        ∃ u, exec (i 1) s = .next (afterIssue s u (wordPc t + 4)) ∧ u.line.fflg = t.line.fflg ||| exc
          ∧ getTag u.line d = (if tgt.toNat < 4 then floatTag (tgt.setWidth 2) else 1) ∧ OtherRegs d t.line u.line
          ∧ ∀ j, j < 64 / n → (getG u.line d).extractLsb' (n * j) n
            = if (laneMask t.line g).getLsbD j then BitVec.ofNat n (lanes j).1 else (getG t.line d).extractLsb' (n * j) n
      else exec (i 1) s = .next (trapped s t (trapFloat exc)))

/-- Each float operation gives its exact value rounded once: best in its direction, nearest with ties to even, and the overflow results (R41, R108, R110, R111). -/
def Obligations.rounding_is_directed_or_nearest : Prop :=
  let value := fun (f : Fmt) (x : Nat) => match unpack f x with
    | .zero _ => some (0 : ℚ)
    | .fin neg m e => some ((if neg then -1 else 1) * (m : ℚ) * (2 : ℚ) ^ e)
    | _ => none
  let rounded := fun (f : Fmt) (rm : Nat) (neg : Bool) (notAbove notBelow : ℚ → Prop) (r : Nat) =>
    let below := ∃ q, value f r = some q ∧ notAbove q ∧ ∀ y p, value f y = some p → notAbove p → p ≤ q
    let above := ∃ q, value f r = some q ∧ notBelow q ∧ ∀ y p, value f y = some p → notBelow p → q ≤ p
    (rm = 2 → below ∨ (r = f.inf true ∧ ∀ y p, value f y = some p → ¬ notAbove p))
      ∧ (rm = 3 → above ∨ (r = f.inf false ∧ ∀ y p, value f y = some p → ¬ notBelow p))
      ∧ (rm = 1 → if neg then above else below)
      ∧ (rm = 0 → (r = f.inf neg ∨ ∃ q, value f r = some q)
        ∧ (∀ q, value f r = some q → ∀ y p, value f y = some p → (p < q → notAbove ((p + q) / 2)) ∧ (q < p → notBelow ((p + q) / 2))
          ∧ (p ≠ q → notAbove ((p + q) / 2) → notBelow ((p + q) / 2) → r % 2 = 0))
        ∧ ∀ p q, value f (f.inf neg - 1) = some p → value f (f.inf neg - 2) = some q →
          (r = f.inf neg ↔ if neg then notBelow (p + (p - q) / 2) else notAbove (p + (p - q) / 2)))
      ∧ (value f r = some 0 → r = f.signBit neg)
  let integer := fun (rm : Nat) (p : ℚ) (k : Int) => (rm = 2 → k = ⌊p⌋) ∧ (rm = 3 → k = ⌈p⌉)
    ∧ (rm = 1 → k = if p < 0 then ⌈p⌉ else ⌊p⌋) ∧ (rm = 0 → |p - k| ≤ 1 / 2 ∧ (|p - k| = 1 / 2 → k % 2 = 0))
  ∀ (rm : Nat), rm < 4 →
    let exactly := fun (f : Fmt) (v : ℚ) (r : Nat × BitVec 5) => v ≠ 0 →
      rounded f rm (decide (v < 0)) (fun q => q ≤ v) (fun q => v ≤ q) r.1 ∧ (r.2.getLsbD 4 = true ↔ value f r.1 ≠ some v)
    (∀ (w : BitVec 2) (neg : Bool) (m : Nat) (e : Int), m ≠ 0 →
      exactly (fmtOf w) ((if neg then -1 else 1) * (m : ℚ) * (2 : ℚ) ^ e) (roundPack (fmtOf w) rm neg m e))
    ∧ (∀ (w : BitVec 2) (x y z : Nat) (p q c : ℚ),
      let f := fmtOf w
      x < 2 ^ f.bits → y < 2 ^ f.bits → z < 2 ^ f.bits → value f x = some p → value f y = some q → value f z = some c →
      let neg := fun (v : Nat) => decide (2 ^ (f.bits - 1) ≤ v)
      exactly f (p + q) (fadd f rm x y) ∧ exactly f (p - q) (fsub f rm x y) ∧ exactly f (p * q) (fmul f rm x y)
        ∧ (q ≠ 0 → exactly f (p / q) (fdiv f rm x y)) ∧ exactly f (p * q + c) (fma f rm x y z)
        ∧ (p * q = 0 → fmul f rm x y = (f.signBit (neg x != neg y), 0))
        ∧ (p = 0 → q ≠ 0 → fdiv f rm x y = (f.signBit (neg x != neg y), 0))
        ∧ (p ≠ 0 → q = 0 → fdiv f rm x y = (f.inf (neg x != neg y), 2))
        ∧ (0 < p → rounded f rm false (fun k => k < 0 ∨ k ^ 2 ≤ p) (fun k => 0 ≤ k ∧ p ≤ k ^ 2) (fsqrt f rm x).1
          ∧ ((fsqrt f rm x).2.getLsbD 4 = true ↔ ¬ ∃ k, value f (fsqrt f rm x).1 = some k ∧ k ^ 2 = p))
        ∧ (p = 0 → fsqrt f rm x = (x, 0))
        ∧ (∃ k : Int, integer rm p k ∧ value f (fround f rm x).1 = some (k : ℚ) ∧ (k = 0 → (fround f rm x).1 = f.signBit (neg x)))
        ∧ value f (fmin f x y).1 = some (min p q) ∧ value f (fmax f x y).1 = some (max p q)
        ∧ (p = 0 → q = 0 → (fmin f x y).1 = f.signBit (neg x || neg y) ∧ (fmax f x y).1 = f.signBit (neg x && neg y))
        ∧ ∀ k, k < 8 → (fcmp f k x y).2 = 0 ∧ some (fcmp f k x y).1 = [decide (p = q), decide (p ≠ q), decide (p < q), decide (p ≤ q),
          decide (q < p), decide (q ≤ p), false, true][k]?)
    ∧ (∀ (src tgt : Reg) (x : Nat), src ≠ tgt →
      let f := fmtOf (src.setWidth 2)
      let f' := fmtOf (tgt.setWidth 2)
      let lo : Int := if tgt = 4 then -2 ^ 63 else if tgt = 6 then -2 ^ 31 else 0
      let hi : Int := if tgt = 4 then 2 ^ 63 - 1 else if tgt = 5 then 2 ^ 64 - 1 else if tgt = 6 then 2 ^ 31 - 1 else 2 ^ 32 - 1
      let size := if tgt.toNat < 6 then 2 ^ 64 else 2 ^ 32
      let whole : Int := if src = 4 then (BitVec.ofNat 64 x).toInt else if src = 5 then (BitVec.ofNat 64 x).toNat
        else if src = 6 then (BitVec.ofNat 32 x).toInt else (BitVec.ofNat 32 x).toNat
      let limited := fun (k : Int) (r : Nat × BitVec 5) => ((r.1 : Int) = max lo (min hi k) % size) ∧ (r.2.getLsbD 0 = true ↔ k < lo ∨ hi < k)
      (src.toNat < 4 → x < 2 ^ f.bits → ∀ p, value f x = some p →
        (tgt.toNat < 4 → exactly f' p (convert src tgt rm x))
          ∧ (4 ≤ tgt.toNat → ∃ k, integer rm p k ∧ limited k (convert src tgt rm x)
            ∧ (lo ≤ k → k ≤ hi → ((convert src tgt rm x).2.getLsbD 4 = true ↔ (k : ℚ) ≠ p))))
      ∧ (4 ≤ src.toNat → (tgt.toNat < 4 → exactly f' (whole : ℚ) (convert src tgt rm x))
        ∧ (4 ≤ tgt.toNat → limited whole (convert src tgt rm x))))

/-- NaN results: the first NaN made quiet with its payload, or the default NaN with invalid (R43, R108). -/
def Obligations.nan_results : Prop :=
  ∀ (w : BitVec 2) (rm x y z : Nat),
    let f := fmtOf w
    x < 2 ^ f.bits → y < 2 ^ f.bits → z < 2 ^ f.bits →
    let isNan := fun v => decide (v / 2 ^ f.fw % 2 ^ f.ew = f.ones) && decide (v % 2 ^ f.fw ≠ 0)
    let quiet := fun v => Nat.lor v (2 ^ (f.fw - 1))
    let signalling := fun v => isNan v && decide (v % 2 ^ f.fw < 2 ^ (f.fw - 1))
    let first := if isNan x then quiet x else quiet y
    let flag := fun (b : Bool) => if b then (1 : BitVec 5) else 0
    let inf := fun v => decide (v % 2 ^ (f.ew + f.fw) = f.ones * 2 ^ f.fw)
    let isZero := fun v => decide (v % 2 ^ (f.ew + f.fw) = 0)
    let bad := (inf x && isZero y) || (isZero x && inf y)
    let dflt := ([0x7FF8000000000000, 0x7FC00000, 0x7E00, 0x7FC0] : List Nat)[w.toNat]?
    ((isNan x || isNan y) = true → ∀ op ∈ [fadd f rm, fsub f rm, fmul f rm, fdiv f rm],
        op x y = (first, flag (signalling x || signalling y)))
      ∧ ((isNan x || isNan y || isNan z) = true → fma f rm x y z
        = (if isNan x || isNan y then first else quiet z, flag (signalling x || signalling y || signalling z || bad)))
      ∧ (isNan x = true → fsqrt f rm x = (quiet x, flag (signalling x)) ∧ fround f rm x = (quiet x, flag (signalling x)))
      ∧ (inf x = true → inf y = true → (x ≠ y → some (fadd f rm x y).1 = dflt ∧ (fadd f rm x y).2 = 1)
        ∧ (x = y → some (fsub f rm x y).1 = dflt ∧ (fsub f rm x y).2 = 1)
        ∧ some (fdiv f rm x y).1 = dflt ∧ (fdiv f rm x y).2 = 1)
      ∧ (isZero x = true → isZero y = true → some (fdiv f rm x y).1 = dflt ∧ (fdiv f rm x y).2 = 1)
      ∧ (bad = true → some (fmul f rm x y).1 = dflt ∧ (fmul f rm x y).2 = 1)

/-- Exact cancellation gives +0 under RNE, RTZ and RUP and -0 under RDN; two zeros of one sign keep it (R42). -/
def Obligations.cancellation_sign : Prop :=
  ∀ (w : BitVec 2) (rm x y : Nat),
    let f := fmtOf w
    x < 2 ^ f.bits → y < 2 ^ f.bits → rm < 4 →
    let sign := 2 ^ (f.ew + f.fw)
    let finite := fun v => v / 2 ^ f.fw % 2 ^ f.ew ≠ f.ones
    let z0 := if rm = 2 then sign else 0
    (finite x → x % sign ≠ 0 → fsub f rm x x = (z0, 0)
        ∧ (x % sign = y % sign → x ≠ y → fadd f rm x y = (z0, 0)))
      ∧ (x % sign = 0 → fadd f rm x x = (x, 0) ∧ fsub f rm x x = (z0, 0)
        ∧ (y % sign = 0 → x ≠ y → fsub f rm x y = (x, 0) ∧ fadd f rm x y = (z0, 0)))

/-- br, call, jr, ret, callr, loop and nop end with PC, g7 and the count that R112 gives (R112, R57, R29, R426). -/
def Obligations.transfer_results : Prop :=
  ∀ (g : BitVec 4) (a d : Reg) (o : BitVec 22) (o16 : BitVec 16) (s : State) (t : LiveLine),
    let p := wordPc t
    let link := fun (l : Line) => setG l 7 ((p + 4).setWidth 64) 0x0C
    let dest := fun (h : Hdr) (f w : Nat) => p + (extField (issueCtx h t) f w true * 4).setWidth 48
    let v := getG t.line a
    let aligned := v.extractLsb' 0 2 = 0 ∧ v.extractLsb' 48 16 = 0
    (Ready (hdr g []) s t →
      exec (.br g o) s = .next (doneAt s t (counted (hdr g []) t) (dest (hdr g []) o.toNat 22))
        ∧ exec (.nop g) s = .next (done s t (counted (hdr g []) t)))
    ∧ (Ready (hdr g [7]) s t →
      exec (.call g o) s = .next (doneAt s t (link (counted (hdr g [7]) t)) (dest (hdr g [7]) o.toNat 22)))
    ∧ (Ready (hdr g [a]) s t → (getTag t.line a = 0x0C ∨ getTag t.line a = 0) →
      (aligned → exec (.jr g a) s = .next (doneAt s t (counted (hdr g [a]) t) (v.setWidth 48))
        ∧ exec (.ret g a) s = .next (doneAt s t (counted (hdr g [a]) t) (v.setWidth 48)))
      ∧ (¬ aligned → exec (.jr g a) s = .next (trapped s t (trapCodeAlign v.toNat))
        ∧ exec (.ret g a) s = .next (trapped s t (trapCodeAlign v.toNat))))
    ∧ (Ready (hdr g [a, 7]) s t → (getTag t.line a = 0x0C ∨ getTag t.line a = 0) →
      (aligned → exec (.callr g a) s = .next (doneAt s t (link (counted (hdr g [a, 7]) t)) (v.setWidth 48)))
      ∧ (¬ aligned → exec (.callr g a) s = .next (trapped s t (trapCodeAlign v.toNat))))
    ∧ (Ready (hdr g [d]) s t → getTag t.line d = 0 →
      let l := setG (counted (hdr g [d]) t) d (getG t.line d - 1) 0
      exec (.loop g d o16) s
        = .next (if getG t.line d = 1 then done s t l else doneAt s t l (dest (hdr g [d]) o16.toNat 16)))

/-- hext collects 24 bits for the next instruction, hsched changes nothing, hmod waits for its target, a third hext traps (R63, R64, R65, R66, R67). Where a clause goes past the words of the rules it is the choice of the model: log entry 14. -/
def Obligations.hint_words : Prop :=
  ∀ (p c : BitVec 24) (la : BitVec 4) (v : BitVec 1) (r : Reg) (k n : BitVec 1) (s : State) (t : LiveLine), s.thr = some t →
    (t.md = none → t.line.hcnt = 0 → ∃ l, exec (.hext p) s = .next (done s t l) ∧ l = { t.line with hcnt := 1, hpay := l.hpay }
        ∧ l.hpay.extractLsb' 0 24 = p)
      ∧ (t.md = none → t.line.hcnt = 1 → ∃ l, exec (.hext p) s = .next (done s t l) ∧ l = { t.line with hcnt := 2, hpay := l.hpay }
        ∧ l.hpay.extractLsb' 24 24 = p ∧ l.hpay.extractLsb' 0 24 = t.line.hpay.extractLsb' 0 24)
      ∧ (t.md = none → t.line.hcnt = 2 → exec (.hext p) s = .next (trapped s t (trapIllegal (wordOf (.hext p)))))
      ∧ (t.md = none → exec (.hsched c) s = .next (done s t t.line))
      ∧ (∀ m, t.md = some m → exec (.hext p) s = .next (trapped s t (trapIllegal (hmodOf m)))
        ∧ exec (.hsched c) s = .next (trapped s t (trapIllegal (hmodOf m)))
        ∧ exec (.hmod la v r k n) s = .next (trapped s t (trapIllegal (hmodOf m))))
      ∧ (t.md = none → hintFollows s t = false → ∃ s', exec (.hmod la v r k n) s = .next s'
        ∧ s'.thr = some { agedLine s t with md := some (la ++ v ++ r ++ k ++ n), word := none } ∧ s'.memory = s.memory)
      ∧ (t.md = none → hintFollows s t = true →
        exec (.hmod la v r k n) s = .next (trapped s t (trapIllegal (wordOf (.hmod la v r k n)))))

/-- A word that is no instruction takes the illegal-instruction or the emulation trap before anything else (R68, R47, R482). -/
def Obligations.rejected_words : Prop :=
  ∀ (w : BitVec 32) (s : State) (t : LiveLine), s.thr = some t →
    (featureOk s w.toNat = true → decodeNat w.toNat = .error .illegal →
        exec (.notAnInstructionWord w) s = .next (trapped s t (mkTrap 1 w.toNat 0)))
      ∧ (featureOk s w.toNat = true → decodeNat w.toNat = .error .emulation →
        exec (.notAnInstructionWord w) s = .next (trapped s t (mkTrap 2 w.toNat 0)))
      ∧ (featureOk s w.toNat = false → exec (.notAnInstructionWord w) s = .next (trapped s t (mkTrap 2 w.toNat 0)))

/-- ld, ldx, st and stx issue: the access is sent, the load register becomes pending with its tag, the store is counted (R113, R55, R21, R38). -/
def Obligations.load_store_issue : Prop :=
  ∀ (g : BitVec 4) (d a z : Reg) (c : BitVec 2) (la : BitVec 4) (o : BitVec 7) (ty : BitVec 4) (o3 : Reg) (s : State)
      (t : LiveLine) (loc : Loc), getTag t.line a = 0 →
    let size := typeSize ty.toNat
    let hl := hdrLook g [d, a] la false
    let hs := hdrLook g [d, a] la (c != 0)
    let ea := fun (h : Hdr) (off w n : Nat) => (getG t.line a + extField (issueCtx h t) off w true * BitVec.ofNat 64 n).toNat
    let fits := fun (n x : Nat) => x % n = 0 ∧ x < 2 ^ 56
    (Ready hl s t →
      (fits 8 (ea hl o.toNat 7 8) → locate s (whoOf t) .load (ea hl o.toNat 7 8) z = .ok loc →
        exec (.ld g d a z c la o) s = .next (done
          (sendPkt s (mkPkt s (issueCtx hl t) (.read 8 16 d) false (ea hl o.toNat 7 8) loc)) t
          (setPending (setTag (counted hl t) d 0) d)))
      ∧ (fits size (ea hl o3.toNat 3 size) → locate s (whoOf t) .load (ea hl o3.toNat 3 size) z = .ok loc →
        exec (.ldx g d a ty z c la o3) s = .next (done
          (sendPkt s (mkPkt s (issueCtx hl t) (.read size ty.toNat d) false (ea hl o3.toNat 3 size) loc)) t
          (setPending (setTag (counted hl t) d (typeTag ty.toNat)) d))))
    ∧ (Ready hs s t →
      (fits 8 (ea hs o.toNat 7 8) → locateStore s (whoOf t) (ea hs o.toNat 7 8) 8 z = .ok loc →
        exec (.st g d a z c la o) s = .next (done
          (sendPkt s (mkPkt s (issueCtx hs t) (.write 8 (getG t.line d) none) false (ea hs o.toNat 7 8) loc))
          { t with stores := t.stores + 1 } (counted hs t)))
      ∧ (fits size (ea hs o3.toNat 3 size) → locateStore s (whoOf t) (ea hs o3.toNat 3 size) size z = .ok loc →
        exec (.stx g d a ty z c la o3) s = .next (done
          (sendPkt s (mkPkt s (issueCtx hs t)
            (.write size (BitVec.ofNat 64 ((getG t.line d).toNat % 2 ^ (8 * size))) none) false (ea hs o3.toNat 3 size) loc))
          { t with stores := t.stores + 1 } (counted hs t))))

/-- An access traps in the order of R47: alignment, then the 56-bit space, then what its form forbids, then its translation (R47, R113, R116, R172, R247, R259, R46, R206). Where a clause goes past the words of the rules it is the choice of the model: log entry 13. -/
def Obligations.access_traps : Prop :=
  ∀ (g : BitVec 4) (d a b z : Reg) (c : BitVec 2) (la : BitVec 4) (o : BitVec 7) (o3 : Reg) (ty : BitVec 4) (w : BitVec 1)
      (w2 os : BitVec 2) (s : State) (t : LiveLine) (e : Trap), getTag t.line a = 0 →
    let stops := fun (size ea : Nat) (write : Bool) (found : Except Stop Loc) =>
      if ea % size ≠ 0 then some (mkTrap 5 size ea)
      else if 2 ^ 56 ≤ ea then some (mkTrap 6 (if write then 1 else 0) ea)
      else if found = .error (.trap e) then some e else none
    let ea := fun (h : Hdr) (off bits n : Nat) => (getG t.line a + extField (issueCtx h t) off bits true * BitVec.ofNat 64 n).toNat
    let takes := fun (i : Instr) (r : Option Trap) => ∀ x, r = some x → exec i s = .next (trapped s t x)
    let size := typeSize ty.toNat
    let hl := hdrLook g [d, a] la false
    let hs := hdrLook g [d, a] la (c != 0)
    (Ready hl s t →
      takes (.ld g d a z c la o) (stops 8 (ea hl o.toNat 7 8) false (locate s (whoOf t) .load (ea hl o.toNat 7 8) z))
        ∧ takes (.ldx g d a ty z c la o3)
          (stops size (ea hl o3.toNat 3 size) false (locate s (whoOf t) .load (ea hl o3.toNat 3 size) z)))
    ∧ (Ready hs s t →
      takes (.st g d a z c la o) (stops 8 (ea hs o.toNat 7 8) true (locateStore s (whoOf t) (ea hs o.toNat 7 8) 8 z))
        ∧ takes (.stx g d a ty z c la o3)
          (stops size (ea hs o3.toNat 3 size) true (locateStore s (whoOf t) (ea hs o3.toNat 3 size) size z)))
    ∧ (Ready (hdrMod g [d, a, b] (os.getLsbD 1)) s t →
      let x := (getG t.line a).toNat
      let r := stops (if w = 0 then 8 else 4) x true (locateWrite s (whoOf t) x 0)
      (getTag t.line b = 0 → takes (.amoAdd g d a b w os c) r ∧ takes (.amoAnd g d a b w os c) r ∧ takes (.amoOr g d a b w os c) r
          ∧ takes (.amoXor g d a b w os c) r ∧ takes (.amoMin g d a b w os c) r ∧ takes (.amoMax g d a b w os c) r
          ∧ takes (.amoMinb g d a b w os c) r ∧ takes (.amoMaxb g d a b w os c) r)
        ∧ takes (.amoSwap g d a b w os c) r ∧ takes (.amoCas g d a b w os c) r
        ∧ (getTag t.line b = (if w = 0 then 4 else 5) → takes (.amoFadd g d a b w os c) r))
    ∧ (let word := fun (i : Instr) (x : Nat) (write : Bool) (found : Except Stop Loc) => takes i (stops 8 x write found)
        ∧ (x % 8 = 0 → x < 2 ^ 56 → ∀ loc, found = .ok loc → (∀ k, loc = .cell k → k < windowBase) →
          exec i s = .next (trapped s t (mkTrap 16 0 x)))
      (Ready (hdr g [d, a]) s t →
        let x := ea (hdr g [d, a]) o3.toNat 3 8
        word (.ldfe g d a z c o3) x false (locate s (whoOf t) .load x z)
          ∧ word (.ldff g d a z c o3) x false (locate s (whoOf t) .load x z))
      ∧ (getTag t.line d = 0 →
        (Ready (hdrRel g [d, a] (c != 0)) s t →
          let x := ea (hdrRel g [d, a] (c != 0)) o3.toNat 3 8
          word (.stf g d a z c o3) x true (locateWrite s (whoOf t) x z))
        ∧ (Ready hs s t →
          let x := ea hs o3.toNat 3 8
          word (.ste g d a z c la o3) x true (locateWrite s (whoOf t) x z))))
    ∧ (Ready (hdrMod g [d, a] false) s t →
      let x := (getG t.line a).toNat
      let n := 8 * 2 ^ w2.toNat
      takes (.tkld g d a w2 c) (if x % n ≠ 0 ∨ 2 ^ 56 ≤ x ∨ ticketSpace x = true then stops n x false (locate s (whoOf t) .load x 0)
        else some (mkTrap 22 0 x)))
    ∧ (Ready (hdr g [d, a, b]) s t → getTag t.line d = 0 → getTag t.line b = 0 → getG t.line b ≠ 0 → t.req = none → t.replies = [] →
      let n := 8 / 2 ^ w2.toNat
      let p := (getG t.line d).toNat
      let q := (getG t.line a).toNat
      let load := fun (va : Nat) => stops n va false (locate s (whoOf t) .load va 0)
      let store := fun (va : Nat) => stops n va true (locateWrite s (whoOf t) va 0)
      let passes := fun (va : Nat) => ∃ k, va < 2 ^ 56 ∧ locate s (whoOf t) .load va 0 = .ok (.cell k) ∧ locHeld s (.cell k) = false
        ∧ readHeld s (.cell k) n = false
      let unaligned := if p % n ≠ 0 then some (mkTrap 5 n p) else if q % n ≠ 0 then some (mkTrap 5 n q) else none
      takes (.rfill g d a b w2) (store p)
        ∧ takes (.rmov g d a b w2) unaligned ∧ takes (.rcmp g d a b w2) unaligned
        ∧ (unaligned = none → takes (.rmov g d a b w2) (load q) ∧ takes (.rcmp g d a b w2) (load p)
          ∧ (passes q → takes (.rmov g d a b w2) (store p)) ∧ (passes p → takes (.rcmp g d a b w2) (load q))))

/-- The atomics issue: gD pending with the tag of the old value, one read-modify-write sent; fences wait or pass (R247, R248, R252, R250). Where a clause goes past the words of the rules it is the choice of the model: log entries 18 and 76. -/
def Obligations.atomic_issue : Prop :=
  ∀ (g : BitVec 4) (d a b : Reg) (w : BitVec 1) (o c k : BitVec 2) (s : State) (t : LiveLine) (loc : Loc),
    let h := hdrMod g [d, a, b] (o.getLsbD 1)
    let size := if w = 0 then 8 else 4
    let ea := (getG t.line a).toNat
    let sends := fun (i : Instr) (fn : Nat) (tag : Byte) => exec i s = .next (done
      (sendPkt s (mkPkt s (issueCtx h t) (.rmw fn size (getG t.line b) (getG t.line d) d) false ea loc)) t
      (setPending (setTag (counted h t) d tag) d))
    (Ready h s t → getTag t.line a = 0 → ea % size = 0 → ea < 2 ^ 56 → locateWrite s (whoOf t) ea 0 = .ok loc →
      (getTag t.line b = 0 →
        sends (.amoAdd g d a b w o c) 0 0 ∧ sends (.amoAnd g d a b w o c) 1 0 ∧ sends (.amoOr g d a b w o c) 2 0
          ∧ sends (.amoXor g d a b w o c) 3 0 ∧ sends (.amoMin g d a b w o c) 4 0 ∧ sends (.amoMax g d a b w o c) 5 0
          ∧ sends (.amoMinb g d a b w o c) 6 0 ∧ sends (.amoMaxb g d a b w o c) 7 0)
      ∧ sends (.amoSwap g d a b w o c) 8 0 ∧ sends (.amoCas g d a b w o c) 9 0
      ∧ (getTag t.line b = (if w = 0 then 4 else 5) → sends (.amoFadd g d a b w o c) 10 (if w = 0 then 4 else 5)))
    ∧ (Ready (hdrRel g [] (k != 1)) s t →
      exec (.fence g k c) s = .next
        (if k = 1 ∧ readsDone s t.tenant t.addr = false then draining s t .reads
          else done s t (counted (hdrRel g [] (k != 1)) t)))

/-- A load, a store and an atomic are performed when they arrive: the bytes of R113 and R247, and no others (R113, R55, R247, R249, R23, R32). Where a clause goes past the words of the rules it is the choice of the model: log entries 26 and 44. -/
def Obligations.memory_packets_perform : Prop :=
  ∀ (id : Nat) (s : State) (p : Pkt) (k : Nat),
    findPkt s id = some p → p.id = id → p.loc = .cell k → performable s p = true → isOurs s p = true → p.ans = false →
    let gone := dropPkt s id
    let old := fun (n : Nat) => memRead s.memory k n
    let fn2 := fun (f n x y : Nat) => match f with
      | 0 => (x + y) % 2 ^ n
      | 1 => Nat.land x y
      | 2 => Nat.lor x y
      | 3 => Nat.xor x y
      | 4 => if (BitVec.ofNat n x).sle (BitVec.ofNat n y) then x else y
      | 5 => if (BitVec.ofNat n x).sle (BitVec.ofNat n y) then y else x
      | 6 => min x y
      | 7 => max x y
      | _ => y
    (∀ size ty reg, p.body = .read size ty reg → ty < 17 → size = typeSize ty → poisoned s.memory k size = false →
      exec (.resultArrival id) s = .next (deliverResult gone p.tenant p.line reg
        (if ty = 3 ∨ ty = 4 ∨ ty = 5 then (BitVec.ofNat (8 * size) (old size)).signExtend 64 else BitVec.ofNat 64 (old size)) 0))
    ∧ (∀ size v fe, p.body = .write size v fe → countAtCore s p = true →
      exec (.storeAcknowledgement id) s = .next (storeDone (performWrite gone (.cell k) size v fe) p.tenant p.line)
        ∧ (∀ j, j < k ∨ k + size ≤ j → byteOf (performWrite gone (.cell k) size v fe) j = byteOf s j)
        ∧ (Canonical s → ∀ i, i < size → i < 8 →
          byteOf (performWrite gone (.cell k) size v fe) (k + i) = v.extractLsb' (8 * i) 8)
        ∧ (∀ b, Canonical s → fe = some b → feAt (performWrite gone (.cell k) size v fe).memory k = b))
    ∧ (∀ fn size y c reg, p.body = .rmw fn size y c reg → fn < 11 → size = 4 ∨ size = 8 → poisoned s.memory k size = false →
      let n := 8 * size
      let sum := fadd (if size = 8 then fmt64 else fmt32) 0 (old size) (y.toNat % 2 ^ n)
      let arrives := fun (s' : State) (flags : BitVec 5) => exec (.resultArrival id) s = .next (deliverResult s' p.tenant p.line reg
        (if fn = 0 ∨ fn = 4 ∨ fn = 5 then (BitVec.ofNat n (old size)).signExtend 64 else BitVec.ofNat 64 (old size)) flags)
      let stored := fun (v : Nat) (s' : State) => s'.memory = memWrite s.memory k size v ∧ s' = writeLoc gone (.cell k) size v
      (fn < 9 → ∃ s', stored (fn2 fn n (old size) (y.toNat % 2 ^ n)) s' ∧ arrives s' 0)
        ∧ (fn = 9 → old size = c.toNat % 2 ^ n → ∃ s', stored (y.toNat % 2 ^ n) s' ∧ arrives s' 0)
        ∧ (fn = 9 → old size ≠ c.toNat % 2 ^ n → arrives gone 0)
        ∧ (fn = 10 → ∃ s', stored sum.1 s' ∧ arrives s' sum.2))

/-- A result reaches its register wherever the line is, clearing PEND with it; a store count falls by one (R21, R22, R23, R32, R408, R436). Where a clause goes past the words of the rules it is the choice of the model: log entries 44 and 91. -/
def Obligations.delivery_to_a_line : Prop :=
  ∀ (s : State) (t a : Nat) (r : Reg) (v : Word) (e : BitVec 5),
    let takes := fun (x y : Line) => getG y r = v ∧ isPending y r = false ∧ y.fflg = x.fflg ||| e
      ∧ (∀ q, q ≠ r → getG y q = getG x q ∧ isPending y q = isPending x q) ∧ (∀ q, getTag y q = getTag x q) ∧ y.pc = x.pc
      ∧ SameIdentity x y ∧ (x.wait = waitTag 1 r.toNat → y.wait = 0)
      ∧ (x.wait ≠ waitTag 1 r.toNat → x.wait ≠ waitTag 11 0 → y.wait = x.wait)
    let s' := deliverResult s t a r v e
    (findLine s t a = none → s' = s)
      ∧ (∀ x, findLine s t a = some x → (reachable s x = false ∨ msgAhead s t a = true) →
        s' = { s with msgs := s.msgs ++ [⟨t, a, .result r v e, none, s.dmgen⟩] })
      ∧ (∀ x, findLine s t a = some x → reachable s x = true → msgAhead s t a = false →
        ∃ y, findLine s' t a = some y ∧ y.place = x.place
          ∧ (x.place ≠ .dram → takes x.line y.line ∧ s'.memory = s.memory)
          ∧ (∀ k, x.place = .dram → cellOf s t a = some k → Canonical s → takes (memLine s.memory k) (memLine s'.memory k)
            ∧ ∀ j, j < k ∨ k + 128 ≤ j → byteOf s' j = byteOf s j))
      ∧ (∀ x, findLine s t a = some x → x.place ≠ .dram →
        ∃ y, findLine (storeDone s t a) t a = some y ∧ y.stores = x.stores - 1 ∧ y.line.g = x.line.g
          ∧ y.line.pend = x.line.pend
          ∧ (x.line.wait = waitTag 11 0 → reachable s x = true → x.stores ≤ 1 →
            (x.drain = .all → x.line.pend = 0 → fetchHeld s t a = false → y.line.wait = 0)
              ∧ (x.drain = .stores → y.line.wait = 0)
              ∧ (x.drain = .accesses → readsDone s t a = true → y.line.wait = 0)))

/-- ldfe, ldff, stf and ste follow R172: one step on the word and its bit, or a wait of kind 2 (R172, R147, R157). Where a clause goes past the words of the rules it is the choice of the model: log entries 12 and 87. -/
def Obligations.full_empty_words : Prop :=
  ∀ (g : BitVec 4) (d a z : Reg) (c : BitVec 2) (la : BitVec 4) (o : Reg) (s : State) (t : LiveLine) (k : Nat),
    getTag t.line a = 0 → Canonical s → windowBase ≤ k → locHeld s (.cell k) = false → poisoned s.memory k 8 = false →
    let ea := fun (h : Hdr) => (getG t.line a + extField (issueCtx h t) o.toNat 3 true * 8).toNat
    let fits := fun (h : Hdr) => ea h % 8 = 0 ∧ ea h < 2 ^ 56
    let others := fun (s' : State) => (∀ j, j < k ∨ k + 8 ≤ j → byteOf s' j = byteOf s j)
      ∧ ∀ j, wordKey j ≠ wordKey k → feAt s'.memory j = feAt s.memory j
    let reads := fun (i : Instr) (full : Bool) => ∃ s',
      exec i s = .next (done s' t (setG (counted (hdr g [d, a]) t) d (memWord s.memory k) 0))
        ∧ feAt s'.memory k = full ∧ others s' ∧ memWord s'.memory k = memWord s.memory k
    (Ready (hdr g [d, a]) s t → fits (hdr g [d, a]) → locate s (whoOf t) .load (ea (hdr g [d, a])) z = .ok (.cell k) →
      readHeld s (.cell k) 8 = false →
      (feAt s.memory k = true → reads (.ldfe g d a z c o) false ∧ reads (.ldff g d a z c o) true)
      ∧ (feAt s.memory k = false →
        exec (.ldfe g d a z c o) s = .next (waiting s t (waitTag 2 (ea (hdr g [d, a]))))
          ∧ exec (.ldff g d a z c o) s = .next (waiting s t (waitTag 2 (ea (hdr g [d, a]))))))
    ∧ (let h := hdrRel g [d, a] (c != 0)
      Ready h s t → getTag t.line d = 0 → fits h → locateWrite s (whoOf t) (ea h) z = .ok (.cell k) →
      (feAt s.memory k = false → ∃ s', exec (.stf g d a z c o) s = .next (done s' t (counted h t))
        ∧ feAt s'.memory k = true ∧ others s' ∧ memWord s'.memory k = getG t.line d)
      ∧ (feAt s.memory k = true → exec (.stf g d a z c o) s = .next (waiting s t (waitTag 2 (ea h)))))
    ∧ (let h := hdrLook g [d, a] la (c != 0)
      Ready h s t → getTag t.line d = 0 → fits h → locateWrite s (whoOf t) (ea h) z = .ok (.cell k) →
      exec (.ste g d a z c la o) s = .next (done
        (sendPkt s (mkPkt s (issueCtx h t) (.write 8 (getG t.line d) (some false)) false (ea h) (.cell k)))
        { t with stores := t.stores + 1 } (counted h t)))

/-- rmov, rfill and rcmp complete a step of 1 to 64 elements; a step of one element has exactly its effect (R115, R116, R117). Where a clause goes past the words of the rules it is the choice of the model: log entries 2, 19, 51, 71 and 78. -/
def Obligations.block_steps : Prop :=
  ∀ (g : BitVec 4) (d a b : Reg) (w : BitVec 2) (s : State) (t : LiveLine),
    let h := hdr g [d, a, b]
    let e := 8 / 2 ^ w.toNat
    let n := (getG t.line b).toNat
    let p := (getG t.line d).toNat
    let q := (getG t.line a).toNat
    Ready h s t → d ≠ a → a ≠ b → d ≠ b → getTag t.line d = 0 → getTag t.line b = 0 → t.req = none → t.replies = [] →
    let source := fun (va key : Nat) => va % e = 0 ∧ va < 2 ^ 56 ∧ locate s (whoOf t) .load va 0 = .ok (.cell key)
      ∧ locHeld s (.cell key) = false ∧ readHeld s (.cell key) e = false ∧ poisoned s.memory key e = false
    let target := fun (va key : Nat) => va % e = 0 ∧ va < 2 ^ 56 ∧ locateWrite s (whoOf t) va 0 = .ok (.cell key)
      ∧ locHeld s (.cell key) = false
    let moves := fun (i : Instr) (second : Bool) => ∃ s' u m, exec i s = .next s' ∧ s'.thr = some u ∧ 1 ≤ m ∧ m ≤ min n 64
      ∧ getG u.line d = getG t.line d + BitVec.ofNat 64 (m * e)
      ∧ getG u.line a = (if second then getG t.line a + BitVec.ofNat 64 (m * e) else getG t.line a)
      ∧ getG u.line b = getG t.line b - BitVec.ofNat 64 m
      ∧ (∀ r, r ≠ d → r ≠ a → r ≠ b → getG u.line r = getG t.line r ∧ getTag u.line r = getTag t.line r)
      ∧ getTag u.line d = 0 ∧ getTag u.line b = 0
      ∧ (m = n → u.line.pc = wordPc t + 4)
      ∧ (u.line.pc = t.line.pc ∨ u.line.pc = wordPc t + 4)
      ∧ ((∀ w', i ≠ .rcmp g d a b w') → m ≠ n → u.line.pc = t.line.pc)
    let stores := fun (i : Instr) (second : Bool) (k : Nat) (v : Nat) => moves i second
      ∧ (n = 1 → Canonical s → ∃ s', exec i s = .next s' ∧ memRead s'.memory k e = v
        ∧ ∀ j, j < k ∨ k + e ≤ j → byteOf s' j = byteOf s j)
    (getTag t.line a = 0 → n = 0 → exec (.rmov g d a b w) s = .next (done s t (counted h t))
        ∧ exec (.rcmp g d a b w) s = .next (done s t (counted h t)))
      ∧ (n = 0 → exec (.rfill g d a b w) s = .next (done s t (counted h t)))
      ∧ (n ≠ 0 → ∀ kp, target p kp → stores (.rfill g d a b w) false kp (q % 256 ^ e))
      ∧ (getTag t.line a = 0 → n ≠ 0 → ∀ kp kq, target p kp → source q kq →
        stores (.rmov g d a b w) true kp (memRead s.memory kq e))
      ∧ (getTag t.line a = 0 → n ≠ 0 → ∀ kp kq, source p kp → source q kq →
        (memRead s.memory kp e = memRead s.memory kq e → moves (.rcmp g d a b w) true
          ∧ ∃ s', exec (.rcmp g d a b w) s = .next s' ∧ s'.memory = s.memory)
        ∧ (memRead s.memory kp e ≠ memRead s.memory kq e →
          exec (.rcmp g d a b w) s = .next (done s t (counted h t))))

/-- tkld, tkred, tkdrop and tkstat act on their entry by R259 to R262 (R253, R259, R260, R261, R262). Where a clause goes past the words of the rules it is the choice of the model: log entries 50 and 99. -/
def Obligations.ticket_words : Prop :=
  ∀ (g : BitVec 4) (d a b p : Reg) (w c : BitVec 2) (s : State) (t : LiveLine),
    let k := getG t.line a
    let entry := ticketEntry s t.line.tenant.toNat t.line.job.toNat k
    let fine := (getTag t.line a = 9 ∨ getTag t.line a = 0) ∧ ticketBad k = false
      ∧ dieHeld s (dieOfSlice (tkSlice k)) = false
    let size := 8 * 2 ^ w.toNat
    (Ready (hdrMod g [d, a] false) s t → getTag t.line a = 0 → ∀ key, k.toNat % size = 0 → k.toNat < 2 ^ 56 →
      ticketSpace k.toNat = true → locate s (whoOf t) .load k.toNat 0 = .ok (.cell key) →
      exec (.tkld g d a w c) s = .next (done
        (sendPkt s (mkPkt s (issueCtx (hdrMod g [d, a] false) t) (.ticket w.toNat c.toNat d) false k.toNat (.cell key))) t
        (setPending (setTag (counted (hdrMod g [d, a] false) t) d 9) d)))
    ∧ (Ready (hdr g [d, a]) s t → fine →
      let l := counted (hdr g [d, a]) t
      (entry = none → exec (.tkstat g d a) s = .next (done s t (setG l d 0 0))
        ∧ exec (.tkdrop g d a) s = .next (done s t (setG l d 0 0)))
      ∧ (∀ i, entry = some i →
        let e := getTicket s (tkSlice k) i
        exec (.tkstat g d a) s = .next (done s t (setG l d (BitVec.ofNat 64 e.state) 0))
          ∧ ∃ s', exec (.tkdrop g d a) s = .next (done s' t (setG l d 1 0)) ∧ s'.memory = s.memory
            ∧ (e.state = 1 → getTicket s' (tkSlice k) i = { e with drop := true })
            ∧ (e.state ≠ 1 → e.gen ≠ 0xFFFF → getTicket s' (tkSlice k) i = { TicketEntry.zero with gen := e.gen + 1 })))
    ∧ (Ready (hdr g [d, a, b]) s t → fine → tkSize k = 0 →
      let l := counted (hdr g [d, a, b]) t
      (∀ i, entry = some i →
        let e := getTicket s (tkSlice k) i
        (e.state = 1 → exec (.tkred g d a b p) s = .next (waiting s t (waitTag 6 (k.toNat % 2 ^ 42))))
        ∧ (e.state = 2 → ∃ s', exec (.tkred g d a b p) s
            = .next (done s' t (setG (setQ l p 0) d (BitVec.ofNat 64 (leNat (e.data.take 8))) 0))
          ∧ (e.gen ≠ 0xFFFF → getTicket s' (tkSlice k) i = { TicketEntry.zero with gen := e.gen + 1 })
          ∧ s'.memory = s.memory))
      ∧ (entry = none → t.line.tfb = false →
        exec (.tkred g d a b p) s = .next (trapped s t (mkTrap 23 (k.toNat % 2 ^ 42) 0))))

/-- mpost, mexp, mwait and mread act on the named counter by R173 (R173, R149, R148, R157). Where a clause goes past the words of the rules it is the choice of the model: log entries 8 and 95. -/
def Obligations.counter_words : Prop :=
  ∀ (g : BitVec 4) (d a b : Reg) (c : BitVec 2) (s : State) (t : LiveLine),
    let name := (getG t.line a).toNat
    let inc := getG t.line b
    let core := name / 64
    let i := name % 64
    let e := getCounter s core i
    let valid := e.valid = true ∧ e.tenant = t.line.tenant.toNat
    let tag4 := waitTag 4 (inc.toNat % 2 ^ 32 + i * 2 ^ 32 + core * 2 ^ 38)
    getTag t.line a = 0 → name < 2 ^ 17 → (getDie s (core / 256)).state ≠ 3 → dieHeld s (core / 256) = false →
    (Ready (hdrRel g [a, b] (c != 0)) s t → getTag t.line b = 0 → inc.toNat < 2 ^ 32 →
      let h := hdrRel g [a, b] (c != 0)
      (ackOf (issueCtx h t) = false → exec (.mpost g a b c) s = .next (done
        (sendPkt s (mkPkt s (issueCtx h t) (.post name inc.toNat) false name (.mbox core (16 * i))))
        { t with stores := t.stores + 1 } (openWindow (counted h t) 0)))
      ∧ (ackOf (issueCtx h t) = true → postAhead s t.tenant t.addr name s.nextId = false → valid →
        ∃ s', exec (.mpost g a b c) s = .next (done s' t (counted h t)) ∧ s'.memory = s.memory
          ∧ getCounter s' core i = { e with cnt := e.cnt + inc.setWidth 32 }))
    ∧ (Ready (hdr g [a, b]) s t → getTag t.line b = 0 → valid →
      (inc.toNat < 2 ^ 32 →
        ((e.exp + inc.setWidth 32 - e.cnt).msb = false →
          ∃ s', exec (.mexp g a b) s = .next (done s' t (counted (hdr g [a, b]) t)) ∧ s'.memory = s.memory
            ∧ getCounter s' core i = { e with exp := e.exp + inc.setWidth 32 })
        ∧ ((e.exp + inc.setWidth 32 - e.cnt).msb = true →
          ∃ s' u, exec (.mexp g a b) s = .next s' ∧ (getCounter s' core i).ovf = true ∧ (getCounter s' core i).exp = e.exp
            ∧ s'.thr = some u ∧ u.line.wait = 0xA000000000000000 ∧ u.line.fcode = 17))
      ∧ ((e.cnt - inc.setWidth 32).msb = false →
        exec (.mwait g a b c) s = .next (done s t (counted (hdr g [a, b]) t)))
      ∧ ((e.cnt - inc.setWidth 32).msb = true → exec (.mwait g a b c) s = .next (waiting s t tag4)))
    ∧ (Ready (hdr g [d, a]) s t →
      (valid → exec (.mread g d a c) s
        = .next (done s t (setG (counted (hdr g [d, a]) t) d (e.exp ++ e.cnt) 0)))
      ∧ (¬ valid → exec (.mread g d a c) s = .next (done s t (setG (counted (hdr g [d, a]) t) d 0 0))))

/-- spawn pushes a record and raises its counter; cancel removes the record it names and lowers the counter (R162, R170, R136, R139, R141). Where a clause goes past the words of the rules it is the choice of the model: log entries 18 and 66. -/
def Obligations.spawn_and_cancel : Prop :=
  ∀ (g : BitVec 4) (d a b : Reg) (p : BitVec 4) (ss : BitVec 2) (s : State) (t : LiveLine), Canonical s →
    let tn := t.line.tenant.toNat
    let core := coreOfPlace t.place
    let records := fun (s : State) (c : Nat) => (getCore s c).ring ++ (getCore s c).deque
    let counts := fun (s' : State) (k : Nat) (by_ : Word) => memWord s'.memory k = memWord s.memory k + by_
      ∧ ∀ j, j < k ∨ k + 8 ≤ j → byteOf s' j = byteOf s j
    let free := fun (k : Nat) => locHeld s (.cell k) = false ∧ readHeld s (.cell k) 8 = false ∧ poisoned s.memory k 8 = false
    (let h := hdr g [d, a, b, 0, 1, 2, 3]
      let x := getG t.line a
      let j := getG t.line b
      let r : TaskRec :=
        { pc := x.setWidth 48, g0 := getG t.line 0, g1 := getG t.line 1, g2 := getG t.line 2, g3 := getG t.line 3,
          jaddr := j.setWidth 56, tenant := tn, job := t.line.job.toNat,
          prio := if p.ult t.line.prio then p else t.line.prio, sdom := ss, cont := false,
          tags := getTag t.line 3 ++ getTag t.line 2 ++ getTag t.line 1 ++ getTag t.line 0,
          origin := core, serial := (getCore s core).serial, held := false }
      let id : Word := BitVec.ofNat 64 ((getCore s core).serial.toNat + core * 2 ^ 32)
      let pushed := fun (s' : State) => records s' core = records s core ++ [r]
        ∧ (getCore s' core).serial = (getCore s core).serial + 1
      Ready h s t → (getTag t.line a = 0x0C ∨ getTag t.line a = 0) → getTag t.line b = 0 → codeAligned x = true →
        AccessesDone s t → (dequePush (getCore s core) r).isSome = true → t.req = none → t.replies = [] →
        (j = 0 → ∃ s', exec (.spawn g d a b p ss) s = .next (done s' t (setG (counted h t) d id 0)) ∧ pushed s'
          ∧ s'.memory = s.memory)
        ∧ (∀ k, j ≠ 0 → counterLoc s (issueCtx h t) j.toNat = .ok (.cell k) → free k →
          ∃ s', exec (.spawn g d a b p ss) s = .next (done s' t (setG (counted h t) d id 0)) ∧ pushed s' ∧ counts s' k 1))
    ∧ (let h := hdr g [d, a, b, 0, 1, 2, 3]
      Ready h s t → (getTag t.line a = 0x0C ∨ getTag t.line a = 0) → getTag t.line b = 0 → codeAligned (getG t.line a) = true →
        getG t.line b = 0 → t.stores ≠ 0 → t.req = none → t.replies = [] →
        exec (.spawn g d a b p ss) s = .next (draining s t .stores))
    ∧ (let h := hdr g [d, a]
      let x := getG t.line a
      let origin := x.toNat / 2 ^ 32
      let named := fun (r : TaskRec) => isRecord tn origin (x.setWidth 32) r
      Ready h s t → getTag t.line a = 0 → x.toNat < 2 ^ 43 → t.req = none → t.replies = [] →
        ((records s origin).find? named = none →
          exec (.cancel g d a) s = .next (done s t (setG (counted h t) d 0 0)))
        ∧ (∀ r, (records s origin).find? named = some r → (getCore s origin).serial ≠ 0 →
          let gone := fun (s' : State) => (∀ q, q ≠ r → (records s' origin).count q = (records s origin).count q)
            ∧ (records s' origin).count r < (records s origin).count r ∧ ∀ c, c ≠ origin → getCore s' c = getCore s c
          (r.jaddr = 0 → ∃ s', exec (.cancel g d a) s = .next (done s' t (setG (counted h t) d 1 0)) ∧ gone s'
            ∧ s'.memory = s.memory)
          ∧ (∀ k, r.jaddr ≠ 0 → drained s t = true → locateWrite s (whoOf t) r.jaddr.toNat 0 = .ok (.cell k) → free k →
            ∃ s', exec (.cancel g d a) s = .next (done s' t (setG (closedWindow (counted h t) true) d 1 0)) ∧ gone s'
              ∧ counts s' k (-1))))

/-- exit retires its drained line, and go and goc send it to a core of the place they name (R134, R165, R143, R144, R167). Where a clause goes past the words of the rules it is the choice of the model: log entries 18, 48, 61, 80 and 88. -/
def Obligations.thread_ends_and_moves : Prop :=
  ∀ (g : BitVec 4) (a : Reg) (s : State) (t : LiveLine), drained s t = true → dirHeld s t = false → t.req = none → t.replies = [] →
    let ended := fun (s' : State) => s'.thr = none ∧ findLine s' t.tenant t.addr = none
    let plain := t.line.root = false ∧ t.derr = [] ∧ heldLines s t.tenant t.addr = []
    let moved := fun (i : Instr) (h : Hdr) (ok : Nat → Prop) => ∃ s' x core, exec i s = .next s' ∧ s'.thr = none ∧ ok core
      ∧ findLine s' t.tenant t.addr = some x ∧ x.place = .flight core ∧ x.md = none
      ∧ x.line = { counted h t with pc := wordPc t + 4, lver := t.line.lver + 1 } ∧ s'.memory = s.memory
    (Ready (hdr g []) s t → ∃ s', exec (.exit g) s = .next s' ∧ ended s' ∧ (plain → s'.memory = s.memory))
    ∧ (Ready (hdr g [a]) s t → getTag t.line a = 0 →
      let v := (getG t.line a).toNat
      (∀ k, counterLoc s (issueCtx (hdr g [a]) t) v = .ok (.cell k) → locHeld s (.cell k) = false →
        readHeld s (.cell k) 8 = false → poisoned s.memory k 8 = false →
        ∃ s', exec (.exitCounter g a) s = .next s' ∧ ended s' ∧ (plain → Canonical s →
          memWord s'.memory k = memWord s.memory k - 1 ∧ ∀ j, j < k ∨ k + 8 ≤ j → byteOf s' j = byteOf s j))
      ∧ (∀ cl, goTarget s (whoOf t) v = .ok (.cluster cl) → (getDie s (cl / 32)).state < 2 →
        moved (.go g a) (hdr g [a]) fun core => core / 8 = cl)
      ∧ (∀ die, goTarget s (whoOf t) v = .ok (.die die) → (getDie s die).state < 2 →
        moved (.go g a) (hdr g [a]) fun core => core / 256 = die)
      ∧ (v < 2 ^ 11 → (getDie s (v / 256)).state < 2 → moved (.goc g a) (hdr g [a]) fun core => core = v)
      ∧ (2 ^ 11 ≤ v → exec (.goc g a) s = .next (trapped s t (mkTrap 11 a.toNat 0))))

/-- join, waitne and waiteq go on when their condition holds and wait otherwise; yield gives its slot up; self names the line (R163, R164, R169, R171, R157). Where a clause goes past the words of the rules it is the choice of the model: log entries 11 and 73. -/
def Obligations.thread_waits : Prop :=
  ∀ (g : BitVec 4) (d a b : Reg) (w c : BitVec 2) (s : State) (t : LiveLine) (k : Nat),
    let va := (getG t.line a).toNat
    let found := fun (n : Nat) => va % n = 0 ∧ va < 2 ^ 56 ∧ locate s (whoOf t) .load va 0 = .ok (.cell k)
      ∧ locHeld s (.cell k) = false ∧ readHeld s (.cell k) n = false ∧ poisoned s.memory k n = false
    let size := 8 / 2 ^ w.toNat
    let v := memRead s.memory k size
    (Ready (hdr g [a]) s t → getTag t.line a = 0 → found 8 →
      exec (.join g a) s = .next (if memRead s.memory k 8 = 0 then done s t (counted (hdr g [a]) t)
        else waiting s t (waitTag 7 va)))
    ∧ (Ready (hdr g [d, a, b]) s t → getTag t.line a = 0 → getTag t.line b = 0 → found size →
      let same := v = (getG t.line b).toNat % 2 ^ (8 * size)
      let goes := done s t (setG (counted (hdr g [d, a, b]) t) d (BitVec.ofNat 64 v) 0)
      (same → exec (.waiteq g d a b w c) s = .next goes ∧ exec (.waitne g d a b w c) s = .next (waiting s t (waitTag 3 va)))
        ∧ (¬ same → exec (.waitne g d a b w c) s = .next goes
          ∧ exec (.waiteq g d a b w c) s = .next (waiting s t (waitTag 3 va))))
    ∧ (Ready (hdr g []) s t → ∀ core slot, t.place = .slot core slot →
      (hasCandidate s core = false → exec (.yield g) s = .next (done s t (counted (hdr g []) t)))
      ∧ (hasCandidate s core = true → exec (.yield g) s = .next (done s { t with yieldOf := some (core, slot) }
        { counted (hdr g []) t with wait := 0x9000000000000000 })))
    ∧ (Ready (hdr g [d]) s t →
      exec (.self g d) s = .next (done s t (setG (counted (hdr g [d]) t) d (BitVec.ofNat 64 t.addr) 0)))

/-- enq, deq, qlen, qmake and qfree act on the queue their name gives by R175 to R178 (R150, R175, R176, R177, R178). Where a clause goes past the words of the rules it is the choice of the model: log entries 49, 67, 81, 85, 95, 96 and 97. -/
def Obligations.queue_words : Prop :=
  ∀ (g : BitVec 4) (d a b q : Reg) (c : BitVec 2) (s : State) (t : LiveLine), getTag t.line a = 0 → Canonical s →
    let name := (getG t.line a).toNat
    let tn := t.line.tenant.toNat
    let loc := entryLoc s tn t.line.job.toNat (.core (coreOfPlace t.place))
    (Ready (hdrRel g [a, b] (c != 0)) s t → name < 2 ^ 32 → ackOf (issueCtx (hdrRel g [a, b] (c != 0)) t) = false →
      exec (.enq g a b c) s = .next (done (sendPkt s (mkPkt s (issueCtx (hdrRel g [a, b] (c != 0)) t)
        (.push name (getG t.line b)) false (entryVa s tn (queueNum name)) pushLoc)) { t with stores := t.stores + 1 }
        (openWindow (counted (hdrRel g [a, b] (c != 0)) t) 0)))
    ∧ (∀ key, name < 2 ^ 32 → loc (queueNum name) = .ok key →
      let e := readEntry s.memory key
      poisoned s.memory key 32 = false → namesLive s tn name e = true → e.state = 1 →
      imageSwapped s (whoOf t) e.image.toNat (imagePages e.log2cap.toNat) = none →
      (Ready (hdr g [d, a]) s t → ∀ i, tableLoc s (whoOf t) (elemVa e e.head) = .ok i →
        let l := counted (hdr g [d, a]) t
        exec (.qlen g d a) s = .next (done s t (setG l d ((e.tail - e.head).setWidth 64) 0))
          ∧ (e.tail = e.head → exec (.deq g d a q c) s = .next (done s t (setQ (setG l d 0 0) q 0)))
          ∧ (e.tail ≠ e.head → poisoned s.memory i 8 = false →
            ∃ s', exec (.deq g d a q c) s = .next (done s' t (setQ (setG l d (memWord s.memory i) 0) q 0xFF))
              ∧ readEntry s'.memory key = { e with head := e.head + 1 }
              ∧ ∀ j, j < key ∨ key + 24 ≤ j → byteOf s' j = byteOf s j))
      ∧ (Ready (hdr g [a]) s t →
        ∃ s', exec (.qfree g a) s = .next (done s' t (counted (hdr g [a]) t))
          ∧ readEntry s'.memory key = { e with state := 0, gen := e.gen + 1 }
          ∧ ∀ j, j < key ∨ key + 24 ≤ j → byteOf s' j = byteOf s j))
    ∧ (Ready (hdr g [d, a, b]) s t → getTag t.line b = 0 →
      let num := name % 2 ^ 20
      let cap := name / 2 ^ 20 % 2 ^ 5
      let base := (getG t.line b).toNat
      name < 2 ^ 43 → num < (getTenant s tn).qtabLen → 4 ≤ cap → cap ≤ 20 → base % (8 * 2 ^ cap) = 0 → base < 2 ^ 56 →
      imageStop s (whoOf t) base ((8 * 2 ^ cap + 65535) / 65536) = none →
      ∀ key, loc num = .ok key → poisoned s.memory key 32 = false → (readEntry s.memory key).state = 0 →
        ∃ s', exec (.qmake g d a b) s = .next (done s' t (setG (counted (hdr g [d, a, b]) t) d
            (BitVec.ofNat 64 (num + (readEntry s.memory key).gen.toNat * 2 ^ 20)) 0))
          ∧ readEntry s'.memory key = ⟨(readEntry s.memory key).gen, 1, (readEntry s.memory key).owner, BitVec.ofNat 5 cap, (getG t.line a).getLsbD 25,
            (getG t.line a).extractLsb' 26 6, (getG t.line a).extractLsb' 32 11, BitVec.ofNat 56 base, 0, 0⟩
          ∧ ∀ j, j < key ∨ key + 24 ≤ j → byteOf s' j = byteOf s j)

/-- talloc, tfree, tdesc and tinfo act on the tile descriptor table by R266 to R269 (R191, R193, R194, R195, R266, R267, R268, R269). Where a clause goes past the words of the rules it is the choice of the model: log entries 83, 84 and 86. -/
def Obligations.tile_words : Prop :=
  ∀ (g : BitVec 4) (d a b : Reg) (s : State) (t : LiveLine),
    let tn := t.line.tenant.toNat
    let others := fun (s' : State) (cl i : Nat) => (∀ x j, (x ≠ cl ∨ j ≠ i) → getTdt s' x j = getTdt s x j)
    let template := fun (r : Reg) (cl key : Nat) => (getG t.line r).toNat % 32 = 0 ∧ (getG t.line r).toNat < 2 ^ 56
      ∧ locate s (whoOf t) .load (getG t.line r).toNat 0 = .ok (.cell key) ∧ locHeld s (.cell key) = false
      ∧ (∀ i, i < 4 → readHeld s (.cell (key + 8 * i)) 8 = false ∧ poisoned s.memory (key + 8 * i) 8 = false
        ∧ locHeld s (.cell (key + 8 * i)) = false)
      ∧ (getDie s (dieOfCluster cl)).state < 3 ∧ dieHeld s (dieOfCluster cl) = false
      ∧ templateOk s cl (memRead s.memory key 32) = true
      ∧ tileNotOwned s tn cl (tdtOf (memRead s.memory key 32)) = none
    let handle := fun (cl i : Nat) (gen : BitVec 12) => setG (counted (hdr g [d, a, b]) t) d
      (BitVec.ofNat 64 (cl * 2 ^ 24 + i * 2 ^ 12 + gen.toNat)) 8
    (Ready (hdr g [d, a, b]) s t → getTag t.line a = 0 → getTag t.line b = 0 →
      let p := (getG t.line b).toNat
      let cl := p / 32 % 8 * 32 + p % 32
      (∀ key, t.req = none → t.replies = [] → template a cl key → p < 2 ^ 22 →
      let e := tdtOf (memRead s.memory key 32)
      let entry := fun (i : Nat) (st : BitVec 2) =>
        ({ e with gen := (getTdt s cl i).gen, state := st, tenant := BitVec.ofNat 8 tn } : TdtEntry)
      let gives := fun (i : Nat) => ∃ s', s'.memory = s.memory ∧ others s' cl i
        ∧ (p / 2 ^ 8 % 2 = 0 → exec (.talloc g d a b) s = .next (done s' t (handle cl i (getTdt s cl i).gen))
          ∧ getTdt s' cl i = entry i 2)
        ∧ (p / 2 ^ 8 % 2 = 1 → exec (.talloc g d a b) s = .next s' ∧ getTdt s' cl i = entry i 1
          ∧ s'.thr = some { t with req := some (scrubMark cl i), cool := 7 })
      (p / 2 ^ 21 = 1 → (getTdt s cl (p / 2 ^ 9 % 2 ^ 12)).state = 0 → gives (p / 2 ^ 9 % 2 ^ 12))
      ∧ (p / 2 ^ 9 = 0 → ∀ i, i < 4096 → (getTdt s cl i).state = 0 → (∀ j, j < i → (getTdt s cl j).state ≠ 0) → gives i))
      ∧ (∀ i, i < 4096 → t.req = some (scrubMark cl i) → (getDie s (dieOfCluster cl)).state < 3 →
        dieHeld s (dieOfCluster cl) = false →
        ∃ s', exec (.talloc g d a b) s = .next (done s' t (handle cl i (getTdt s cl i).gen))
          ∧ getTdt s' cl i = { getTdt s cl i with state := 2 } ∧ others s' cl i
          ∧ let e := getTdt s cl i
            let within := fun (k : Nat) => ∃ r ∈ e.ranges, ∃ o, r.1 ≤ o ∧ o < r.1 + r.2 ∧ k = tileKey cl e o
            e.base.toNat % 64 = 0 → e.bexp.toNat % 64 = 0 → e.stride.toNat % 64 = 0 →
              (∀ j, ¬ within j → byteOf s' j = byteOf s j)
                ∧ (Canonical s → ∀ j, within j → byteOf s' j = 0 ∧ feAt s'.memory j = false)))
    ∧ (∀ (x : Tile), t.req = none → t.replies = [] → dieHeld s (dieOfCluster x.cl) = false → x.desc = getTdt s x.cl (handleIndex x.handle) →
      (Ready (hdr g [a]) s t → tileOperand s (issueCtx (hdr g [a]) t) a = .ok x → x.desc.gen ≠ 0xFFF →
        ∃ s', exec (.tfree g a) s = .next (done s' t (counted (hdr g [a]) t))
          ∧ getTdt s' x.cl (handleIndex x.handle) = { TdtEntry.zero with gen := x.desc.gen + 1 }
          ∧ others s' x.cl (handleIndex x.handle) ∧ s'.memory = s.memory)
      ∧ (Ready (hdr g [d, a, b]) s t → getTag t.line b = 0 → tileOperand s (issueCtx (hdr g [d, a, b]) t) a = .ok x →
        ∀ key, template b x.cl key → x.desc.state ≠ 0 →
        ∃ s', exec (.tdesc g d a b) s = .next (done s' t (handle x.cl (handleIndex x.handle) (x.desc.gen + 1)))
          ∧ getTdt s' x.cl (handleIndex x.handle)
            = { tdtOf (memRead s.memory key 32) with gen := x.desc.gen + 1, state := x.desc.state, tenant := x.desc.tenant }
          ∧ others s' x.cl (handleIndex x.handle) ∧ s'.memory = s.memory)
      ∧ (Ready (hdr g [d, a]) s t → tileOperand s (issueCtx (hdr g [d, a]) t) a = .ok x →
        exec (.tinfo g d a b 0) s = .next (done s t (setG (counted (hdr g [d, a]) t) d (tileSummary x.desc) 0)))
      ∧ (Ready (hdr g [d, a, b]) s t → tileOperand s (issueCtx (hdr g [d, a, b]) t) a = .ok x → getTag t.line b = 0 →
        (getG t.line b).toNat % 32 = 0 → (getG t.line b).toNat < 2 ^ 56 → Canonical s →
        ∀ key, locateWrite s (whoOf t) (getG t.line b).toNat 0 = .ok (.cell key) →
        (∀ i, i < 4 → locHeld s (.cell (key + 8 * i)) = false) →
        ∃ s', exec (.tinfo g d a b 1) s
            = .next (done s' t (setG (counted (hdr g [d, a, b]) t) d (tileSummary x.desc) 0))
          ∧ memRead s'.memory key 32 = tdtNat x.desc ∧ ∀ j, j < key ∨ key + 32 ≤ j → byteOf s' j = byteOf s j))

/-- lw, lswap, ldrain, lcfg and lstream put one command in the queue of their Last, and what planes and rows then become (R296, R297, R305, R310, R323, R326, R354, R360, R361, R362, R364, R365). Where a clause goes past the words of the rules it is the choice of the model: log entries 2, 7, 10 and 104. -/
def Obligations.last_words : Prop :=
  ∀ (g : BitVec 4) (d a : Reg) (x : BitVec 1) (ss : BitVec 4) (aq r : BitVec 1) (c : BitVec 2) (s : State) (t : LiveLine),
    let cl := clusterOf (coreOfPlace t.place)
    let f : EForm := ⟨x, ss, aq, r, c⟩
    let va := (getG t.line a).toNat
    let q := fun (op : CmdOp) (post : Option (Nat × Nat)) => (⟨lastOf cl, f, cl, d, none, post, op, false⟩ : Capture)
    (Ready (hdr g [d]) s t →
      (Enters s t (dieOfCluster cl) (q .lswap none) →
        Captures (exec (.lswap g d x ss aq r c) s) s (hdr g [d]) t (q .lswap none)
          ∧ Captures (exec (.ldrain g d x ss aq r c) s) s (hdr g [d]) t (q .ldrain none))
      ∧ (Serves s (dieOfCluster cl) → guardFree s t.line.tenant.toNat cl f = true →
        exec (.lswap g d x ss aq r c) s = .next (trapped s t (mkTrap 31 ss.toNat 0))
          ∧ exec (.ldrain g d x ss aq r c) s = .next (trapped s t (mkTrap 31 ss.toNat 0))))
    ∧ (Ready (hdr g [d, a]) s t → Enters s t (dieOfCluster cl) (q .lswap none) →
      (∀ w, tileOperand s (issueCtx (hdr g [d, a]) t) a = .ok w →
        (weightOk cl w = true → Captures (exec (.lw g d a x ss aq r c) s) s (hdr g [d, a]) t (q (.lw w) none))
          ∧ (weightOk cl w = false → exec (.lw g d a x ss aq r c) s = .next (trapped s t (mkTrap 30 63 0))))
      ∧ (getTag t.line a = 0 →
        (va < 4 → Captures (exec (.lcfg g d a x ss aq r c) s) s (hdr g [d, a]) t (q (.lcfg (va % 2 == 1) (va / 2 == 1)) none))
          ∧ (4 ≤ va → exec (.lcfg g d a x ss aq r c) s = .next (trapped s t (mkTrap 11 a.toNat 0)))
          ∧ (t.req = none → t.replies = [] → ∀ key, Readable s t va 64 key →
            let n := memRead s.memory key 64
            ∀ act dst stg, blockTiles s (issueCtx (hdr g [d, a]) t) (streamHandles n) = .ok (act :: dst :: stg) →
              (firstBad (streamChecks s cl (planeAhead s cl) n act dst stg.head?) = none →
                Captures (exec (.lstream g d a x ss aq r c) s) s (hdr g [d, a]) t
                  (q (.lstream act dst stg.head? (BitVec.ofNat 48 (bfield n 128 48)) (bfield n 177 1 == 1) (bfield n 178 1 == 1)
                    (bfield n 179 1 == 1) (BitVec.ofNat 64 (bfield n 192 64))) (postOf n 256)))
              ∧ ∀ b, firstBad (streamChecks s cl (planeAhead s cl) n act dst stg.head?) = some b →
                exec (.lstream g d a x ss aq r c) s = .next (trapped s t (mkTrap 30 b va)))))
    ∧ (∀ (cl : Nat) (k : Cmd), cl < 256 → Works s (lastOf cl) k →
      let old := getCluster s cl
      let mine := fun (p : Plane) => p.tenant = k.tenant ∧ p.job = k.job
      (∀ w, k.op = .lw w → Completes s (lastOf cl) k fun s' => s'.memory = s.memory ∧ (getCluster s' cl).active = old.active ∧
        let p := (getCluster s' cl).shadow
        p.k = w.desc.rows ∧ p.n = w.desc.cols ∧ p.fmt = w.desc.fmt.toNat ∧ mine p
          ∧ (∀ i j, i < p.k → j < p.n → p.elem i j = tileBits s w i j)
          ∧ (∀ m j, m < blocks32 p.k → j < p.n → (p.exps.getD m []).getD j 0 = tileExp s w (m * p.n + j))
          ∧ ∀ i, i < p.k → p.scale i = rowScale s w i)
      ∧ (∀ u v, k.op = .lcfg u v → Completes s (lastOf cl) k fun s' => s'.memory = s.memory
        ∧ (u = true → mine old.shadow → (getCluster s' cl).shadow = Plane.zero)
        ∧ (u = false ∨ ¬ mine old.shadow → (getCluster s' cl).shadow = old.shadow)
        ∧ (v = true → mine old.active → (getCluster s' cl).active = Plane.zero)
        ∧ (v = false ∨ ¬ mine old.active → (getCluster s' cl).active = old.active))
      ∧ (∀ act dst he acc spz rtz arg, k.op = .lstream act dst none he acc spz rtz arg → k.at_ < act.desc.rows →
        let n := choose s (act.desc.rows - k.at_)
        let next := k.at_ + n.1 + 1
        let output := fun (s : State) (i col : Nat) => lastOutput old.active ((List.range old.active.k).map (tileElem s act i))
          (rowScale s act i) col (if acc then tileBits s dst i col else 0)
        let row := fun (s : State) (i : Nat) => (List.range old.active.n).map fun col =>
          (elemBits dst.desc.fmt.toNat (b2n rtz) false (flushed fmt32 (output s i col).1)).1
        ∃ s', exec (.commandCompletion (lastOf cl) k.entry) s = .next s'
          ∧ s'.memory = ((List.range (n.1 + 1)).foldl (fun s i => writeRow dst (k.at_ + i) (row s (k.at_ + i)) s) n.2).memory
          ∧ (getCluster s' cl).active = old.active ∧ (getCluster s' cl).shadow = old.shadow
          ∧ (next = act.desc.rows → Ended s s' (lastOf cl) k 4)
          ∧ (next < act.desc.rows → ∃ c ∈ (getEngine s' (lastOf cl)).running, c.entry = k.entry ∧ c.at_ = next)))
    ∧ (∀ (p : Plane) (acts : List Fv) (sa : Option Fv) (A W : Nat → ℚ) (sw sx : ℚ) (b n col start : Nat),
      let size := if isBfp p.fmt then 32 else 64
      let lo := b * size
      let ex := (p.exps.getD b []).getD col 0
      let word := fun (k : Nat) => (lastOutput { p with k := k } acts sa col start).1
      word 0 = start ∧ (0 < n → n ≤ size →
        (∀ x, x < n → ratOf (acts.getD (lo + x) (.zero false)) = some (A x)) →
        (isBfp p.fmt = true → ex ≠ 255 ∧ ∀ x, x < n → W x = if ex = 0 then 0
          else ((signed (p.elem (lo + x) col) (p.fmt - 4) : Int) : ℚ) * (2 : ℚ) ^ ((ex : Int) - 127 - ((p.fmt : Int) - 6))) →
        (isBfp p.fmt = false → ∀ x, x < n → ratOf (elemValue p.fmt (p.elem (lo + x) col) 0) = some (W x)) →
        (p.scale lo).elim (some 1) ratOf = some sw → sa.elim (some 1) ratOf = some sx →
        ∃ v, ratOf v = some (((List.range n).map fun x => A x * W x).sum * sw * sx)
          ∧ word (lo + n) = (roundEv fmt32 0 (evAdd (flushed fmt32 (word lo)) v).1).1))

/-- The twelve tread words put one command at the end of the queue of their tread unit, and what its tiles then hold (R289, R294, R300, R302, R334, R335, R354, R356, R358, R368, R369, R370). Where a clause goes past the words of the rules it is the choice of the model: log entries 7, 9, 10, 74 and 104. -/
def Obligations.tread_words : Prop :=
  ∀ (g : BitVec 4) (d a b : Reg) (x : BitVec 1) (ss : BitVec 4) (aq r : BitVec 1) (c : BitVec 2) (s : State) (t : LiveLine),
    let cl := clusterOf (coreOfPlace t.place)
    let f : EForm := ⟨x, ss, aq, r, c⟩
    let va := (getG t.line a).toNat
    let issues := fun (i : Instr) (h : Hdr) (fn : Nat) (b : Reg) =>
      Ready h s t → getTag t.line a = 0 → t.req = none → t.replies = [] → ∀ key, Readable s t va 64 key →
        let n := memRead s.memory key 64
        let rreg := bfield n 131 1 == 1
        ∀ u, treadTiles s (issueCtx h t) fn n = .ok u →
          let q : Capture := ⟨treadOf cl, f, cl, d, if rreg then some (b, tredTag u) else none, postOf n 132,
            .tread fn u.dst (some u.src1) u.src2 u.src3 (bfield n 128 2) (bfield n 130 1 == 1), false⟩
          Enters s t (dieOfCluster cl) q →
          (firstBad (treadChecks cl fn n b d u) = none → Captures (exec i s) s h t q)
            ∧ ∀ k, firstBad (treadChecks cl fn n b d u) = some k → exec i s = .next (trapped s t (mkTrap 30 k va))
    let two := hdr g [d, a]
    issues (.tadd g d a x ss aq r c) two 0 0 ∧ issues (.tmul g d a x ss aq r c) two 1 0 ∧ issues (.tfma g d a x ss aq r c) two 2 0
      ∧ issues (.tmax g d a x ss aq r c) two 3 0 ∧ issues (.tmin g d a x ss aq r c) two 4 0
      ∧ issues (.texp2 g d a x ss aq r c) two 5 0 ∧ issues (.trcp g d a x ss aq r c) two 6 0
      ∧ issues (.trsqrt g d a x ss aq r c) two 7 0 ∧ issues (.tcvt g d a x ss aq r c) two 8 0
      ∧ issues (.tred g d a b x ss aq r c) (hdr g [d, a, b]) 9 b
      ∧ issues (.tsel g d a x ss aq r c) two 10 0 ∧ issues (.ttrn g d a x ss aq r c) two 11 0
      ∧ (∀ (cl : Nat) (k : Cmd) (x : Tile) (y z : Option Tile) (red : Nat) (rtz : Bool), cl < 256 → Works s (treadOf cl) k →
        let at_ := fun (t : Option Tile) (i j : Nat) => match t with
          | some t => (tileValue s t (if t.desc.rows = 1 then 0 else i) (if t.desc.cols = 1 then 0 else j)).1
          | none => .zero false
        let written := fun (dst : Tile) (quiet : Bool) (out : Nat → Nat → Fv) => Completes s (treadOf cl) k fun s' => s'.memory
          = (writeTile s dst (b2n rtz) quiet ((List.range dst.desc.rows).map fun i => (List.range dst.desc.cols).map (out i))).1.memory
        let row := fun (i : Nat) => (List.range x.desc.cols).map fun j => (tileValue s x i j).1
        let summed := fun (i : Nat) => (List.range ((x.desc.cols + 63) / 64)).foldl (fun acc b =>
          (roundEv fmt32 0 (evAdd (flushed fmt32 acc) (evSum (((row i).drop (64 * b)).take 64)).1).1).1) 0
        let reduced := fun (i : Nat) => if red = 0 then (if isIntFmt x.desc.fmt.toNat then (evSum (row i)).1 else flushed fmt32 (summed i))
          else (row i).tail.foldl (fun r v => (evPick (red == 1) r v).1) ((row i).headD (.zero false))
        (∀ fn dst, k.op = .tread fn (some dst) (some x) y z red rtz →
          (fn = 0 → written dst true fun i j => (evAdd (at_ x i j) (at_ y i j)).1)
          ∧ (fn = 1 → written dst true fun i j => (evMul (at_ x i j) (at_ y i j)).1)
          ∧ (fn = 2 → written dst true fun i j => (evAdd (evMul (at_ x i j) (at_ y i j)).1 (at_ z i j)).1)
          ∧ (fn = 3 → written dst true fun i j => (evPick true (at_ x i j) (at_ y i j)).1)
          ∧ (fn = 4 → written dst true fun i j => (evPick false (at_ x i j) (at_ y i j)).1)
          ∧ (fn = 5 → written dst true fun i j => (evExp2 (at_ x i j)).1)
          ∧ (fn = 6 → written dst true fun i j => (evRcp (at_ x i j)).1)
          ∧ (fn = 7 → written dst true fun i j => (evRsqrt (at_ x i j)).1)
          ∧ (fn = 8 → written dst false fun i j => at_ x i j)
          ∧ (fn = 9 → written dst true fun i _ => reduced i)
          ∧ (fn = 10 → written dst false fun i j => if fvZero (at_ x i j) then at_ z i j else at_ y i j)
          ∧ (fn = 11 → Completes s (treadOf cl) k fun s' => s'.memory = (writeRows dst 0 ((List.range dst.desc.rows).map fun j =>
            (List.range dst.desc.cols).map fun i => tileBits s x i j) s).memory))
        ∧ (∀ b, k.op = .tread 9 none (some x) y z red rtz → k.res = some b → Completes s (treadOf cl) k fun s' => s'.memory = s.memory
          ∧ ⟨k.tenant, k.line, .result b (if isIntFmt x.desc.fmt.toNat
              then BitVec.ofInt 64 (evToInt 0 (-2 ^ 63) (2 ^ 63 - 1) (reduced 0)).1
              else BitVec.ofNat 64 (roundEv fmt32 0 (reduced 0)).1) 0, none, s.dmgen⟩ ∈ s'.msgs))
      ∧ (∀ (u v : Fv) (p q : ℚ), ratOf u = some p → ratOf v = some q →
        ratOf (evAdd u v).1 = some (p + q) ∧ ratOf (evMul u v).1 = some (p * q)
          ∧ ratOf (evPick true u v).1 = some (max p q) ∧ ratOf (evPick false u v).1 = some (min p q)
          ∧ (p ≠ 0 → ∃ k, ratOf (evRcp u).1 = some k ∧ |k * p - 1| < 1 / 2 ^ 60)
          ∧ (0 < p → ∃ k, ratOf (evRsqrt u).1 = some k ∧ |k ^ 2 * p - 1| < 1 / 2 ^ 60)
          ∧ ∀ k : Int, p = k → k ≠ 0 → |k| < 2 ^ 13 → ratOf (evExp2 u).1 = some ((2 : ℚ) ^ k))
      ∧ (∀ l : List Fv, (∀ v ∈ l, ratOf v ≠ none) → ratOf (evSum l).1 = some (l.map fun v => (ratOf v).getD 0).sum)
      ∧ (∀ (n : Bool) (m : Nat) (e : Int), evRcp (.zero n) = (.inf n, 2) ∧ evRcp (.inf n) = (.zero n, 0)
        ∧ evRsqrt (.zero n) = (.inf n, 2) ∧ evRsqrt (.inf false) = (.zero false, 0)
        ∧ evRsqrt (.inf true) = (.nan true false 0, 1) ∧ evRsqrt (.fin true m e) = (.nan true false 0, 1)
        ∧ evExp2 (.zero n) = (.fin false 1 0, 0) ∧ evExp2 (.inf false) = (.inf false, 0) ∧ evExp2 (.inf true) = (.zero false, 0))
      ∧ (∀ (dst : Tile) (rm : Nat) (quiet : Bool) (m : List (List Fv)) (i j : Nat), isBfp dst.desc.fmt.toNat = false →
        fmtValid dst.desc.fmt.toNat = true → dst.desc.base.toNat % 8 = 0 → dst.desc.stride.toNat % 8 = 0 →
        dst.desc.rowBytes ≤ dst.desc.stride.toNat → Canonical s → i < m.length → j < dst.desc.cols → (m.getD i []).length = dst.desc.cols →
        tileBits (writeTile s dst rm quiet m).1 dst i j
          = (elemBits dst.desc.fmt.toNat rm quiet ((m.getD i []).getD j (.zero false))).1)

/-- lrem issues a plain command at the Last its capability and block name, or reports why the target refuses it (R331, R332, R366, R367, R397). -/
def Obligations.remote_last_word : Prop :=
  ∀ (g : BitVec 4) (d a b : Reg) (s : State) (t : LiveLine), Ready (hdr g [d, a, b]) s t →
    getTag t.line a = 11 → getTag t.line b = 0 → t.req = none → t.replies = [] →
    ∀ key, Readable s t (getG t.line b).toNat 64 key →
    let n := memRead s.memory key 64
    firstBad (remoteChecks n) = none →
    let cap := getG t.line a
    let tgt := bfield n 0 11
    let cl := clusterOf tgt
    let fn := bfield n 12 4
    let f : EForm := ⟨BitVec.ofNat 1 (bfield n 16 1), BitVec.ofNat 4 (bfield n 17 4), BitVec.ofNat 1 (bfield n 21 1),
      BitVec.ofNat 1 (bfield n 22 1), BitVec.ofNat 2 (bfield n 23 2)⟩
    let q := fun (op : CmdOp) => (⟨lastOf cl, f, cl, d, none, none, op, true⟩ : Capture)
    let opa := bfield n 64 64
    let enters := fun (q : Capture) => Captures (exec (.lrem g d a b) s) s (hdr g [d, a, b]) t q
    let right := if fn = 2 ∨ fn = 3 then 48 else if fn = 4 then 50 else 49
    let tn := cap.extractLsb' 0 8 = t.line.tenant
    let place := cap.getLsbD (8 + tgt / 256) = true ∧ cap.getLsbD (16 + tgt / 8 % 32) = true
    let gen := cap.extractLsb' 52 12 = (getTenant s t.line.tenant.toNat).capGen
    let refused := fun (why : Nat) => exec (.lrem g d a b) s = .next (trapped s t (mkTrap 32 why 0))
    (¬ tn → refused 0) ∧ (tn → ¬ place → refused 1) ∧ (tn → place → cap.getLsbD right = false → refused 2)
      ∧ (tn → place → cap.getLsbD right = true → ¬ gen → refused 3)
      ∧ (tn → place → cap.getLsbD right = true → gen → cap.getLsbD 51 = false → Enters s t (dieOfCluster cl) (q .lswap) →
        (fn = 1 → enters (q .lswap)) ∧ (fn = 3 → enters (q .ldrain))
          ∧ (fn = 0 → ∀ w, resolveHandle s t.line.tenant.toNat t.line.hwin false (BitVec.ofNat 64 opa) = .ok w →
            (weightOk cl w = true → enters (q (.lw w))) ∧ (weightOk cl w = false → refused 5))
          ∧ (fn = 4 → (opa < 4 → enters (q (.lcfg (opa % 2 == 1) (opa / 2 == 1)))) ∧ (4 ≤ opa → refused 5))
          ∧ (fn = 2 → (opa % 64 ≠ 0 → refused 5)
            ∧ ∀ key', Readable s t opa 64 key' →
              let m := memRead s.memory key' 64
              ∀ act dst stg, blockTiles s (issueCtx (hdr g [d, a, b]) t) (streamHandles m) = .ok (act :: dst :: stg) →
                (firstBad (streamChecks s cl (planeAhead s cl) m act dst stg.head?) = none →
                  enters { q (.lstream act dst stg.head? (BitVec.ofNat 48 (bfield m 128 48)) (bfield m 177 1 == 1)
                    (bfield m 178 1 == 1) (bfield m 179 1 == 1) (BitVec.ofNat 64 (bfield m 192 64))) with post := postOf m 256 })
                ∧ (firstBad (streamChecks s cl (planeAhead s cl) m act dst stg.head?) ≠ none → refused 5)))

/-- cpy, cpyd, cwm, chan, scmc and sld put one command at the end of the queue of their copy unit or heliostat (R336, R337, R344, R371, R372, R373, R374, R375, R376, R377, R378). Where a clause goes past the words of the rules it is the choice of the model: log entries 10, 47, 82 and 89. -/
def Obligations.copy_and_scale_words : Prop :=
  ∀ (g : BitVec 4) (d a b : Reg) (x : BitVec 1) (ss : BitVec 4) (aq r : BitVec 1) (c : BitVec 2) (s : State) (t : LiveLine),
    getTag t.line a = 0 → t.req = none → t.replies = [] →
    let tn := t.line.tenant.toNat
    let f : EForm := ⟨x, ss, aq, r, c⟩
    let va := (getG t.line a).toNat
    let two := hdr g [d, a]
    let copies := fun (i : Instr) (req : Bool) (u n : Nat) =>
      let q : Capture := ⟨copyOf u, f, u, d, none, postOf n 165, copyOpOf n, true⟩
      firstBad (copyChecks n req) = none → copyDstBad (bfield n 64 56) = false →
      ∀ loc, locate s (whoOf t) .load (bfield n 0 56) 0 = .ok loc → unitOwns s u loc = true → Enters s t (dieOfCluster u) q →
      (pushAllowed s tn u (bfield n 64 56) = true → Captures (exec i s) s two t q)
        ∧ (pushAllowed s tn u (bfield n 64 56) = false → ∀ k, windowCluster (bfield n 64 56) = some k →
          exec i s = .next (trapped s t (mkTrap 33 (k * 8) (bfield n 64 56))))
    (Ready two s t → ∀ key, Readable s t va 64 key →
      let n := memRead s.memory key 64
      copies (.cpy g d a x ss aq r c) false (clusterOf (coreOfPlace t.place)) n
        ∧ copies (.cpyd g d a x ss aq r c) true (clusterOf (bfield n 256 11)) n)
    ∧ (va < 2 ^ 14 → va / 8 % 8 = 0 →
      let u := va / 64
      let q := fun (res : Option (Reg × Byte)) (op : CmdOp) => (⟨copyOf u, f, u, d, res, none, op, false⟩ : Capture)
      Enters s t (dieOfCluster u) (q none (.chan (va % 8))) →
      (Ready two s t → Captures (exec (.chan g d a x ss aq r c) s) s two t (q none (.chan (va % 8))))
        ∧ (Ready (hdr g [d, a, b]) s t →
          Captures (exec (.cwm g d a b x ss aq r c) s) s (hdr g [d, a, b]) t (q (some (b, 0)) (.cwm (va % 8)))))
    ∧ (va < 2 ^ 35 → va / 2 ^ 14 % 8 = 0 →
      let u := va / 2 ^ 17 % 2 ^ 8
      let j := va % 2 ^ 14
      let q := fun (res : Option (Reg × Byte)) (op : CmdOp) => (⟨scaleOf u, f, u, d, res, none, op, true⟩ : Capture)
      Enters s t (dieOfCluster u) (q none (.sld j)) → owns s tn (localGranule (helioCore s u) (65536 + 4 * j)) = true →
      (Ready (hdr g [d, a, b]) s t →
        Captures (exec (.sld g d a b x ss aq r c) s) s (hdr g [d, a, b]) t (q (some (b, 5)) (.sld j)))
        ∧ (Ready (hdrRel g [d, a, b] (r == 1)) s t → (getTag t.line b = 5 ∨ getTag t.line b = 0) →
          Captures (exec (.scmc g d a b x ss aq r c) s) s (hdrRel g [d, a, b] (r == 1)) t
            (q none (.scmc j ((getG t.line b).setWidth 32)))))

/-- swpin, swpout and swpq give one command to the page swap engine that serves the page (R346, R390, R391). Where a clause goes past the words of the rules it is the choice of the model: log entries 20, 47 and 90. -/
def Obligations.swap_words : Prop :=
  ∀ (g : BitVec 4) (d a b : Reg) (x : BitVec 1) (ss : BitVec 4) (aq r : BitVec 1) (c : BitVec 2) (s : State) (t : LiveLine),
    getTag t.line a = 0 → t.req = none → t.replies = [] →
    let f : EForm := ⟨x, ss, aq, r, c⟩
    let va := (getG t.line a).toNat
    let tn := t.line.tenant.toNat
    let cl := clusterOf (coreOfPlace t.place)
    let words : List (Instr × Hdr × Option (Reg × Byte) × CmdOp) :=
      [(.swpin g d a x ss aq r c, hdr g [d, a], none, .swpin va), (.swpout g d a x ss aq r c, hdr g [d, a], none, .swpout va),
        (.swpq g d a b x ss aq r c, hdr g [d, a, b], some (b, 0), .swpq va)]
    ∀ w ∈ words, Ready w.2.1 s t →
      (∀ level leaf v, va < windowBase → findLeaf s (whoOf t) va = some (level, leaf) →
        (checkLeaf s (whoOf t) .load va (some (level, leaf)) = .ok (level, leaf)
            ∧ (if leafRemote leaf then v = dieOfCluster cl else homeDie s (leafAddr leaf * 65536) = some v)
          ∨ checkLeaf s (whoOf t) .load va (some (level, leaf)) = .error (.page va) ∧ leafAddr leaf / 2 ^ 37 % 8 = v) →
        let q : Capture := ⟨swapOf v, f, cl, d, w.2.2.1, none, w.2.2.2, false⟩
        Enters s t v q →
          (x = 0 → Captures (exec w.1 s) s w.2.1 t q)
            ∧ (x = 1 → (getGuard s cl ss.toNat).state = 1 → ∃ s' cmd j, exec w.1 s = .next s'
              ∧ (getEngine s' (swapOf v)).queue = (getEngine s (swapOf v)).queue
              ∧ (getEngine s' (swapOf v)).held = (getEngine s (swapOf v)).held ++ [cmd]
              ∧ cmd.op = w.2.2.2 ∧ cmd.tenant = tn ∧ cmd.guard = some (cl, ss.toNat, (getGuard s cl ss.toNat).gen)
              ∧ tabFind cmd.entry (getEngine s' (swapOf v)).jobs = some j ∧ j.state = 1 ∧ j.tenant = tn))
      ∧ (guardFree s tn cl f = false →
        (windowBase ≤ va → va < 2 ^ 56 → regionOf va ≠ .reserved → exec w.1 s = .next (trapped s t (mkTrap 30 63 0)))
          ∧ (2 ^ 56 ≤ va ∨ regionOf va = .reserved → exec w.1 s = .next (trapped s t (mkTrap 6 0 va)))
          ∧ (va < windowBase → findLeaf s (whoOf t) va = none → exec w.1 s = .next (trapped s t (mkTrap 6 0 va))))

/-- gslot, gset, gfree, jwait, jtest, jstat, capmint, caprev and fin act as R380 to R393 say (R312, R328, R332, R380, R381, R382, R383, R386, R387, R388, R389, R393). Where a clause goes past the words of the rules it is the choice of the model: log entries 21, 47, 102 and 103. -/
def Obligations.guard_job_and_capability_words : Prop :=
  ∀ (g : BitVec 4) (d a b : Reg) (s : State) (t : LiveLine), t.req = none → t.replies = [] →
    let tn := t.line.tenant.toNat
    let va := (getG t.line a).toNat
    let answers := fun (i : Instr) (h : Hdr) (s' : State) (v : Word) => exec i s = .next (done s' t (setG (counted h t) d v 0))
    (getTag t.line a = 0 →
      (Ready (hdr g [d, a]) s t → Serves s (dieOfCluster (clusterOf (coreOfPlace t.place))) → va < 16 →
        let cl := clusterOf (coreOfPlace t.place)
        let e := getGuard s cl va
        (e.state = 0 → answers (.gslot g d a) (hdr g [d, a]) (setGuard s cl va ⟨1, tn, t.line.job.toNat, e.gen⟩)
            (BitVec.ofNat 64 (va + cl * 128 + e.gen.toNat * 2 ^ 15 + 2 ^ 23)))
          ∧ (e.state ≠ 0 → answers (.gslot g d a) (hdr g [d, a]) s 0))
      ∧ (∀ i cl, va % 16 = i → va / 128 % 256 = cl → Serves s (dieOfCluster cl) →
        va < 2 ^ 24 → 2 ^ 23 ≤ va → va / 16 % 8 = 0 →
        let e := getGuard s cl i
        let named := e.state ≠ 0 ∧ e.gen.toNat = va / 2 ^ 15 % 2 ^ 8 ∧ e.tenant = tn
        (Ready (hdr g [a]) s t →
          (named → e.gen ≠ 255 → ∃ s', exec (.gfree g a) s = .next (done s' t (counted (hdr g [a]) t))
            ∧ getGuard s' cl i = ⟨0, 0, 0, e.gen + 1⟩)
          ∧ (¬ named → exec (.gfree g a) s = .next (trapped s t (mkTrap 31 va 0))))
        ∧ (Ready (hdr g [d, a, b]) s t → getTag t.line b = 0 → (getG t.line b).toNat < 2 →
          (named → e.state = 1 → ∃ s', answers (.gset g d a b) (hdr g [d, a, b]) s' 1
            ∧ getGuard s' cl i = { e with state := if getG t.line b = 1 then 2 else 3 })
          ∧ (named → e.state ≠ 1 → answers (.gset g d a b) (hdr g [d, a, b]) s 0)
          ∧ (¬ named → exec (.gset g d a b) s = .next (trapped s t (mkTrap 31 va 0)))))
      ∧ (Ready (hdr g [d, a]) s t → va % 2 ^ 8 = 0 → va < 2 ^ 51 →
        exec (.capmint g d a) s = .next (done s t (setG (counted (hdr g [d, a]) t) d
          (BitVec.ofNat 64 (va + tn + (getTenant s tn).capGen.toNat * 2 ^ 52)) 11))))
    ∧ ((getTag t.line a = 10 ∨ getTag t.line a = 0) → jobBad (getG t.line a) tn = false →
      dieHeld s (engDie (jobEngine (getG t.line a))) = false →
      let j := jobEntryOf s (getG t.line a)
      let final := ∀ e, j = some e → 4 ≤ e.state
      (Ready (hdr g [a]) s t →
        (final → exec (.jwait g a) s = .next (done s t (counted (hdr g [a]) t))
          ∧ exec (.jtest g d a) s = .next (done s t (setQ (counted (hdr g [a]) t) d 0xFF)))
        ∧ (¬ final → exec (.jwait g a) s = .next (waiting s t (waitTag 8 (va % 2 ^ 60)))
          ∧ exec (.jtest g d a) s = .next (done s t (setQ (counted (hdr g [a]) t) d 0))))
      ∧ (Ready (hdr g [d, a]) s t →
        (j = none → answers (.jstat g d a) (hdr g [d, a]) s 7)
        ∧ ∀ e, j = some e → answers (.jstat g d a) (hdr g [d, a]) s (statusOf (some e))))
    ∧ (Ready (hdrPriv g [] 1 (.caprev g)) s t →
      ∃ s', exec (.caprev g) s = .next (done s' t (counted (hdrPriv g [] 1 (.caprev g)) t))
        ∧ ((getTenant s tn).capGen ≠ 0xFFF → getTenant s' tn = { getTenant s tn with capGen := (getTenant s tn).capGen + 1 })
        ∧ ∀ k, k ≠ tn → getTenant s' k = getTenant s k)
    ∧ (Ready (hdr g []) s t →
      (t.line.fin = false ∨ t.staging = none → exec (.fin g) s = .next (trapped s t (mkTrap 34 0 0)))
      ∧ (∀ cl row, t.line.fin = true → t.staging = some (cl, row) → dieHeld s (dieOfCluster cl) = false →
        (drained s t = false → exec (.fin g) s = .next (draining s t .all))
        ∧ (drained s t = true → ∃ e', exec (.fin g) s
            = .next (done (setEngine s (lastOf cl) e') { t with staging := none } (counted (hdr g []) t))
          ∧ ∀ cmd ∈ e'.running, ∀ w ∈ cmd.stg, w.srow = row → w.line = t.addr → w.state = 2)))

/-- csrr reads every status register of R413, csrw writes each writable one by R414, and the numbers from 0x020 on need trap level 1 (R30, R44, R138, R413, R414, R416, R418). Where a clause goes past the words of the rules it is the choice of the model: log entry 34. -/
def Obligations.status_register_words : Prop :=
  ∀ (g : BitVec 4) (d a : Reg) (s : State) (t : LiveLine),
    let tn := t.line.tenant.toNat
    let x := getTenant s tn
    let core := coreOfPlace t.place
    let cl := clusterOf core
    let va := getG t.line a
    let v := va.toNat
    let nat := fun (n : Nat) => BitVec.ofNat 64 n
    let values : List (BitVec 16 × Word) :=
      [(0x000, nat core), (0x001, t.line.tenant.setWidth 64), (0x002, s.accepted.extractLsb' 0 64),
        (0x003, s.accepted.extractLsb' 64 64), (0x004, s.accepted.extractLsb' 128 64), (0x005, s.accepted.extractLsb' 192 64),
        (0x008, nat (t.line.rmode.toNat + 4 * t.line.fen.toNat)), (0x009, t.line.fflg.setWidth 64),
        (0x00A, t.line.hwin.setWidth 64), (0x010, 64), (0x011, 0x04040506080A1002), (0x012, 0x10001000),
        (0x013, nat ((getCluster s cl).cl2Mib * 8192)), (0x014, nat (2 ^ 24 - (getCluster s cl).cl2Mib * 2 ^ 20)),
        (0x015, nat (lsGrant s core tn)), (0x016, guardStateWord s cl tn), (0x017, nat (helioCore s cl)),
        (0x018, x.qbounce.setWidth 64), (0x019, x.tkNull.setWidth 64), (0x01A, nat (x.ctxLines - x.pool.length)),
        (0x01B, nat (getCore s core).spillLog), (0x020, x.trapvec), (0x021, x.fqBase), (0x022, nat x.fqLog2),
        (0x023, x.fqHead.setWidth 64), (0x024, x.fqTail.setWidth 64), (0x025, x.fqLost.setWidth 64),
        (0x026, x.fqMbx.setWidth 64), (0x028, x.ctxBase), (0x029, nat x.ctxLines), (0x02A, x.qtabBase),
        (0x02B, nat x.qtabLen), (0x02C, nat x.tkQuota)]
    let write := fun (n : BitVec 16) => hdrPriv g [a] (if n.toNat < 0x20 then 0 else 1) (.csrw g a n)
    let tenantGets := fun (i : Instr) (n : BitVec 16) (ok : Prop) (y : Tenant) => Ready (write n) s t → getTag t.line a = 0 →
      (ok → exec i s = .next (done (setTenant s tn y) t (counted (write n) t)))
        ∧ (¬ ok → exec i s = .next (trapped s t (mkTrap 11 a.toNat 0)))
    (∀ e ∈ values,
      let h := hdrPriv g [d] (if e.1.toNat < 0x20 then 0 else 1) (.csrr g d e.1)
      (Ready h s t → exec (.csrr g d e.1) s = .next (done s t (setG (counted h t) d e.2 0)))
        ∧ (s.thr = some t → t.line.tlvl = 0 → ¬ e.1.toNat < 0x20 → exec (.csrr g d e.1) s
          = .next (trapped s t (mkTrap 12 ((encodeNat (.csrr g d e.1)).getD 0) 0))))
    ∧ (Ready (write 8) s t → getTag t.line a = 0 →
      let l := { counted (write 8) t with rmode := va.extractLsb' 0 2, fen := va.extractLsb' 2 5 }
      exec (.csrw g a 8) s = .next (done s t l) ∧ exec (.fmodeWrite g a) s = .next (done s t l))
    ∧ (Ready (write 9) s t → getTag t.line a = 0 →
      let l := { counted (write 9) t with fflg := va.extractLsb' 0 5 }
      exec (.csrw g a 9) s = .next (done s t l) ∧ exec (.fflagsWrite g a) s = .next (done s t l))
    ∧ (Ready (write 0xA) s t → getTag t.line a = 0 →
      (v < 2 ^ 32 → exec (.csrw g a 0xA) s = .next (done s t { counted (write 0xA) t with hwin := va.setWidth 32 }))
        ∧ (2 ^ 32 ≤ v → exec (.csrw g a 0xA) s = .next (trapped s t (mkTrap 11 a.toNat 0))))
    ∧ tenantGets (.csrw g a 0x020) 0x020 (v < 2 ^ 56 ∧ v % 2048 = 0) { x with trapvec := va }
    ∧ tenantGets (.csrw g a 0x021) 0x021 (v < 2 ^ 56 ∧ v % (32 * 2 ^ x.fqLog2) = 0 ∧ x.fqHead = x.fqTail) { x with fqBase := va }
    ∧ tenantGets (.csrw g a 0x022) 0x022 (4 ≤ v ∧ v ≤ 16 ∧ x.fqBase.toNat % (32 * 2 ^ v) = 0 ∧ x.fqHead = x.fqTail)
      { x with fqLog2 := v }
    ∧ (∀ i, i = .csrw g a 0x023 ∨ i = .fqHeadWrite g a → tenantGets i 0x023
      (v < 2 ^ 32 ∧ (va.setWidth 32 - x.fqHead).toNat ≤ (x.fqTail - x.fqHead).toNat) { x with fqHead := va.setWidth 32 })
    ∧ tenantGets (.csrw g a 0x026) 0x026 (v < 2 ^ 18) { x with fqMbx := va.setWidth 18 }
    ∧ (∀ i, i = .csrw g a 0x028 ∨ i = .ctxpoolBaseWrite g a → tenantGets i 0x028
      (v < 2 ^ 56 ∧ v % 65536 = 0 ∧ x.ctxLines - x.pool.length = x.ctxLines) { x with ctxBase := va })
    ∧ (∀ i, i = .csrw g a 0x029 ∨ i = .ctxpoolLinesWrite g a → tenantGets i 0x029
      (x.ctxLines - x.pool.length = x.ctxLines) { x with ctxLines := v, poolNote := x.poolNote && v == 0 })
    ∧ ((∀ q, q < x.qtabLen → ∃ key, entryLoc s tn 0 .walk q = .ok key) →
      let allFree := ∀ q key, q < x.qtabLen → entryLoc s tn 0 .walk q = .ok key → (readEntry s.memory key).state = 0
      tenantGets (.csrw g a 0x02A) 0x02A (v < 2 ^ 56 ∧ v % 32 = 0 ∧ allFree) { x with qtabBase := va }
        ∧ tenantGets (.csrw g a 0x02B) 0x02B (v ≤ 2 ^ 20 ∧ allFree) { x with qtabLen := v })
    ∧ tenantGets (.csrw g a 0x02C) 0x02C (1 ≤ v ∧ v ≤ 1024) { x with tkQuota := v }
    ∧ (∀ n : BitVec 16, 0x20 ≤ n.toNat → s.thr = some t → t.line.tlvl = 0 → exec (.csrw g a n) s
      = .next (trapped s t (mkTrap 12 ((encodeNat (.csrw g a n)).getD 0) 0)))

/-- rft, cevict, cclaim and cpark act on claimed lines and on their images by R407 and R419 to R422 (R67, R407, R408, R419, R420, R421, R422, R434). Where a clause goes past the words of the rules it is the choice of the model: log entries 16, 23, 58, 91 and 92. -/
def Obligations.line_control_words : Prop :=
  ∀ (g : BitVec 4) (d a b : Reg) (f : BitVec 3) (s : State) (t : LiveLine), t.req = none →
    let va := (getG t.line a).toNat
    let free := fun (y : LiveLine) => msgAhead s y.tenant y.addr = false
    let one := fun (i : Instr) => hdrPriv g [a] 1 i
    let line := fun (s' : State) => findLine s' t.tenant va
    let range := fun (i : Instr) => exec i s = .next (trapped s t (mkTrap 11 a.toNat 0))
    (Ready (hdr g []) s t → ∃ s' x, exec (.cevictSelf g) s = .next s' ∧ s'.thr = none ∧ findLine s' t.tenant t.addr = some x
      ∧ x.place = .cl1 (coreOfPlace t.place) ∧ x.line = { counted (hdr g []) t with pc := wordPc t + 4 } ∧ s'.memory = s.memory)
    ∧ (getTag t.line a = 0 →
      (Ready (one (.cevict g a)) s t → t.replies = [] →
        let completes := exec (.cevict g a) s = .next (done s t (counted (one (.cevict g a)) t))
        (va = t.addr → range (.cevict g a))
          ∧ (va ≠ t.addr → line s = none → completes)
          ∧ ∀ y, va ≠ t.addr → line s = some y →
            (y.clm = true ∨ y.place = .dram → completes)
              ∧ (y.clm = false → y.place ≠ .dram → free y → ∃ s', exec (.cevict g a) s = .next s' ∧ line s' = some { y with pull := true }
                ∧ s'.thr = some { t with replies := [0], cool := 7 } ∧ s'.memory = s.memory))
      ∧ (∀ key, va % 128 = 0 → va ≠ t.addr → locate s (whoOf t) .store va 0 = .ok (.cell key) →
        (Ready (hdrPriv g [d, a] 1 (.cclaim g d a)) s t → ctxPage s (whoOf t) va = true →
          let answers := fun (s : State) (t : LiveLine) (v : Word) =>
            exec (.cclaim g d a) s = .next (done s t (setG (counted (hdrPriv g [d, a] 1 (.cclaim g d a)) t) d v 0))
          (line s = none → answers s t 2)
            ∧ ∀ y, line s = some y → jobFrozen s y.tenant (jobOf s y) = false →
              (t.replies = [] →
                (y.clm = true → answers s t 1)
                ∧ (y.clm = false → free y → y.place = .dram → cellOf s t.tenant va = some key →
                  Canonical s → ∃ s', exec (.cclaim g d a) s = .next s' ∧ line s' = some { y with clm := true, holder := t.addr }
                    ∧ s'.thr = some { t with replies := [0], cool := 7 }
                    ∧ memLine s'.memory key = { memLine s.memory key with lver := (memLine s.memory key).lver + 1 }))
              ∧ (t.replies ≠ [] → y.clm = true → y.holder = t.addr → y.place = .dram → y.stores = 0 → answers s t 0))
        ∧ (∀ y, line s = some y → y.clm = true → y.holder = t.addr → y.place = .dram → cellOf s t.tenant va = some key →
          free y → Canonical s →
          let old := memLine s.memory key
          let freed := fun (s' : State) (l : Line) => (∃ y', line s' = some y' ∧ y'.clm = false ∧ y'.place = .dram)
            ∧ memLine s'.memory key = l ∧ ∀ j, j < key ∨ key + 128 ≤ j → byteOf s' j = byteOf s j
          (Ready (one (.rft g a f)) s t → ∀ pair, (f.getLsbD 0 = true → hmodAt s t.line.tenant.toNat old.pc = .ok pair) →
            let n : BitVec 48 := if pair then 8 else 4
            (t.stores ≠ 0 → exec (.rft g a f) s = .next (draining s t .stores))
            ∧ (AccessesDone s t → ∃ s', exec (.rft g a f) s = .next (done s' t (counted (one (.rft g a f)) t))
              ∧ freed s' { old with
                  pc := if f.getLsbD 0 then old.pc + n else old.pc, hcnt := if f.getLsbD 0 then 0 else old.hcnt,
                  hpay := if f.getLsbD 0 then 0 else old.hpay, tfb := if f.getLsbD 1 then f.getLsbD 2 else old.tfb,
                  wait := if waitKind old.wait ≠ 10 ∧ tagCorrupt old.wait = true then old.wait else 0 }))
          ∧ (getTag t.line b = 0 → Ready (hdrPriv g [a, b] 1 (.cpark g a b)) s t →
            let h := hdrPriv g [a, b] 1 (.cpark g a b)
            (getG t.line b = 0 → waitKind old.wait ≠ 10 → tagCorrupt old.wait = false →
              ∃ s', exec (.cpark g a b) s = .next (done s' t (counted h t)) ∧ freed s' { old with wait := 0 })
            ∧ (getG t.line b = 1 →
              ∃ s', exec (.cpark g a b) s = .next (done s' t (counted h t)) ∧ freed s' { old with wait := 0xA000000000000000 })
            ∧ (getG t.line b = 2 → ∃ s', exec (.cpark g a b) s = .next (done s' t (counted h t)) ∧ line s' = none)
            ∧ (3 ≤ (getG t.line b).toNat → exec (.cpark g a b) s = .next (trapped s t (mkTrap 11 b.toNat 0))))))
      ∧ ((∀ y, line s = some y → y.clm = false ∨ y.holder ≠ t.addr) →
        (Ready (one (.rft g a f)) s t → range (.rft g a f))
          ∧ (getTag t.line b = 0 → Ready (hdrPriv g [a, b] 1 (.cpark g a b)) s t → range (.cpark g a b))))

/-- trap, halt, seal, tlbinv, transit and gsw act as R415 to R427 say at the level that may run them (R411, R415, R416, R417, R423, R424, R425, R426, R427, R477). Where a clause goes past the words of the rules it is the choice of the model: log entries 24 and 27. -/
def Obligations.machine_control_words : Prop :=
  ∀ (g : BitVec 4) (d a b : Reg) (i : BitVec 16) (s : State) (t : LiveLine), t.req = none →
    let tn := t.line.tenant.toNat
    let ga := getG t.line a
    let gb := getG t.line b
    let int := getTag t.line a = 0
    let two := fun (i : Instr) => hdrPriv g [a, b] 2 i
    let sh := hdrPriv g [a] 1 (.seal g a)
    let keeps := fun (i : Instr) (v : Inval) => ∃ s', exec i s = .next s' ∧ s'.invals = s.invals ++ [v] ∧ s'.nextId = s.nextId + 1
      ∧ s'.thr = some { t with replies := [BitVec.ofNat 64 s.nextId], cool := 7 } ∧ s'.memory = s.memory
    (t.line.tlvl ≠ 1 → Ready (hdr g []) s t → exec (.trap g i) s = .next (trapped s t (mkTrap 13 i.toNat 0)))
    ∧ (t.line.tlvl = 1 → Ready (hdr g [0, 1, 2, 3]) s t → ∀ s' v,
      service s tn i.toNat (getG t.line 1).toNat (getG t.line 2).toNat (getG t.line 3).toNat = .done s' v →
      ¬ (i = 6 ∧ v = 0 ∧ (getG t.line 1).toNat = t.line.job.toNat) →
      exec (.trap g i) s = .next (done s' t (setG (counted (hdr g [0, 1, 2, 3]) t) 0 (BitVec.ofNat 64 v) 0)))
    ∧ (Ready (two (.halt g a b)) s t → int → getTag t.line b = 0 → ga.toNat < 256 → gb.toNat < 2 →
      let x := getTenant s ga.toNat
      exec (.halt g a b) s = .next (done (setTenant s ga.toNat { x with halted := gb == 0 }) t (counted (two (.halt g a b)) t)))
    ∧ (Ready sh s t → int →
      (t.replies = [] → ∀ level w, sealCheck s tn ga.toNat = .page level w →
        keeps (.seal g a) ⟨s.nextId, false, false, tn, pageBase level ga.toNat, []⟩
          ∧ ∀ s', exec (.seal g a) s = .next s' → ∃ w', walkTable (getTenant s' tn) ga.toNat = some (level, w')
            ∧ ∀ k, w'.getLsbD k = if k = 3 then false else w.getLsbD k)
      ∧ (t.replies = [] → sealCheck s tn ga.toNat = .done → exec (.seal g a) s = .next (done s t (counted sh t)))
      ∧ (∀ i, t.replies = [i] → (∀ v ∈ s.invals, v.id ≠ i.toNat) →
        ∃ s', exec (.seal g a) s = .next (done s' t (counted sh t)) ∧ s'.memory = s.memory
          ∧ ∀ level w, walkTable (getTenant s tn) ga.toNat = some (level, w) →
            leafV w = true → leafR w = true → leafW w = false → leafCtx w = false →
            ∃ w', walkTable (getTenant s' tn) ga.toNat = some (level, w')
              ∧ ∀ k, w'.getLsbD k = if k = 3 then false else if k = 4 then true else w.getLsbD k))
    ∧ (Ready (two (.tlbinv g a b)) s t → int → getTag t.line b = 0 →
      let all := gb.getLsbD 8
      let global := gb.getLsbD 9
      let legal := gb.toNat < 2 ^ 10 ∧ (global = true → all = true)
      let placed := all = false → ga.toNat % 65536 = 0 ∧ ga.toNat < windowBase
      (¬ legal → exec (.tlbinv g a b) s = .next (trapped s t (mkTrap 11 b.toNat 0)))
      ∧ (legal → ¬ placed → exec (.tlbinv g a b) s = .next (trapped s t (mkTrap 11 a.toNat 0)))
      ∧ (legal → placed → t.replies = [] →
        keeps (.tlbinv g a b) ⟨s.nextId, all, global, gb.toNat % 256, ga.toNat, []⟩)
      ∧ (legal → placed → ∀ w, t.replies = [w] → (∀ v ∈ s.invals, v.id ≠ w.toNat) →
        exec (.tlbinv g a b) s = .next (done s t (counted (two (.tlbinv g a b)) t))))
    ∧ (let h := hdrPriv g [a] 2 (.transit g a)
      Ready h s t → int →
      (2 ^ 16 ≤ ga.toNat → exec (.transit g a) s = .next (trapped s t (mkTrap 11 a.toNat 0)))
      ∧ (ga.toNat < 2 ^ 16 →
        (s.transit = none → ∃ s' r, exec (.transit g a) s = .next (done s' t (counted h t))
          ∧ s'.transit = some ⟨ga.toNat, [⟨ga.toNat, 0, coreOfPlace t.place, 0, (getCore s (coreOfPlace t.place)).issued, r, 0⟩], []⟩
          ∧ s'.memory = s.memory)
        ∧ (∀ u, s.transit = some u → u.id = ga.toNat → exec (.transit g a) s = .next (done s t (counted h t)))))
    ∧ (let h := hdrPriv g [d, a, b] 2 (.gsw g d a b)
      Ready h s t → int → getTag t.line b = 0 → ga.toNat < 2 ^ 24 →
      let answers := fun (s' : State) (v : Word) => exec (.gsw g d a b) s = .next (done s' t (setG (counted h t) d v 0))
      let tn := ga.toNat / 2 ^ 16
      let j := ga.toNat % 2 ^ 16
      (gb = 0 → findSwitch s tn j = none → s.accepted.getLsbD 4 = true → s.switches.length < 9 → s.remap = none → checkpointing s tn = false →
        ∃ s' w, answers s' 1 ∧ s'.switches = s.switches ++ [w] ∧ w.tenant = tn ∧ w.job = j ∧ w.phase = 1 ∧ w.resume = false)
      ∧ (gb = 0 → (findSwitch s tn j).isSome = true → answers s 0)
      ∧ (gb = 1 → findSwitch s tn j = none → answers s 0)
      ∧ (∀ w, gb = 1 → findSwitch s tn j = some w → w.resume = false → w.phase = 7 → w.ldrop = 0 → checkpointing s tn = false →
        ∃ s', answers s' 1 ∧ findSwitch s' tn j = some { w with resume := true, phase := 1 }))
    ∧ (∀ i' ∈ [(.halt g a b : Instr), .tlbinv g a b, .transit g a, .gsw g d a b], s.thr = some t → t.line.tlvl.toNat < 2 →
      exec i' s = .next (trapped s t (mkTrap 12 ((encodeNat i').getD 0) 0)))
    ∧ (∀ i' ∈ [(.seal g a : Instr), .rft g a 0, .cevict g a, .cclaim g d a, .cpark g a b], s.thr = some t → t.line.tlvl = 0 →
      exec i' s = .next (trapped s t (mkTrap 12 ((encodeNat i').getD 0) 0)))

/-- Each firmware service of R415 has its effect and its result for a live tenant (R148, R185, R205, R210, R337, R348, R409, R411, R415). Where a clause goes past the words of the rules it is the choice of the model: log entries 29, 30 and 32. -/
def Obligations.firmware_services : Prop :=
  ∀ (tn : Nat) (g1 g2 g3 : Word) (s : State), (getTenant s tn).live = true →
    let va := g1.toNat
    let level := g2.toNat
    let answers := fun (i : Instr) (v : Word) => exec i s = .next { s with svc := v }
    let zeroed := fun (s' : State) (k n : Nat) => (∀ j, k ≤ j → j < k + n → byteOf s' j = 0)
      ∧ ∀ j, j < k ∨ k + n ≤ j → byteOf s' j = byteOf s j
    let noHits := fun (s' : State) => ∀ c, ¬ (getCore s' c).tlb.any (tlbHits tn va) ∧ ¬ (getCluster s' c).tlb.any (tlbHits tn va)
    let legal := g3.toNat < 2 ^ 12 ∧ g3.toNat % 4 = 0
    (legal → level ≤ 2 → va < windowBase → va % 2 ^ levelShift level = 0 →
      let w := 3 + g3
      (attrRefused s g3.toNat level w = true → answers (.map tn g1 g2 g3) 3)
      ∧ (attrRefused s g3.toNat level w = false →
        (mappedIn s tn va (2 ^ levelShift level) = true → answers (.map tn g1 g2 g3) 2)
        ∧ (mappedIn s tn va (2 ^ levelShift level) = false →
          (takeFrame s tn level = none → answers (.map tn g1 g2 g3) 1)
          ∧ ∀ b s1, takeFrame s tn level = some (b, s1) → frameGood s level b = true
            ∧ (frameHeld s b = false → ∃ s', exec (.map tn g1 g2 g3) s = .next s' ∧ s'.svc = 0 ∧ zeroed s' b (2 ^ levelShift level)
              ∧ tabFind (pteKey level va) (getTenant s' tn).ptab = some (BitVec.ofNat 64 (3 + g3.toNat + b))))))
    ∧ (∀ v, svcPage s tn va = .error v → answers (.unmap tn g1) (BitVec.ofNat 64 v))
    ∧ (∀ lv w, svcPage s tn va = .ok (lv, w) →
      let key := pteKey lv va
      let frame := leafAddr w * 65536
      (tabFind key (getTenant s tn).moves = none → leafSwd w = false → leafRemote w = false →
        pktInto s frame (2 ^ levelShift lv) = false → sweptInto s tn va (2 ^ levelShift lv) = false → ∃ s', exec (.unmap tn g1) s = .next s' ∧ s'.svc = 0
          ∧ (getTenant s' tn).ptab = tabDel key (getTenant s tn).ptab ∧ s'.used = tabDel frame s.used
          ∧ zeroed s' frame (2 ^ levelShift lv) ∧ noHits s')
      ∧ (legal → leafX w = true → answers (.protect tn g1 g3) 5)
      ∧ (legal → leafX w = false → attrRefused s g3.toNat lv (protectedLeaf w g3.toNat) = false → leafSwd w = false →
        pktInto s frame (2 ^ levelShift lv) = false → ∃ s' w', exec (.protect tn g1 g3) s = .next s' ∧ s'.svc = 0
          ∧ tabFind key (getTenant s' tn).ptab = some w' ∧ s'.memory = s.memory ∧ noHits s'
          ∧ ∀ k, k < 64 → w'.getLsbD k = if k ∈ [2, 3, 5, 6, 8, 9, 10, 11] then g3.getLsbD k else w.getLsbD k))
    ∧ (∀ gr k n die ok, va < 2 ^ 56 → granuleAt s va = some (gr, k, n, die, ok) →
      (ok = false ∨ (tabFind gr s.owner).isSome = true → answers (.grantTake tn g1) 6)
      ∧ (ok = true → tabFind gr s.owner = none → (getDie s die).state < 2 → dieHeld s die = false → pktInto s k n = false →
        ∃ s', exec (.grantTake tn g1) s = .next s' ∧ s'.svc = 0 ∧ owns s' tn gr = true ∧ zeroed s' k n
          ∧ ∀ x, x ≠ gr → tabFind x s'.owner = tabFind x s.owner)
      ∧ (owns s tn gr = false → answers (.grantGiveBack tn g1) 6)
      ∧ (owns s tn gr = true → dieHeld s die = false → pktInto s k n = false → scrubIn s gr = false →
        ∃ s', exec (.grantGiveBack tn g1) s = .next s' ∧ s'.svc = 0 ∧ s'.owner = tabDel gr s.owner ∧ zeroed s' k n))
    ∧ (va < 2048 → va % 8 = 0 → g2.toNat % 32 = 0 → ∀ k, locate s ⟨tn, 0, 1, .walk⟩ .load g2.toNat 0 = .ok (.cell k) →
      poisoned s.memory k 32 = false →
      exec (.pushmask tn g1 g2) s = .next { setTenant s tn { getTenant s tn with
        push := tabPut (BitVec.allOnes 256) (va / 8) (BitVec.ofNat 256 (memRead s.memory k 32)) (getTenant s tn).push } with svc := 0 })
    ∧ (va < 65536 → ∃ s', exec (.killjob tn g1) s = .next s' ∧ s'.svc = 0
      ∧ (∀ e ∈ s'.cores, ∀ r ∈ e.2.ring ++ e.2.deque, recordIs tn va r = false) ∧ (∀ p ∈ s'.net, pktIs tn va p = false)
      ∧ ∀ y ∈ s'.lines, y.tenant = tn → y.place ≠ .dram → y.line.job.toNat ≠ va)
    ∧ (∃ s' n, exec (.swapallot tn g1) s = .next s' ∧ s'.svc = BitVec.ofNat 64 (4096 * n)
      ∧ getTenant s' tn = { getTenant s tn with allot := n } ∧ (getTenant s tn).flashUse ≤ n
      ∧ n ≤ max ((va + 4095) / 4096) (getTenant s tn).flashUse)
    ∧ (va < 2 ^ 17 → (getDie s (dieOf (counterCore va))).state < 2 → dieHeld s (dieOf (counterCore va)) = false →
      let e := getCounter s (counterCore va) (counterIndex va)
      let mine := e.valid = true ∧ e.tenant = tn
      let gives := fun (c : Counter) => setCounter s (counterCore va) (counterIndex va) c
      (e.valid = true → answers (.counterTake tn g1) 8)
      ∧ (e.valid = false → exec (.counterTake tn g1) s = .next { gives ⟨0, 0, tn, true, false⟩ with svc := 0 })
      ∧ (mine → exec (.counterGiveBack tn g1) s = .next { wakeCounter (gives ⟨0, 0, 0, false, false⟩) va with svc := 0 })
      ∧ (¬ mine → answers (.counterGiveBack tn g1) 8))

/-- The messages of the host port that read, write and start things act as R130 to R135, R456, R481, R486 and R487 say (R130, R131, R133, R149, R151, R437, R456, R481, R486, R487). Where a clause goes past the words of the rules it is the choice of the model: log entries 5, 38, 40, 60, 62 and 69. -/
def Obligations.host_port_messages : Prop :=
  ∀ (tag : BitVec 32) (s : State),
    (∀ (tn die : Nat) (a b : Word) (data : List Byte) (flag : Bool) (len : Nat) (rec : BitVec 512),
      ∀ i ∈ [Instr.write tn a data flag tag, .read tn a len flag tag, .push tn a b tag, .post tn a b tag, .launch tn rec tag,
          .hostHalt tn tag, .tenantTearDown tn tag, .diemapRead die tag, .checkpointModuleSave tag],
        (s.host.bound = none → exec i s = .next s)
          ∧ (s.host.bound ≠ none → duringCkpt s i = true → exec i s = .next (refuseMsg (unholdMsg s i) i))
          ∧ ∀ j, s.host.bound ≠ none → duringCkpt s i = false → firstOf s i = some j → j ≠ i → exec i s = .next (holdMsg s i))
    ∧
    let told := fun (s' : State) (m : HostMsg) => s'.host.out = s.host.out ++ [m]
    let refused := fun (i : Instr) => exec i s = .next (toHost s (.ack tag 1))
    s.host.waiting = [] →
    (∀ src key ok, let i := Instr.bind src key ok tag
      (s.host.bound = none → key = s.host.hostKey → ok = true →
        ∃ s', exec i s = .next s' ∧ s'.host = { s.host with bound := some src, out := s.host.out ++ [.ack tag 0] })
      ∧ (s.host.bound ≠ none ∨ key ≠ s.host.hostKey ∨ ok = false → refused i))
    ∧ (s.host.bound.isSome = true →
      exec (.featuresRead tag) s = .next (toHost s (.features tag s.offered s.host.microcode))
      ∧ (∀ set : BitVec 256,
        (anyTenant s = false → s.accepted = 0 → set &&& ~~~s.offered = 0 → set.getLsbD 0 = true →
          exec (.featuresAccept set tag) s = .next (toHost { s with accepted := set } (.ack tag 0)))
        ∧ (anyTenant s = true ∨ set &&& ~~~s.offered ≠ 0 ∨ set.getLsbD 0 = false → refused (.featuresAccept set tag)))
      ∧ (∀ die, die < 8 → exec (.diemapRead die tag) s
        = .next (toHost s (.dieMap tag 0 ((getDie s die).phys + (getDie s die).state * 8))))
      ∧ (∀ nonce, let four := fun (v : BitVec 256) => ((List.range 4).map fun i => v.toNat / 2 ^ (64 * i) % 2 ^ 64 : List Nat)
        let words := four nonce ++ four s.host.bodyDigest ++ [s.host.version.toNat, s.host.microcode.toNat] ++ four s.offered
          ++ four s.accepted ++ ((List.range 8).map fun v => (getDie s v).phys + (getDie s v).state * 8) ++ [s.dmgen.toNat]
          ++ four s.host.hostKey ++ [(s.tenants.filter fun e => e.2.live).length]
        exec (.attest nonce tag) s = .next (toHost s (.report tag words
          (Config.signature s.host.seed (words.flatMap fun w => natLe w 8)) s.host.cert)))
      ∧ ∀ tn, (getTenant s tn).live = true →
        (∀ addr data rel ks, data.length ≤ 120 → hostBytes s tn .store addr.toNat data.length = .keys ks → ks.Nodup → Canonical s →
          ∃ s', exec (.write tn addr data rel tag) s = .next s' ∧ told s' (.ack tag 0)
            ∧ (∀ n, n < data.length → byteOf s' (ks.getD n 0) = data.getD n 0) ∧ ∀ k, k ∉ ks → byteOf s' k = byteOf s k)
        ∧ (∀ addr data rel, data.length ≤ 120 → hostBytes s tn .store addr.toNat data.length = .refused →
          refused (.write tn addr data rel tag))
        ∧ (∀ addr len acq ks, 0 < len → len ≤ 128 → hostBytes s tn .load addr.toNat len = .keys ks →
          (∀ k ∈ ks, poisoned s.memory k 1 = false) →
          exec (.read tn addr len acq tag) s = .next (toHost s (.readData tag 0 (ks.map (byteOf s)))))
        ∧ (∀ name elem, name.toNat < 2 ^ 32 →
          (∀ s1, pushQueue s tn 0 name.toNat elem = .done s1 → exec (.push tn name elem tag) s = .next (toHost s1 (.ack tag 0)))
          ∧ (pushQueue s tn 0 name.toNat elem = .dropped → exec (.push tn name elem tag) s
            = .next (toHost (setTenant s tn { getTenant s tn with qbounce := (getTenant s tn).qbounce + 1 }) (.ack tag 1))))
        ∧ (∀ name inc, name.toNat < 2 ^ 17 → inc.toNat < 2 ^ 32 → dieHeld s (dieOf (counterCore name.toNat)) = false →
          let e := getCounter s (counterCore name.toNat) (counterIndex name.toNat)
          (counterOk s tn name.toNat = true → ∃ s', exec (.post tn name inc tag) s = .next s' ∧ told s' (.ack tag 0)
            ∧ getCounter s' (counterCore name.toNat) (counterIndex name.toNat) = { e with cnt := e.cnt + inc.setWidth 32 })
          ∧ (counterOk s tn name.toNat = false → exec (.post tn name inc tag) s
            = .next (toHost (setTenant s tn { getTenant s tn with qbounce := (getTenant s tn).qbounce + 1 }) (.ack tag 1))))
        ∧ (∀ rec, let r := launchOf rec
          let n := r.gx * r.gy * r.gz
          (launchBad s tn r n = true → ∃ s' l, exec (.launch tn rec tag) s = .next s' ∧ s'.host.out = l ++ [.ack tag 2]
            ∧ s'.lines = s.lines)
          ∧ (launchBad s tn r n = false → 0 < n → (∀ x ∈ s.launched, x.tenant ≠ tn ∨ x.job ≠ r.job) →
            (∀ i, i < n → addrHeld s tn (r.ctxbase + 128 * i) = false) →
            (∃ v, v < 8 ∧ (getDie s v).state < 2) →
            ∃ s', exec (.launch tn rec tag) s = .next s' ∧ told s' (.ack tag 0) ∧ ∀ i, i < n → ∃ x,
              findLine s' tn (r.ctxbase + 128 * i) = some x ∧ getG x.line 0 = BitVec.ofNat 64 i
                ∧ getG x.line 1 = BitVec.ofNat 64 (i % r.gx + i / r.gx % r.gy * 2 ^ 20 + i / (r.gx * r.gy) * 2 ^ 40)
                ∧ getG x.line 2 = BitVec.ofNat 64 r.args ∧ getG x.line 3 = BitVec.ofNat 64 r.const
                ∧ x.line.pc = BitVec.ofNat 48 r.entry ∧ x.line.tlvl = 0 ∧ x.line.root = true ∧ x.line.wait = 0
                ∧ x.line.tenant = BitVec.ofNat 8 r.tenant ∧ x.line.job = BitVec.ofNat 16 r.job)))

/-- The messages of the host port about tenants, their lines, their services and their gangs act by R403, R445, R458, R468, R473 and R475 (R211, R403, R408, R413, R415, R426, R445, R458, R468, R473, R475). Where a clause goes past the words of the rules it is the choice of the model: log entries 37, 39 and 64. -/
def Obligations.host_tenant_messages : Prop :=
  ∀ (tag : BitVec 32) (s : State), s.host.bound.isSome = true → s.host.waiting = [] → ∀ tn,
    let x := getTenant s tn
    let acked := fun (s' : State) (v : Nat) => ∃ l, s'.host.out = l ++ [.ack tag v]
    let refused := fun (i : Instr) => exec i s = .next (toHost s (.ack tag 1))
    (tn < 64 → x.live = false → ∃ s' y, exec (.tenantCreate tn tag) s = .next s' ∧ acked s' 0 ∧ getTenant s' tn = y
      ∧ y.live = true ∧ y.halted = false ∧ y.trapvec = 0 ∧ y.fqBase = 0 ∧ y.fqLog2 = 4 ∧ y.fqHead = 0 ∧ y.fqTail = 0 ∧ y.fqLost = 0
      ∧ y.fqMbx = 0 ∧ y.ctxBase = 0 ∧ y.ctxLines = 0 ∧ y.qtabBase = 0 ∧ y.qtabLen = 0 ∧ y.tkQuota = 16 ∧ y.qbounce = 0 ∧ y.tkNull = 0
      ∧ y.ptab = [] ∧ y.capGen = x.capGen)
    ∧ (64 ≤ tn ∨ x.live = true → refused (.tenantCreate tn tag))
    ∧ (x.live = false → ∀ i ∈ [(.tenantTearDown tn tag : Instr), .hostHalt tn tag, .hostHaltResume tn tag], refused i)
    ∧ (x.live = true →
      (∃ s', exec (.tenantTearDown tn tag) s = .next s' ∧ acked s' 0 ∧ (∀ y ∈ s'.lines, y.tenant ≠ tn)
        ∧ (∀ e ∈ s'.cores, ∀ r ∈ e.2.ring ++ e.2.deque, r.tenant ≠ tn) ∧ (∀ p ∈ s'.net, p.tenant ≠ tn)
        ∧ (∃ gen, getTenant s' tn = { Tenant.zero with capGen := gen })
        ∧ (∀ e ∈ s'.owner, e.2 ≠ tn) ∧ (∀ e ∈ s'.used, e.2.1 ≠ tn)
        ∧ (∀ e ∈ s.owner, e.2 = tn → ∀ j, (granulePlace e.1).1 ≤ j → j < (granulePlace e.1).1 + (granulePlace e.1).2 →
          byteOf s' j = 0 ∧ feAt s'.memory j = false)
        ∧ (∀ e ∈ s.used, e.2.1 = tn → ∀ j, e.1 ≤ j → j < e.1 + 2 ^ levelShift e.2.2 → byteOf s' j = 0)
        ∧ (∀ e ∈ s'.clusters, ∀ d ∈ e.2.tdt, d.2.state ≠ 0 → d.2.tenant.toNat ≠ tn)
        ∧ (∀ e ∈ s'.cores, ∀ k ∈ e.2.mail, k.2.valid = true → k.2.tenant ≠ tn))
      ∧ exec (.hostHalt tn tag) s = .next (toHost (setTenant s tn { x with halted := true }) (.ack tag 0))
      ∧ exec (.hostHaltResume tn tag) s = .next (toHost (setTenant s tn { x with halted := false }) (.ack tag 0))
      ∧ (∀ n g1 g2 g3 s1 v, service s tn n.toNat g1.toNat g2.toNat g3.toNat = .done s1 v → ∃ s', exec (.service tn n g1 g2 g3 tag) s
        = .next s' ∧ s' = toHost { s1 with svc := BitVec.ofNat 64 v } (.ack tag (if v = 0 ∨ n = 7 then 0 else 1)))
      ∧ (∀ job gm, job < 65536 → gangOk gm = true → s.accepted.getLsbD 4 = true → ∃ s', exec (.gangmap tn job gm tag) s = .next s'
        ∧ acked s' 0 ∧ gangOf s' tn job = some gm)
      ∧ (∀ job, job < 65536 → s.remap = none →
        (findSwitch s tn job = none → s.accepted.getLsbD 4 = true → s.switches.length < 9 → ∃ s' w, exec (.gswitch tn job tag) s = .next s'
          ∧ acked s' 0 ∧ s'.switches = s.switches ++ [w] ∧ w.tenant = tn ∧ w.job = job ∧ w.phase = 1 ∧ w.resume = false)
        ∧ ((findSwitch s tn job).isSome = true → refused (.gswitch tn job tag)))
      ∧ (∀ blk : BitVec 384, let n := blk.toNat
        let code := nbits n 0 48
        let len := nbits n 64 64
        let entry := nbits n 128 48
        let va := nbits n 192 56
        nbits n 48 16 = 0 → nbits n 176 16 = 0 → nbits n 248 8 = 0 → nbits n 320 64 = 0 → code % 65536 = 0 → len ≠ 0 → len % 65536 = 0 →
        entry % 4 = 0 → code ≤ entry → entry < code + len → va % 128 = 0 → code + len ≤ 2 ^ 48 →
        ∀ s1 k, sealPages tn (len / 65536) code s = .ok s1 → addrHeld s1 tn va = false → rootPage s1 tn 0 va = true → findLine s1 tn va = none →
          (∃ v, v < 8 ∧ (getDie s1 v).state = 0) → cellOf s1 tn va = some k → ∃ s' y, exec (.tenantStartSupervisor tn blk tag) s = .next s' ∧ acked s' 0
            ∧ findLine s' tn va = some y ∧ y.place = .dram ∧ y.line.tlvl = 1 ∧ y.line.pc = BitVec.ofNat 48 entry ∧ y.line.prio = 15
            ∧ getG y.line 0 = BitVec.ofNat 64 tn ∧ getG y.line 2 = BitVec.ofNat 64 (nbits n 256 64)))
    ∧ (∀ job, findSwitch s tn job = none → refused (.gresume tn job none tag))
    ∧ (∀ job w, findSwitch s tn job = some w → w.resume = false → w.phase = 7 → w.ldrop = 0 → w.vmod = vmodOf s tn job →
      ∃ s', exec (.gresume tn job none tag) s = .next s' ∧ acked s' 0 ∧ findSwitch s' tn job = some { w with resume := true, phase := 1 })
    ∧ (∀ addr : Word,
      (findLine s tn addr.toNat = none → refused (.lineResume tn addr tag) ∧ refused (.lineKill tn addr tag))
      ∧ ∀ y, findLine s tn addr.toNat = some y →
        (y.fw = false → refused (.lineResume tn addr tag) ∧ refused (.lineKill tn addr tag))
        ∧ (y.fw = true → (∃ s', exec (.lineKill tn addr tag) s = .next s' ∧ acked s' 0 ∧ findLine s' tn addr.toNat = none)
          ∧ ∀ c, y.place = .cl1 c → ∃ s', exec (.lineResume tn addr tag) s = .next s' ∧ acked s' 0
            ∧ findLine s' tn addr.toNat
              = some { y with fw := false, line := { y.line with wait := if waitKind y.line.wait = 10 then 0 else y.line.wait } }))

/-- The messages of the host port about dies and checkpoints act by R437 to R444, R488 and R489 (R437, R438, R440, R444, R488, R489). Where a clause goes past the words of the rules it is the choice of the model: log entries 54 and 55. -/
def Obligations.host_device_messages : Prop :=
  ∀ (tag : BitVec 32) (s : State), s.host.bound.isSome = true → s.host.waiting = [] →
    let acked := fun (s' : State) (v : Nat) => ∃ l, s'.host.out = l ++ [.ack tag v]
    let refused := fun (i : Instr) => exec i s = .next (toHost s (.ack tag 1))
    (∀ die q, let d := getDie s die
      (8 ≤ die ∨ pairFree s q = false ∨ s.remap.isSome = true ∨ d.state = 1 → refused (.diemapRemap die q tag))
      ∧ (die < 8 → pairFree s q = true → s.remap = none →
        (d.state = 0 → ∃ s', exec (.diemapRemap die q tag) s = .next s' ∧ acked s' 0 ∧ s'.remap = some ⟨die, d.phys, q, 1, none⟩
          ∧ getDie s' die = { d with state := 1 } ∧ s'.memory = s.memory)
        ∧ (2 ≤ d.state → d.holders = [] → ∃ s', exec (.diemapRemap die q tag) s = .next s' ∧ acked s' 0
          ∧ s'.dmgen = s.dmgen + 1 ∧ (q ≠ die → getDie s' die = ⟨q, 0, Engine.zero, []⟩)
          ∧ ∀ k, q * 2 ^ 38 ≤ k → k < (q + 1) * 2 ^ 38 → byteOf s' k = 0)
        ∧ (2 ≤ d.state → d.holders ≠ [] → refused (.diemapRemap die q tag)))
      ∧ (die < 8 → d.state = 0 → dieEmpty s die = true → ∃ s', exec (.diemapOffline die tag) s = .next s' ∧ acked s' 0
        ∧ getDie s' die = { d with state := 2 } ∧ s'.memory = s.memory)
      ∧ (8 ≤ die ∨ d.state = 1 ∨ (d.state = 0 ∧ dieEmpty s die = false) ∨ (d.state = 3 ∧ d.holders ≠ []) →
        refused (.diemapOffline die tag)))
    ∧ ((s.lines = [] ∧ s.clusters = [] ∧ s.dies = [] ∧ s.net = [] ∧ s.msgs = [] ∧ s.pending = [] ∧ s.invals = [] ∧ s.remap = none
        ∧ s.switches = [] ∧ (∀ e ∈ s.tenants, e.2.moves = []) ∧ (∀ e ∈ s.tenants, e.2.live = true → e.2.halted = true)) →
      ∃ s' m, exec (.checkpointModuleSave tag) s = .next s' ∧ acked s' 0 ∧ s'.moduleCkpt = some m
        ∧ ((∀ e ∈ s.tenants, ∀ p ∈ e.2.ptab, leafRc p.2 = 0) → m.memory = s.memory)
        ∧ m.cores = s.cores ∧ m.tenants = s.tenants ∧ m.owner = s.owner ∧ m.accepted = s.accepted)
    ∧ (s.moduleCkpt = none → refused (.checkpointModuleRestore tag))
    ∧ (∀ m, s.moduleCkpt = some m → m.accepted ≠ s.accepted → refused (.checkpointModuleRestore tag))
    ∧ (∀ m, s.moduleCkpt = some m → sameMap s m = true → m.accepted = s.accepted →
      ∃ s', exec (.checkpointModuleRestore tag) s = .next s' ∧ acked s' 0 ∧ s'.memory = m.memory ∧ s'.lines = m.lines
        ∧ s'.cores = m.cores ∧ s'.clusters = m.clusters ∧ s'.tenants = m.tenants ∧ s'.owner = m.owner ∧ s'.net = [])
    ∧ (∀ tn,
      ((getTenant s tn).live = false ∨ tenantSaved s tn = false → refused (.checkpointTenantSave tn tag))
      ∧ ((getTenant s tn).live = true → tenantSaved s tn = true → (getTenant s tn).moves = [] → (choose s 2).1 ≠ 0 →
        exec (.checkpointTenantSave tn tag) s = .next (holdFirst (choose s 2).2 (.checkpointTenantSave tn tag)))
      ∧ ((getTenant s tn).live = true → tenantSaved s tn = true → (getTenant s tn).moves = [] → (choose s 2).1 = 0 →
        ∃ s' i, exec (.checkpointTenantSave tn tag) s = .next s' ∧ acked s' 0 ∧ i ∈ s'.tenantCkpts ∧ i.tenant = tn
          ∧ i.regs = getTenant s tn ∧ (∀ x ∈ i.lines, x.tenant = tn) ∧ s'.memory = s.memory ∧ s'.lines = s.lines)
      ∧ ((s.tenantCkpts.find? fun i => i.tenant == tn) = none → refused (.checkpointTenantRestore tn tag))
      ∧ (∀ i, (s.tenantCkpts.find? fun i => i.tenant == tn) = some i →
        (i.accepted ≠ s.accepted ∨ tenantFresh s tn = false → refused (.checkpointTenantRestore tn tag))
        ∧ ∀ s1, (getTenant s tn).live = true → tenantFresh s tn = true → i.accepted = s.accepted → placesFree s i = true →
          (choose s 2).1 = 0 → restoreTenant (choose s 2).2 i = some s1 →
          exec (.checkpointTenantRestore tn tag) s = .next (toHost s1 (.ack tag 0))
            ∧ (∀ x ∈ i.lines, x ∈ s1.lines) ∧ ∀ w ∈ i.switches, w ∈ s1.switches))

/-- Lines move between slots, caches, ready lists and images, and handlers, thieves and completions appear, by R126 to R143 and R401 (R126, R128, R129, R135, R137, R141, R142, R143, R401, R434, R439). Where a clause goes past the words of the rules it is the choice of the model: log entries 2, 36, 42, 59, 79, 93 and 94. -/
def Obligations.line_events : Prop :=
  ∀ (core slot cl tn : Nat) (s : State),
    let goes := fun (i : Instr) (x : LiveLine) (p : Place) => ∃ s' y, exec i s = .next s' ∧ findLine s' x.tenant x.addr = some y
      ∧ y.place = p ∧ y.line = x.line
    let starts := fun (i : Instr) (r : TaskRec) (a c k : Nat) => ∃ s' y, exec i s = .next s' ∧ findLine s' r.tenant a = some y
      ∧ y.place = .slot c k ∧ y.line = recordLine r ∧ y.pool = true
    (slotFree s core slot = true →
      (∀ x, fillChoice (noticePool s core) core = .line x → x.place = .cl1 core → goes (.slotFill core slot) x (.slot core slot))
      ∧ (∀ r k a s1, fillChoice (noticePool s core) core = .record r k → cl1Room (noticePool s core) core = true →
        poolTake (setCore (noticePool s core) core k) r.tenant = some (a, s1) → addrHeld s1 r.tenant a = false →
        starts (.slotFill core slot) r a core slot)
      ∧ (∀ victim r k a s1, victim ≠ core → coreIdle s core = true → dieRuns s (dieOf victim) = true → cl1Room s core = true →
        let s0 := noticeRefused s (fun r => admits r core) ((getCore s victim).ring ++ (getCore s victim).deque)
        dequeSteal (fun r => poppable s0 r && admits r core) (getCore s0 victim) = some (r, k) →
        poolTake (setCore s0 victim k) r.tenant = some (a, s1) → addrHeld s1 r.tenant a = false →
        starts (.steal core slot victim) r a core slot))
    ∧ (∀ x, slotLine s core slot = some x →
      (mustLeave s core x = true → goes (.quantumExpiry core slot) x (.cl1 core))
        ∧ (mustLeave s core x = false → exec (.quantumExpiry core slot) s = .next s))
    ∧ (∀ x, victimOf s (dieOf core) (!(cl1Room s core)) (s.lines.filter fun x => x.place == .cl1 core && storesDone s x) = some x →
      cl2Room s (clusterOf core) = true → goes (.cl1Eviction core) x (.cl2 (clusterOf core)))
    ∧ (∀ x k, ¬ (4095 ≤ (headCounts s cl).1 ∧ mayTakeFrom s cl cl = true) → dirHeld s x = false → victimOf s (dieOfCluster cl) (!(cl2Room s cl)) (s.lines.filter fun x => x.place == .cl2 cl) = some x →
      cellOf s x.tenant x.addr = some k → Canonical s →
      ∃ s', exec (.cl2Eviction cl) s = .next s' ∧ (∃ y, findLine s' x.tenant x.addr = some y ∧ y.place = .dram)
        ∧ memLine s'.memory k = { imageLine x with q := (imageLine x).q.set 0 0xFF }
        ∧ ∀ j, j < k ∨ k + 128 ≤ j → byteOf s' j = byteOf s j)
    ∧ (∀ x, clusterOf core = cl → core < 2048 → cl1Room s core = true → dieRuns s (dieOf core) = true →
      passedFirst (·.passedCl) (readyCl2 s cl) = some x → goes (.cl2Promotion cl core) x (.cl1 core))
    ∧ (∀ src x k, mayTakeFrom s cl src = true → cl2Room s cl = true → readyHead s src = some x → cellOf s x.tenant x.addr = some k →
      let l := memLine s.memory k
      l.wait = 0 → dirHeld s x = false →
      let filled := fun (i : Instr) => ∃ s' y, exec i s = .next s' ∧ findLine s' x.tenant x.addr = some y ∧ y.place = .cl2 cl
        ∧ y.line = { l with lver := l.lver + 1, tenant := BitVec.ofNat 8 x.tenant, tlvl := x.line.tlvl } ∧ s'.memory = s.memory
      filled (.readyListFill cl src)
        ∧ (src = cl → 64 ≤ (headCounts s cl).2 ∨ 4095 ≤ (headCounts s cl).1 → filled (.readyListForcedFill cl))
        ∧ (x.addr < 2 ^ 64 → ((List.range 256).find? fun n => (getCluster s n).ready.contains (x.tenant, x.addr)) = some src →
          filled (.fillRequest cl x.tenant (BitVec.ofNat 64 x.addr))))
    ∧ (∀ x, core < 2048 → dieRuns s (dieOf core) = true → cl1Room s core = true → x.addr < 2 ^ 64 →
      findLine s x.tenant x.addr = some x → x.place = .flight core → dirHeld s x = false →
      let i := Instr.migrationArrival x.tenant (BitVec.ofNat 64 x.addr) core
      (x.route = s.dmgen → goes i x (.cl1 core))
        ∧ (x.route ≠ s.dmgen → exec i s = .next (putLine s { x with route := s.dmgen })))
    ∧ (∀ job, jobLive s tn job = false → jobFrozen s tn job = false → (∀ p ∈ s.net, pktIs tn job p = false) →
      endOwed s tn job = true → ∃ s', exec (.jobCompletion tn job) s = .next s'
        ∧ (∀ l ∈ s'.launched, l.tenant ≠ tn ∨ l.job ≠ job)
        ∧ ∀ l ∈ s.launched, l.tenant = tn → l.job = job → l.host = true → .completion tn job l.tag 0 ∈ s'.host.out)
    ∧ (∀ n p x l k h s1, s.pending[n]? = some p → findLine s p.tenant p.addr = some x → contentOf s x = some l → waitKind l.wait = 10 →
      p.unread = false → x.clm = false → x.stores = 0 → readsDone s x.tenant x.addr = true → jobFrozen s x.tenant l.job.toNat = false →
      cl1Room s p.core = true → dirHeld s x = false → cellOf s x.tenant x.addr = some k →
      poolTake s p.tenant = some (h, s1) → addrHeld s p.tenant h = false → ∃ s' y, exec (.handlerCreation n) s = .next s' ∧ findLine s' p.tenant h = some y
        ∧ y.line.tlvl = 1 ∧ y.line.hnd = true ∧ y.line.pc = p.entry ∧ y.line.job = l.job ∧ y.line.wait = 0
        ∧ getG y.line 0 = BitVec.ofNat 64 p.addr ∧ getG y.line 1 = p.fault.fcode.setWidth 64 ∧ getG y.line 2 = p.fault.tdata.setWidth 64
        ∧ getG y.line 3 = p.record ∧ getG y.line 4 = p.fault.addr
        ∧ ∃ z, findLine s' p.tenant p.addr = some z ∧ z.clm = true ∧ z.holder = h ∧ z.place = .dram)

/-- Wakes, posts, pushes, tickets, errors, walks and markers have the effect of the rule that names them when they arrive (R32, R146, R149, R151, R174, R256, R404, R408, R410, R411, R436). Where a clause goes past the words of the rules it is the choice of the model: log entries 8, 63, 91, 96 and 99. -/
def Obligations.message_events : Prop :=
  ∀ (s : State),
    (∀ n m, nextMsg s n = some m → cutOpen s = false →
      (findLine s m.tenant m.addr = none → exec (.directoryMessage n) s = .next { s with msgs := s.msgs.eraseIdx n })
      ∧ (∀ x, findLine s m.tenant m.addr = some x → m.dmgen ≠ s.dmgen →
        exec (.directoryMessage n) s = .next { s with msgs := s.msgs.set n { m with dmgen := s.dmgen } })
      ∧ (∀ x tag, findLine s m.tenant m.addr = some x → m.dmgen = s.dmgen → m.body = .wake tag → msgHeld s x = false →
        (∀ h, holderOf x = some h →
          (m.fwd = none → exec (.directoryMessage n) s = .next { s with msgs := s.msgs.set n { m with fwd := some h } })
          ∧ ∀ i, i = .wake n ∨ i = .directoryMessage n →
            (m.fwd = some h → ∃ s', exec i s = .next s' ∧ s'.msgs = s.msgs.eraseIdx n ∧ findLine s' m.tenant m.addr
              = some { x with line := { x.line with wait := if x.line.wait = tag then 0 else x.line.wait } })
            ∧ (m.fwd ≠ none → m.fwd ≠ some h → exec i s = .next { s with msgs := s.msgs.set n { m with fwd := none } }))
        ∧ (x.place = .dram → m.fwd = none → exec (.directoryMessage n) s
          = .next (applyWake { s with msgs := s.msgs.eraseIdx n } x tag))))
    ∧ (∀ id p, findPkt s id = some p → p.id = id → p.dst = vmodOf s p.tenant p.job → p.ans = false →
      (∀ name inc, p.body = .post name inc → isOurs s p = true → counterServes s p name = true →
        postAhead s p.tenant p.line name id = false →
        counterOk s p.tenant name = true → findLine s p.tenant p.line = none → p.line < 2 ^ 61 →
        let e := getCounter s (counterCore name) (counterIndex name)
        ∃ s', exec (.mailboxPost id) s = .next s' ∧ findPkt s' id = none
          ∧ getCounter s' (counterCore name) (counterIndex name) = { e with cnt := e.cnt + BitVec.ofNat 32 inc })
      ∧ (∀ name v, p.body = .push name v → served s p = true → p.dmgen = s.dmgen → pushAhead s p.tenant p.line name id = false →
        (∀ s1, pushQueue s p.tenant p.job name v = .done s1 → exec (.queuePush id) s = .next (acknowledge (dropPkt s1 id) p))
        ∧ (pushQueue s p.tenant p.job name v = .dropped →
          ∃ s', exec (.queuePush id) s = .next s' ∧ s'.net = (dropPkt s id).net ++ [answerPkt p .nack] ∧ s'.memory = s.memory))
      ∧ (p.body = .nack → served s p = true → id < s.nextId → ∃ s', exec (.queuePushNack id) s = .next s' ∧ findPkt s' id = none
        ∧ ((getTenant s p.tenant).qbounce ≠ 0xFFFFFFFF → (getTenant s' p.tenant).qbounce = (getTenant s p.tenant).qbounce + 1))
      ∧ (∀ size v fe k, p.body = .write size v fe → p.loc = .cell k →
        (performable s p = true → countAtCore s p = false → lineReachable s p = true →
          exec (.sweptStoreAck id) s = .next (acknowledge (performWrite (dropPkt s id) (.cell k) size v fe) p))
        ∧ (∀ y, isOurs s p = true → served s p = true → lostDie s p.loc = none → findLine s p.tenant p.line = some y →
          y.place ≠ .dram →
          ∃ s' x, exec (.deferredMemoryError id) s = .next s' ∧ s'.memory.bytes = s.memory.bytes
            ∧ poisoned s'.memory k 1 = true ∧ findLine s' p.tenant p.line = some x ∧ ⟨none, p.target, none⟩ ∈ x.derr))
      ∧ (∀ size ty r k y, p.body = .read size ty r → p.loc = .cell k → isOurs s p = true → served s p = true → lostDie s p.loc = none →
        findLine s p.tenant p.line = some y → y.place ≠ .dram → reachable s y = true → msgAhead s p.tenant p.line = false →
        ∃ s' x, exec (.deferredMemoryError id) s = .next s' ∧ s'.memory = s.memory ∧ findPkt s' id = none
          ∧ findLine s' p.tenant p.line = some x ∧ getG x.line r = 0 ∧ isPending x.line r = false ∧ ⟨some r, p.target, none⟩ ∈ x.derr))
    ∧ (∀ (tn job name : Nat) (v : Word) (key : Nat), entryLoc s tn job .walk (queueNum name) = .ok key → poisoned s.memory key 32 = false →
      Canonical s →
      let e := readEntry s.memory key
      let q := queueNum name
      namesLive s tn name e = true →
      (∀ i, e.state = 1 → (e.tail - e.head).toNat ≠ 2 ^ e.log2cap.toNat → tableLoc s ⟨tn, job, 0, .walk⟩ (elemVa e e.tail) = .ok i →
        i + 8 ≤ key ∨ key + 24 ≤ i → ∃ s', pushQueue s tn job name v = .done s' ∧ memWord s'.memory i = v
          ∧ readEntry s'.memory key = { e with tail := e.tail + 1 }
          ∧ ∀ j, (j < i ∨ i + 8 ≤ j) → (j < key ∨ key + 24 ≤ j) → byteOf s' j = byteOf s j)
      ∧ (∀ r, e.state = 2 → residentQueue s tn q e.owner.toNat = some r → (BitVec.ofNat 32 r.elems.length).toNat ≠ 2 ^ e.log2cap.toNat →
        bufferLoad (getCore s e.owner.toNat) < 2048 → dieHeld s (dieOf e.owner.toNat) = false →
        ∃ s', pushQueue s tn job name v = .done s' ∧ s'.memory = s.memory
          ∧ residentQueue s' tn q e.owner.toNat = some { r with elems := r.elems ++ [v] }))
    ∧ (∀ (tn : Nat) (name inc : Word), name.toNat < 2 ^ 17 → inc.toNat < 2 ^ 32 → dieHeld s (dieOf (counterCore name.toNat)) = false →
      let e := getCounter s (counterCore name.toNat) (counterIndex name.toNat)
      (counterOk s tn name.toNat = true → (e.exp + inc.setWidth 32 - e.cnt).toNat < 2 ^ 31 → ∃ s', exec (.mailboxExpectation tn name inc) s
        = .next s' ∧ getCounter s' (counterCore name.toNat) (counterIndex name.toNat) = { e with exp := e.exp + inc.setWidth 32 })
      ∧ (counterOk s tn name.toNat = false → exec (.mailboxExpectation tn name inc) s
        = .next (setTenant s tn { getTenant s tn with qbounce := (getTenant s tn).qbounce + 1 })))
    ∧ (∀ tn q core key, q < (getTenant s tn).qtabLen → core < 2048 → entryLoc s tn 0 .walk q = .ok key → Canonical s →
      let e := readEntry s.memory key
      let who : Who := ⟨tn, 0, 0, .walk⟩
      let turns := fun (e' : QEntry) => ∃ s', exec (.queueResidencyChange tn q core) s = .next s' ∧ readEntry s'.memory key = e'
      let whole := imageSwapped s who e.image.toNat (imagePages e.log2cap.toNat) = none
      (e.state = 1 → bufferRoom s core (e.tail - e.head).toNat = true → turns { e with state := 3, owner := BitVec.ofNat 11 core })
      ∧ (e.state = 2 → turns { e with state := 3 })
      ∧ (∀ l, e.state = 3 → residentQueue s tn q e.owner.toNat = none → whole → bufferRoom s e.owner.toNat (e.tail - e.head).toNat = true →
        imageElems s who e (e.tail - e.head).toNat e.head = some l →
        ∃ s', exec (.queueResidencyChange tn q core) s = .next s' ∧ readEntry s'.memory key = { e with state := 2 }
          ∧ (getCore s' e.owner.toNat).queues = (getCore s e.owner.toNat).queues ++ [⟨tn, q, l, e.head⟩])
      ∧ (e.state = 3 → residentQueue s tn q e.owner.toNat = none → whole → bufferRoom s e.owner.toNat (e.tail - e.head).toNat = false →
        turns { e with state := 1 })
      ∧ (∀ r s1, e.state = 3 → residentQueue s tn q e.owner.toNat = some r → whole → imageWrite who e r.elems r.head s = some s1 →
        turns { e with state := 1, head := r.head, tail := r.head + BitVec.ofNat 32 r.elems.length }))
    ∧ (∀ v i, let e := getTicket s v i
      e.state = 1 → dieHeld s (dieOfSlice v) = false → e.drop = false →
      let ended := fun (i' : Instr) (e' : TicketEntry) => ∃ s', exec i' s = .next s' ∧ getTicket s' v i = e'
        ∧ (e.got ≠ none → s'.memory = s.memory)
      ended (.ticketFetchFailure v i) { e with state := 3, got := none, key := 0, line := 0 }
      ∧ ∀ b bs, e.got.or (fetchNow s e.key (8 * 2 ^ e.size)) = some (b :: bs) →
        ended (.ticketFetchReturn v i) { e with state := 2, data := b :: bs, got := none, key := 0, line := 0 })
    ∧ (∀ (core tn : Nat) (addr : Word) level w, core < 2048 → addr.toNat < windowBase → (getTenant s tn).live = true →
      walkTable (getTenant s tn) addr.toNat = some (level, w) → leafV w = true → leafSwd w = false → leafShapeBad level w = false →
      let e : TlbEntry := ⟨tn, level, addr.toNat / 2 ^ levelShift level, w⟩
      ∃ s', exec (.tableWalk core tn addr) s = .next s' ∧ e ∈ (getCore s' core).tlb ∧ e ∈ (getCluster s' (clusterOf core)).tlb
        ∧ s'.memory = s.memory ∧ s'.tenants = s.tenants)
    ∧ (∀ inv unit i, (s.invals.find? fun i => i.id == inv) = some i → unit < 2048 → i.done.contains unit = false →
      underWay s i unit = false → ∃ s', exec (.invalidationMarker inv unit) s = .next s'
        ∧ (∀ e ∈ (getCore s unit).tlb, invalHits i e = false → e ∈ (getCore s' unit).tlb)
        ∧ ((getCore s unit).mail ≠ [] → ∀ e ∈ (getCore s' unit).tlb, invalHits i e = false))

/-- Commands start, work, fail and end, rows pass through staging, copies move and pages swap by R313 to R350 (R313, R315, R316, R327, R328, R329, R338, R349, R350, R361, R378, R391). Where a clause goes past the words of the rules it is the choice of the model: log entries 2, 22, 45, 90, 100 and 101. -/
def Obligations.engine_events : Prop :=
  ∀ (s : State) (cl n : Nat) (c : Cmd) (j : JobEntry), cl < 256 →
    let has := fun (eng entry : Nat) => tabFind entry (getEngine s eng).jobs = some j
    let ended := fun (s' : State) (eng entry state : Nat) => ∃ j', tabFind entry (getEngine s' eng).jobs = some j' ∧ j'.state = state
      ∧ j'.seq = j.seq
    let gone := fun (s' : State) (eng : Nat) => let e := getEngine s' eng
      ∀ x ∈ e.queue ++ e.running ++ e.parked ++ e.held, x.entry ≠ c.entry
    (∀ eng, parkedNext s eng = some c → eng < 1024 → has eng c.entry → ∃ s', exec (.commandStart eng) s = .next s'
      ∧ c ∈ (getEngine s' eng).running ∧ ended s' eng c.entry 2 ∧ (∀ x ∈ (getEngine s' eng).parked, x.entry ≠ c.entry)
      ∧ s'.memory = s.memory)
    ∧ (parkedNext s (copyOf cl) = none → has (copyOf cl) c.entry →
      ((List.range 8).findSome? fun ch => (channelNext s cl ch).map fun c => (ch, c)) = some (n, c) →
      ∃ s', exec (.commandStart (copyOf cl)) s = .next s' ∧ ended s' (copyOf cl) c.entry 2 ∧ s'.memory = s.memory
        ∧ getChan s' cl n = { getChan s cl n with wm := c.at_, cst := 1, cseq := (getChan s cl n).cseq + 1, tenant := c.tenant,
                                                  cur := some c, queue := (getChan s cl n).queue.drop 1 })
    ∧ (∀ eng, eng < 1024 → eng % 4 ≠ 2 → parkedNext s eng = none → headCmd s eng = some c → mayStart s eng c = true → c.guard = none →
      has eng c.entry → ∃ s', exec (.commandStart eng) s = .next s' ∧ c ∈ (getEngine s' eng).running ∧ ended s' eng c.entry 2
        ∧ (∀ x ∈ (getEngine s' eng).queue, x.entry ≠ c.entry) ∧ s'.memory = s.memory)
    ∧ (∀ eng k, runningCmd s eng n = some c → mayWork s eng c = true → cmdFault s eng c = some k → c.entry = n →
      has eng n → ∃ s', exec (.commandFault eng n) s = .next s' ∧ gone s' eng ∧ ended s' eng n 6)
    ∧ (∀ eng, runningCmd s eng n = some c → c.entry = n → mayWork s eng c = true → cmdFault s eng c = none →
      has eng n → (eng = lastOf cl → c.op = .lswap → ∃ s', exec (.commandCompletion eng n) s = .next s' ∧ gone s' eng ∧ ended s' eng n 4
        ∧ (getCluster s' cl).active = (getCluster s cl).shadow ∧ (getCluster s' cl).shadow = (getCluster s cl).active)
      ∧ (∀ i v, eng = scaleOf cl → c.op = .scmc i v → Canonical s → ∃ s', exec (.commandCompletion eng n) s = .next s' ∧ gone s' eng
        ∧ ended s' eng n 4 ∧ memRead s'.memory (scaleKey s cl i) 4 = v.toNat
        ∧ ∀ k, k < scaleKey s cl i ∨ scaleKey s cl i + 4 ≤ k → byteOf s' k = byteOf s k)
      ∧ (∀ i r, eng = scaleOf cl → c.op = .sld i → c.res = some r → ∃ s', exec (.commandCompletion eng n) s = .next s' ∧ gone s' eng
        ∧ ended s' eng n 4 ∧ s'.memory = s.memory ∧ ⟨c.tenant, c.line, .result r (BitVec.ofNat 64 (scaleBits s cl i)) 0, none, s.dmgen⟩ ∈ s'.msgs)
      ∧ (∀ va r level w, 1024 ≤ eng → eng < 1032 → c.op = .swpq va → c.res = some r →
        walkTable (getTenant s c.tenant) va = some (level, w) →
        let move := tabFind (pteKey level va) (getTenant s c.tenant).moves
        let pst := if leafSwp w = false then 4 else if move.any (·.outbound) then 1 else if move.isSome then 3
          else if leafSwd w then 2 else 0
        ∃ s', exec (.commandCompletion eng n) s = .next s' ∧ gone s' eng ∧ ended s' eng n 4 ∧ s'.memory = s.memory
          ∧ ⟨c.tenant, c.line, .result r (BitVec.ofNat 64 (pst + b2n (leafZe w) * 8 + leafRc w * 16)) 0, none, s.dmgen⟩ ∈ s'.msgs))
    ∧ (∀ core act dst stg he acc spz rtz arg a s1, deliveringCmd s cl = some c →
      c.op = .lstream act dst (some stg) he acc spz rtz arg → clusterOf core = cl → mayWork s (lastOf cl) c = true →
      cmdFault s (lastOf cl) c = none → cl1Room s core = true → poolTake s c.tenant = some (a, s1) →
      addrHeld s c.tenant a = false →
      let begins := fun (row srow : Nat) => ∃ s' y, exec (.stagingDelivery cl core) s = .next s' ∧ findLine s' c.tenant a = some y
        ∧ y.place = .cl1 core ∧ y.line.pc = he
        ∧ y.line.fin = true ∧ getG y.line 0 = BitVec.ofNat 64 row ∧ getG y.line 1 = BitVec.ofNat 64 stg.handle.toNat
        ∧ getTag y.line 1 = 8 ∧ getG y.line 2 = arg ∧ getG y.line 3 = BitVec.ofNat 64 srow
      (∀ r, c.stg.find? rowWaiting = some r → begins r.row r.srow)
      ∧ (c.stg.find? rowWaiting = none → (∀ r ∈ c.stg, r.srow ≠ c.at_ % min stg.desc.rows 8) →
        begins c.at_ (c.at_ % min stg.desc.rows 8)))
    ∧ (∀ act dst stg he acc spz rtz arg r, ((getEngine s (lastOf cl)).running.find? fun c => c.stg.any fun r => r.srow == n && r.state == 2)
        = some c → (c.stg.find? fun r => r.srow == n && r.state == 2) = some r → c.op = .lstream act dst (some stg) he acc spz rtz arg →
      mayWork s (lastOf cl) c = true → cmdFault s (lastOf cl) c = none →
      let out := drainRow dst rtz ((List.range dst.desc.cols).map (tileBits s stg n))
      ∃ s', exec (.stagingRowWrite cl n) s = .next s' ∧ s'.memory = (writeRow dst r.row (out.map (·.1)) s).memory
        ∧ ∀ x ∈ (getEngine s' (lastOf cl)).running, x.entry = c.entry → ∀ w ∈ x.stg, ¬ (w.srow = n ∧ w.state = 2))
    ∧ (∀ src dst len ch0 dpat d k, n < 8 → (getChan s cl n).cur = some c → (getChan s cl n).cst = 1 →
      c.op = .copy src dst len ch0 false false dpat → c.sent = none → mayWork s (copyOf cl) c = true → Canonical s →
      let m := segmentLen src dst len false dpat.toNat c.at_
      checkSegment s cl c (src + c.at_) (dst + c.at_) m = .go k (.cell d) → c.at_ + m < len →
      ∃ s', exec (.copySegment cl n) s = .next s' ∧ (getChan s' cl n).wm = c.at_ + m
        ∧ (∀ i, i < m → byteOf s' (d + i) = byteOf s (k + i)) ∧ ∀ j, j < d ∨ d + m ≤ j → byteOf s' j = byteOf s j)
    ∧ (∀ (tn : Nat) (page : Word) level w m, pageMove s tn page.toNat = some (level, w, m) →
      let key := pteKey level page.toNat
      (∀ frame, m.outbound = true → m.frame = some frame → markersBack s m = true → (getDie s (m.floc / 2 ^ 37)).state = 0 →
        framePoisoned s frame level = false → swapOutJob s tn level page.toNat = none → ∃ s' img,
        exec (.swapOutImageWritten tn page) s = .next s' ∧ tabFind m.floc s'.flash = some img ∧ img.tenant = tn
          ∧ img.units = pageImages s level w frame ∧ (getTenant s' tn).frames = (getTenant s tn).frames ++ [frame * 4 + level]
          ∧ (getTenant s' tn).moves = tabDel key (getTenant s tn).moves ∧ s'.memory = s.memory)
      ∧ (∀ f, m.outbound = false → m.frame = none → ((getTenant s tn).frames.find? fun f => f % 4 == level) = some f →
        ∃ s', exec (.swapInFrameGrant tn page) s = .next s' ∧ (getTenant s' tn).frames = (getTenant s tn).frames.erase f
          ∧ tabFind key (getTenant s' tn).moves = some { m with frame := some (f / 4) } ∧ s'.memory = s.memory)
      ∧ (∀ frame img, m.outbound = false → m.frame = some frame → tabFind m.floc s.flash = some img → img.tenant = tn →
        (getDie s (m.floc / 2 ^ 37)).state = 0 → dieHeld s ((homeDie s frame).getD 0) = false → (getTenant s tn).heldRecs = [] → (getTenant s tn).heldRoots = [] →
        (getTenant s tn).lostQueues = [] →
        ∃ s', exec (.pageLanding tn page) s = .next s' ∧ s'.flash = tabDel m.floc s.flash
          ∧ tabFind key (getTenant s' tn).ptab = some (leafWith w false (frame / 65536))
          ∧ s'.memory = writeUnits frame img.units (memScrub s.memory frame (2 ^ levelShift level)))
      ∧ (∀ frame, m.outbound = false → m.frame = some frame → checkpointing s tn = false →
        ∃ s', exec (.flashReadError tn page) s = .next s' ∧ s'.flash = s.flash ∧ (s.lines = [] → s.clusters = [] → s.dies = [] → s.switches = [] →
          (getTenant s' tn).ptab = (getTenant s tn).ptab ∧ (getTenant s' tn).frames = (getTenant s tn).frames ++ [frame * 4 + level]
            ∧ s'.memory = s.memory)))

/-- Boot, power, the phases of a remap and the loss of a die act by R439 to R444, R485 and R491 (R437, R439, R440, R442, R443, R485, R491). Where a clause goes past the words of the rules it is the choice of the model: log entries 5, 28, 54, 56, 65 and 71. -/
def Obligations.boot_and_die_events : Prop :=
  ∀ (s : State),
    (∀ b, s.host.phase = 0 →
      (∀ n, bootFailure s.host b = some n → exec (.boot b) s
        = .next { s with host := { s.host with phase := 2, out := s.host.out ++ [.bootFail n] } })
      ∧ (b.imageOk = false → bootFailure s.host b = some 1)
      ∧ (b.imageOk = true → (b.keyDigest ≠ s.host.vendorKey → bootFailure s.host b = some 2)
        ∧ (b.keyDigest = s.host.vendorKey → (b.sigOk = false → bootFailure s.host b = some 3)
          ∧ (b.sigOk = true → (b.version.toNat < s.host.minVersion.toNat → bootFailure s.host b = some 4)
            ∧ (s.host.minVersion.toNat ≤ b.version.toNat → (b.bodySum ≠ b.bodyDigest → bootFailure s.host b = some 5)
              ∧ (b.bodySum = b.bodyDigest → bootFailure s.host b = none)))))
      ∧ (bootFailure s.host b = none → bootChoicesOk b = true → ∃ s', exec (.boot b) s = .next s' ∧ s'.host.phase = 1
        ∧ s'.host.hostKey = b.hostKeyDigest ∧ s'.host.version = b.version ∧ s'.host.microcode = b.microcode ∧ s'.dies = bootDies b
        ∧ s'.host.bodyDigest = b.bodyDigest ∧ s'.host.faultCkpt = b.faultCkpt ∧ s'.etherType = b.etherType
        ∧ s'.host.identity = Config.identityKey s.host.seed
        ∧ ((b.dies.map (·.1)).Nodup → ∀ e ∈ b.dies, getDie s' e.1 = ⟨e.2.1, e.2.2, Engine.zero, []⟩)
        ∧ ((b.cl2.map (·.1)).Nodup → ∀ e ∈ b.cl2, (getCluster s' e.1).cl2Mib = e.2)
        ∧ ((b.helio.map (·.1)).Nodup → ∀ e ∈ b.helio, (getCluster s' e.1).helio = e.2)
        ∧ ((b.spill.map (·.1)).Nodup → ∀ e ∈ b.spill, (getCore s' e.1).spillLog = e.2)
        ∧ (∀ cl, cl ∉ b.cl2.map (·.1) → (getCluster s' cl).cl2Mib = (getCluster s cl).cl2Mib)
        ∧ (∀ cl, cl ∉ b.helio.map (·.1) → (getCluster s' cl).helio = (getCluster s cl).helio)
        ∧ (∀ c, c ∉ b.spill.map (·.1) → (getCore s' c).spillLog = (getCore s c).spillLog)
        ∧ s'.memory = s.memory ∧ s'.tenants = s.tenants))
    ∧ (∀ b, s.host.phase ≠ 0 → exec (.boot b) s = .next s)
    ∧ exec .clockReduction s = .next { s with host := { s.host with slowed := true } }
    ∧ (s.host.faultCkpt = false → ∃ s' t r, exec .supplyFaultShutdown s = .next s' ∧ s'.host.phase = 3
      ∧ s'.host.out = s.host.out ++ [.deviceFault t r] ∧ s'.memory = s.memory)
    ∧ (s.remap = none → exec .remapPhaseCompletion s = .next s ∧ exec .remapAbandoned s = .next s)
    ∧ (∀ r, s.remap = some r →
      let phase := fun (n : Nat) => ∃ s', exec .remapPhaseCompletion s = .next s' ∧ s'.remap = some { r with phase := n }
        ∧ s'.memory = s.memory
      (r.phase = 1 → dieStopped s r.die = true → phase 2)
      ∧ (r.phase = 2 → cachesEmpty s r.die = true → phase 3)
      ∧ (r.phase = 3 → phase 4)
      ∧ (r.phase = 4 → r.src ≠ r.dst → Canonical s → ∃ s', exec .remapPhaseCompletion s = .next s'
        ∧ (∃ i, s'.remap = some { r with phase := 5, inval := some i }) ∧ s'.dmgen = s.dmgen + 1
        ∧ ((getDie s r.die).state = 1 → getDie s' r.die = { getDie s r.die with phys := r.dst })
        ∧ ∀ o, o < 2 ^ 38 → byteOf s' (r.dst * 2 ^ 38 + o) = byteOf s (r.src * 2 ^ 38 + o))
      ∧ (r.phase = 5 → remapMarked s r = true → exec .remapPhaseCompletion s = .next (endRemap s r.die))
      ∧ (r.phase < 5 → exec .remapAbandoned s = .next (endRemap { s with failed := s.failed ++ [r.dst] } r.die))
      ∧ (5 ≤ r.phase → exec .remapAbandoned s = .next s))
    ∧ (∀ id p, findPkt s id = some p → p.id = id →
      let routed := fun (q : Pkt) => ∃ s', exec (.packetReroute id) s = .next s' ∧ findPkt s' id = some q ∧ s'.memory = s.memory
      ((∀ va, p.loc ≠ .virt va) → routed { p with dmgen := s.dmgen })
        ∧ ∀ va l, p.loc = .virt va → isAccess p = true → routedLoc s p.tenant va = some l → routed { p with loc := l, dmgen := s.dmgen })
    ∧ (∀ die, die < 8 → (getDie s die).state ≠ 3 → ∃ s' t r l, exec (.dieLost die) s = .next s' ∧ (getDie s' die).state = 3
      ∧ s'.host.out = l ++ [.deviceFault t r] ∧ r.fcode = 29 ∧ ∀ e ∈ s'.flash, e.1 / 2 ^ 37 ≠ die)

/-- Frames are read, delivered, acknowledged, repeated, nacked and failed, a switch and a resume go through their phases, and markers latch (R449, R450, R451, R452, R453, R454, R458, R460, R461, R468, R477). Where a clause goes past the words of the rules it is the choice of the model: log entries 5, 25, 27, 43, 68, 75 and 98. -/
def Obligations.fabric_and_gang_events : Prop :=
  ∀ (s : State),
    (∀ port bytes, port ≤ hostPort → dieRuns s (if port = hostPort then 0 else portDie port) = true →
      let does := fun (t : State) => exec (.fabricDataFrame ⟨port, bytes⟩) s = .next t
      (readFrame s.etherType bytes = .discarded → does s)
      ∧ (readFrame s.etherType bytes = .strange → does { s with strange := s.strange + 1 })
      ∧ (∀ f, readFrame s.etherType bytes = .frame f → port = hostPort → fromBound s port f = false → does s)
      ∧ ∀ f, readFrame s.etherType bytes = .frame f → (port = hostPort → fromBound s port f = true) →
        (f.ty = 1 ∨ f.ty = 6 → does (takeAck s (reverseFlow f.flow) f.ackSeq))
        ∧ (f.ty = 2 → does (resendFrom (takeAck s (reverseFlow f.flow) f.ackSeq) (reverseFlow f.flow) f.seq))
        ∧ (f.ty = 4 → does (takeAck (takeDeviceNack s (reverseFlow f.flow) f.reason fun u => seqBefore u.seq f.ackSeq)
          (reverseFlow f.flow) f.ackSeq))
        ∧ ∀ fl, findFlow s f.flow = some fl → (f.ty = 0 ∨ f.ty = 3 ∨ f.ty = 5) →
          let answered := fun (t : State → Frame → Prop) => ∃ s' q g l, does s'
            ∧ s'.egress = l ++ [(q, frameBytes f.from_ (portAddress q) s.etherType g)] ∧ g.flow = reverseFlow f.flow ∧ t s' g
          let kept := fun (s' : State) => s'.net = s.net ∧ s'.memory = s.memory ∧ s'.lines = s.lines
          (flowDead s f.flow = true → ∃ s', does s' ∧ kept s' ∧ s'.egress = s.egress)
          ∧ (flowDead s f.flow = false →
            (f.seq ≠ fl.expect → answered fun s' g => kept s' ∧ (seqBefore f.seq fl.expect = true → g.ty = 1)
              ∧ (seqBefore f.seq fl.expect = false → g.ty = 2 ∧ g.seq = fl.expect))
            ∧ (f.seq = fl.expect → frameKnown s port f = false → answered fun s' g => kept s' ∧ g.ty = 4 ∧ g.reason = 0
              ∧ (findFlow s' f.flow).map (·.expect) = some (fl.expect + 1))
            ∧ (f.seq = fl.expect → frameKnown s port f = true → isReinjecting s f.flow.tenant (rawJob f) = true →
              answered fun s' g => kept s' ∧ g.ty = 2 ∧ g.seq = fl.expect ∧ (findFlow s' f.flow).map (·.expect) = some fl.expect)
            ∧ (f.seq = fl.expect → frameKnown s port f = true → isReinjecting s f.flow.tenant (rawJob f) = false →
              (s.net.any fun p => !(isOurs s p) && pktClass p.body == f.flow.cls) = false →
              does (sendAck (deliverFrame (takeAck (putFlow (putFlow s fl) { fl with expect := fl.expect + 1 })
                (reverseFlow f.flow) f.ackSeq) port f) f)
              ∧ ∀ r p, f.ty = 0 → f.pkts = [r] → f.flow.src ≠ hostMod → pktOfRaw f.flow.tenant f.flow.job r = some p → usable s p = true →
                isLate s p = false → answered fun s' g => g.ty = 1 ∧ s'.net = s.net ++ [localPkt s port p] ∧ s'.memory = s.memory
                  ∧ s'.lines = s.lines ∧ (findFlow s' f.flow).map (·.expect) = some (fl.expect + 1))))
    ∧ (∀ id fl, findFlow s id = some fl →
      let again := fun (u : Frame × Nat × Nat) => (fl.port, frameBytes (frameTo s u.1) (portAddress fl.port) s.etherType u.1)
      (∀ ack, ∀ i, i = .fabricAck id ack ∨ i = .heartbeat id ack → ∃ s', exec i s = .next s' ∧ findFlow s' id
        = some { fl with unacked := fl.unacked.filter fun u => !(seqBefore u.1.seq ack) })
      ∧ (∀ seq, fl.failed = false → ∃ s', exec (.transportNack id seq) s = .next s' ∧ s'.egress = s.egress
        ++ (fl.unacked.filter fun u => !(seqBefore u.1.seq seq) && decide (u.2.2 < 64)).map again)
      ∧ (exec (.deviceNack id 1) s = .next s)
      ∧ (∀ j, flowJobs fl = [j] → ∃ s', exec (.deviceNack id 0) s = .next s' ∧ ∀ p ∈ s'.net, pktIs id.tenant j p = false)
      ∧ (∀ u, fl.failed = false → (fl.unacked.find? fun u => decide (1024 ≤ u.2.1) && decide (u.2.2 < 64)) = some u →
        ∃ s', exec (.retransmission id) s = .next s' ∧ s'.egress = s.egress ++ [again u])
      ∧ (fl.failed = false → (fl.unacked.any fun u => decide (64 ≤ u.2.2)) = true ∨ (fl.unacked = [] ∧ fl.expect ≠ 0) →
        ∃ s' r l, exec (.flowFailure id) s = .next s' ∧ s'.host.out = l ++ [.deviceFault id.tenant r]
          ∧ findFlow s' id = some { fl with failed := true, unacked := [] }))
    ∧ (∀ port p, port < 16 → dieRuns s (portDie port) = true → s.net.find? (outgoing s port) = some p → flowDead s (flowOf s p) = false →
      ∃ s' d g, exec (.heartbeatSend port) s = .next s'
        ∧ s'.egress = s.egress ++ [(port, frameBytes d (portAddress port) s.etherType g)]
        ∧ g.ty = 0 ∧ g.flow = flowOf s p ∧ g.pkts = [p] ∧ d = addressOf s p.tenant p.job p.dst)
    ∧ (∀ m, s.host.out[s.host.sent]? = some m → (∀ fl, findFlow s (hostFlow m) = some fl → fl.failed = false) →
      ∃ s' q g, exec (.heartbeatSend hostPort) s = .next s' ∧ s'.host.sent = s.host.sent + 1
        ∧ s'.egress = s.egress ++ [(q, frameBytes (s.host.bound.getD (-1)) (portAddress q) s.etherType g)]
        ∧ g.ty = 0 ∧ g.flow = hostFlow m ∧ g.pkts = hostPkts m)
    ∧ (∀ tn job src cls, isMember s tn job src = true →
      (findSwitch s tn job = none → s.accepted.getLsbD 4 = true → s.switches.length < 9 → checkpointing s tn = false →
        ∃ s' w, exec (.switchControl tn job src false) s = .next s' ∧ findSwitch s' tn job = some w ∧ w.resume = false
          ∧ w.phase = if remapWaits s then 0 else 1)
      ∧ (∀ w, findSwitch s tn job = some w → w.resume = false → w.phase ≤ 3 → cls < 3 → w.markers.contains (src, cls) = false →
        ∃ s', exec (.meridianMarker tn job src cls) s = .next s'
          ∧ findSwitch s' tn job = some { w with markers := w.markers ++ [(src, cls)] }))
    ∧ (∀ tn job w, findSwitch s tn job = some w →
      let phase := fun (i : Instr) (n : Nat) => ∃ s' w', exec i s = .next s' ∧ findSwitch s' tn job = some w' ∧ w'.phase = n
      (w.resume = false →
        (w.phase = 0 → remapWaits s = false → checkpointing s tn = false → phase (.switchPhaseCompletion tn job) 1)
        ∧ (w.phase = 1 → frozenNow s tn job = true → phase (.switchPhaseCompletion tn job) 2)
        ∧ (w.phase = 2 → cutOpen s = false → phase (.switchPhaseCompletion tn job) 3)
        ∧ (w.phase = 3 → allMarked s w = true → ∃ s' w', exec (.switchPhaseCompletion tn job) s = .next s'
          ∧ findSwitch s' tn job = some w' ∧ w'.phase = 4
          ∧ w'.pkts = w.pkts ++ (sortBy bufferKey (bufferAll s (s.net.filter (sweeps tn job))).1).map (savedPkt s)
          ∧ w'.msgs = w.msgs ++ s.msgs.filter (msgIs s tn job)
          ∧ ∀ p ∈ s'.net, sweeps tn job p = false)
        ∧ (w.phase = 4 → ticketsStill s tn job = true → phase (.switchPhaseCompletion tn job) 5)
        ∧ (w.phase = 5 → phase (.switchPhaseCompletion tn job) 6)
        ∧ (w.phase = 6 → evictedNow s tn job = true → w.keep = false → ∃ s', exec (.switchPhaseCompletion tn job) s = .next s'
          ∧ findSwitch s' tn job = some { w with phase := 7, ready := readyCounts s tn job }
          ∧ s'.host.out = s.host.out ++ [.switched tn job w.vmod false w.lcount]))
      ∧ (w.resume = true →
        (∀ s1, w.phase = 1 → reopenAll tn job (savedWindows w) s = some s1 → phase (.resumePhaseCompletion tn job) 2)
        ∧ (w.phase = 2 → ∃ s' w', exec (.resumePhaseCompletion tn job) s = .next s' ∧ findSwitch s' tn job = some w' ∧ w'.phase = 3
          ∧ s'.net = (renumber s (sortBy (·.id) w.pkts ++ w.late)).1 ++ s.net ∧ s'.msgs = w.msgs ++ s.msgs)
        ∧ (w.phase = 3 → ∃ s', exec (.resumePhaseCompletion tn job) s = .next s' ∧ findSwitch s' tn job = none
          ∧ s'.host.out = s.host.out ++ [.switched tn job (vmodOf s tn job) true w.lcount])))
    ∧ (∀ kind block link t, s.transit = some t → isLink s kind block link = true → t.markers.contains (kind, block, link) = false →
      hasLatched t (linkPeer kind block link).1 (linkPeer kind block link).2.1 = true →
      ∃ s', exec (.transitMarker kind block link) s = .next s' ∧ ∀ u, s'.transit = some u → hasLatched u kind block = true
        ∧ u.markers = t.markers ++ [(kind, block, link)])

/-- At reset every byte is zero, nothing is held, every die is online on its own pair, and boot has not run (R125, R140, R148, R190, R210, R319, R437, R481, R485). Where a clause goes past the words of the rules it is the choice of the model: log entry 3. -/
def Obligations.reset_values : Prop :=
  let s := State.reset
  Canonical s ∧ s.thr = none ∧ s.lines = [] ∧ s.net = [] ∧ s.msgs = [] ∧ s.host.phase = 0 ∧ s.host.bound = none
    ∧ s.offered = 0x3F ∧ s.accepted = 0 ∧ s.dmgen = 0
    ∧ (∀ k, byteOf s k = 0 ∧ feAt s.memory k = false ∧ poisoned s.memory k 8 = false)
    ∧ (∀ t, (getTenant s t).live = false ∧ (getTenant s t).ptab = [] ∧ (getTenant s t).fqTail = 0 ∧ (getTenant s t).qbounce = 0)
    ∧ (∀ c i, getCounter s c i = ⟨0, 0, 0, false, false⟩ ∧ (getCore s c).spillLog = 12 ∧ (getCore s c).deque = []
      ∧ (getCore s c).ring = [])
    ∧ (∀ cl i, (getTdt s cl i).state = 0 ∧ (getGuard s cl i).state = 0 ∧ (getCluster s cl).cl2Mib = 2
      ∧ (getCluster s cl).active.k = 0 ∧ (getCluster s cl).shadow.k = 0)
    ∧ (∀ e, (getEngine s e).queue = [] ∧ (getEngine s e).running = [] ∧ (getEngine s e).jobs = [])
    ∧ ∀ v, getDie s v = ⟨v, 0, Engine.zero, []⟩

/-- A step is the turn that comes next: a core issues the word its scan finds, or an event happens (R29, R68, R120, R122). Where a clause goes past the words of the rules it is the choice of the model: log entries 1, 4, 17 and 89. -/
def Obligations.step_runs_the_turn : Prop :=
  ∀ (s : State) (rest : List Turn), s.host.phase = 1 →
    let s0 : State := { s with agenda := rest, tick := s.tick + 1 }
    (∀ (c : Nat) (x : LiveLine) (s1 : State), s.agenda = .cycle c :: rest → c < 2048 →
      (scan c (scanOrder (getCore s c).lastSlot) s0 = (s1, none) → step s = .next (passCycle s1 c))
      ∧ (scan c (scanOrder (getCore s c).lastSlot) s0 = (s1, some x) →
        let s2 : State := { dropLine (passCycle s1 c) x.tenant x.addr with thr := some x }
        let who : Who := ⟨x.line.tenant.toNat, x.line.job.toNat, x.line.tlvl.toNat, .core c⟩
        (∀ w i, x.word = some w → featureOk s2 w = true → decodeNat w = .ok i → step s = endCycle (exec i s2))
        ∧ ∀ k i, x.word = none → x.derr = [] → awaited x i = none → locate s2 who .fetch (wordPc x).toNat 0 = .ok (.cell k) →
          poisoned s2.memory k 4 = false →
          featureOk s2 (memRead s2.memory k 4) = true → decodeNat (memRead s2.memory k 4) = .ok i →
          step s = endCycle (exec i { s2 with thr := some { x with word := some (memRead s2.memory k 4) } })))
    ∧ (∀ (i : Instr), s.agenda = .event i :: rest →
      step s = if eventAllowed s i then exec i s0 else .next s0)
    ∧ (∀ (c k : Nat) (x : LiveLine) (before after : List Nat), scanOrder (getCore s c).lastSlot = before ++ k :: after →
      (∀ j ∈ before, ∀ y, s.lines.find? (inSlot c j) = some y → eligible s c y = false) →
      s.lines.find? (inSlot c k) = some x → eligible s c x = true → x.forfeit = 0 →
      scan c (scanOrder (getCore s c).lastSlot) s = (s, some x))
    ∧ (∀ (c k : Nat) (t : LiveLine), s.thr = some t → t.place = .slot c k →
      (t.line.wait = 0 → endCycle (.next s) = .next { putLine s t with thr := none })
        ∧ (t.line.wait ≠ 0 → ∃ y, endCycle (.next s) = .next { putLine s y with thr := none } ∧ y.place = .cl1 c ∧ y.line = t.line))

/-- The words that the spec writes out bit by bit decode to the instructions it gives for them, and encode back (R48, R68, R52, R97, R113). -/
def Obligations.sample_words_decode : Prop :=
  ∀ p ∈ ([(0x002D0000, .add 0 5 5 0 0 0), (0x00194081, .add 0 3 1 2 2 1), (0x0009E800, .shl 0 1 1 7 0 0),
      (0x1828CDEF, .movi 0 5 0xCDEF), (0x1C3B00FF, .movh 0 7 3 0x00FF), (0x4C18FFFD, .loop 0 3 0xFFFD),
      (0x240B0000, .cmpi 0 1 3 0 0), (0x2008A600, .cmp 0 1 0 5 6 0 0), (0x40400005, .br 1 5),
      (0x381E448D, .bextb 0 3 6 18 13), (0x302FC700, .fma 0 5 7 6 0 0), (0x3024A0C1, .fadd 0 4 4 5 3 1),
      (0x342D0020, .fcvt 0 5 5 0 4 0), (0x601A0001, .ld 0 3 2 0 0 0 1), (0x64371000, .st 0 6 7 0 2 0 0),
      (0x6820F000, .ldx 0 4 0 15 0 0 0 0), (0x6C25F000, .stx 0 4 5 15 0 0 0 0), (0x502E8000, .spawn 0 5 6 4 0 0),
      (0x54040000, .join 0 4), (0x54040201, .exitCounter 0 4), (0x54050400, .goc 0 5),
      (0x580F2002, .waitne 0 1 7 1 0 2), (0x783EE000, .amoAdd 0 7 6 7 0 0 0), (0x7C00000A, .fence 0 2 2),
      (0x803E0000, .tkld 0 7 6 0 0), (0x8036E102, .tkred 0 6 6 7 2), (0x8406E202, .mwait 0 6 7 2),
      (0x881A4300, .qmake 0 3 2 2), (0x883C2100, .deq 0 7 4 1 0), (0x8806A000, .enq 0 6 5 0),
      (0x942C1135, .tcvt 0 5 4 1 3 0 1 1), (0x9433F205, .tred 0 6 3 7 0 0 0 1 1), (0x981E000D, .cpy 0 3 6 0 0 1 1 1),
      (0x9C1EE005, .scmc 0 3 6 7 0 0 0 1 1), (0xA00A0000, .gslot 0 1 2), (0xA41D0200, .jstat 0 3 5),
      (0xB0110000, .capmint 0 2 1), (0xC4200009, .csrr 0 4 9), (0xC0000005, .trap 0 5),
      (0xCC000001, .rft 0 0 1), (0xD00A0100, .cclaim 0 1 2), (0xD8000000, .nop 0),
      (0xD8040200, .seal 0 4), (0xFC6789AB, .hext 0x6789AB)] : List (Nat × Instr)),
    decodeNat p.1 = .ok p.2 ∧ encodeNat p.2 = some p.1 ∧ p.2.wf = true

/-- Decode and encode agree on every instruction and on every word (R48, R68, R52). -/
def Obligations.encoding_round_trip : Prop :=
  (∀ (i : Instr) (n : Nat), i.wf = true → encodeNat i = some n → n < 2 ^ 32 ∧ decodeNat n = .ok i)
    ∧ ∀ (w : Nat) (i : Instr), w < 2 ^ 32 → decodeNat w = .ok i → i.wf = true ∧ encodeNat i = some w

/-- No step of the machine ever stops: every state has a next state (R46, R47, R68). Where a clause goes past the words of the rules it is the choice of the model: log entries 1 and 62. -/
def Obligations.every_step_answers : Prop :=
  (∀ s : State, ∃ s', Sys2Proof.core.step s = .next s') ∧ ∀ s : State, Safe s

/-- Every step keeps the memory in its canonical form (R3, R147, R404). -/
def Obligations.steps_keep_memory_canonical : Prop :=
  ∀ (s s' : State), Canonical s → step s = .next s' → Canonical s'

/-- Privilege, guard, pending registers and the window are met in the order of R47, by every word (R16, R22, R24, R47, R49, R416). Where a clause goes past the words of the rules it is the choice of the model: log entries 11, 13 and 18. -/
def Obligations.words_wait_their_turn : Prop :=
  ∀ (i : Instr) (w : Nat) (s : State) (t : LiveLine), encodeNat i = some w → s.thr = some t → w < 0xFC000000 →
    let g : BitVec 4 := BitVec.ofNat 4 (w / 2 ^ 22)
    let tl := t.line.tlvl.toNat
    (tl < wordLevel i → exec i s = .next (trapped s t (mkTrap 12 w 0)))
    ∧ (wordLevel i ≤ tl → guardTrue t.line g = false → ∃ t', exec i s = .next { countIssue s t.place with thr := some t' }
      ∧ t'.line = { t.line with
          pc := wordPc t + 4, hcnt := 0, hpay := 0,
          lacnt := if t.line.laopen = true ∧ t.line.lacnt ≠ 0 then t.line.lacnt - 1 else t.line.lacnt }
      ∧ t'.stores = t.stores ∧ t'.place = t.place)
    ∧ (wordLevel i ≤ tl → guardTrue t.line g = true → t.line.laopen = true → t.line.lacnt = 0 → t.line.pend ≠ 0 ∨ t.stores ≠ 0 →
      exec i s = .next (draining s t .all)
        ∨ ∃ r, isPending t.line r = true ∧ exec i s = .next (waiting s t (waitTag 1 r.toNat)))
    ∧ (wordLevel i ≤ tl → guardTrue t.line g = true →
      let named := (usesOf i).srcs ++ (usesOf i).dsts
      ∀ r ∈ named, isPending t.line r = true → (∀ q ∈ named, q.toNat < r.toNat → isPending t.line q = false) →
        exec i s = .next (waiting s t (waitTag 1 r.toNat)))

/-- Taking a trap parks the line, names a handler or not, and writes the record, by R46 and R396 to R401 (R46, R396, R398, R399, R400, R401). Where a clause goes past the words of the rules it is the choice of the model: log entries 13 and 59. -/
def Obligations.trap_entry : Prop :=
  ∀ (s : State) (t : LiveLine) (e : Trap),
    let x := getTenant s t.tenant
    let s' := trapped s t e
    let low := t.line.tlvl = 0 ∧ e.code ≠ 9
    let names := fun (v : Word) => v.getLsbD 63 && nbits v.toNat 48 15 == 0 && nbits v.toNat 0 2 == 0
    let entry := locate s ⟨t.tenant, 0, 1, .walk⟩ .load (x.trapvec.toNat + 8 * e.code.toNat) 0
    let fault := fun (hnd : Bool) => (⟨t.addr, t.line.pc, e.code, t.line.tlvl, 0, hnd, e.addr, e.tdata, t.line.job.toNat⟩ : FaultRec)
    let told := ∃ r out, s'.host.out = out ++ [.deviceFault t.tenant r] ∧ r.fcode = e.code ∧ r.line = t.addr ∧ r.pc = t.line.pc
    (∃ y, s'.thr = some y ∧ y.line = { t.line with wait := 0xA000000000000000, fcode := e.code, tdata := e.tdata }
      ∧ y.place = t.place ∧ y.md = none ∧ (low → y.fw = t.fw) ∧ (¬ low → y.fw = true))
    ∧ (low → ∀ k, entry = .ok (.cell k) →
      (names (memWord s.memory k) = true → ∃ r, s'.pending
        = s.pending ++ [⟨t.tenant, t.addr, coreOfPlace t.place, fault true, r, (memWord s.memory k).setWidth 48, false⟩])
      ∧ (names (memWord s.memory k) = false → s'.pending = s.pending))
    ∧ (low → ∀ va, entry = .error (.page va) →
      s'.pending = s.pending ++ [⟨t.tenant, t.addr, coreOfPlace t.place, fault false, 0, 0, true⟩])
    ∧ (∀ hnd, (low ∧ (∃ k, entry = .ok (.cell k) ∧ hnd = names (memWord s.memory k))) ∨ (¬ low ∧ t.line.hnd = false ∧ hnd = false) →
      x.heldRecs = [] →
      (∀ k, x.fqBase ≠ 0 → (x.fqTail - x.fqHead).toNat ≠ 2 ^ x.fqLog2 → Canonical s →
        locate s ⟨t.tenant, 0, 1, .walk⟩ .store (x.fqBase.toNat + 32 * (x.fqTail.toNat % 2 ^ x.fqLog2)) 0 = .ok (.cell k) →
        memWord s'.memory k = BitVec.ofNat 64 t.addr
          ∧ memWord s'.memory (k + 8) = BitVec.ofNat 64 (t.line.pc.toNat + e.code.toNat * 2 ^ 48 + t.line.tlvl.toNat * 2 ^ 56
            + b2n hnd * 2 ^ 61)
          ∧ memWord s'.memory (k + 16) = e.addr
          ∧ memWord s'.memory (k + 24) = BitVec.ofNat 64 (e.tdata.toNat + t.line.job.toNat * 2 ^ 48)
          ∧ (∀ j, j < k ∨ k + 32 ≤ j → byteOf s' j = byteOf s j)
          ∧ (getTenant s' t.tenant).fqTail = x.fqTail + 1)
      ∧ (x.fqBase = 0 → x.fqLost ≠ 0xFFFFFFFF → s'.memory = s.memory ∧ (getTenant s' t.tenant).fqLost = x.fqLost + 1))
    ∧ (¬ low → told)

/-- What register words, predicate words, float words, loads and stores leave unchanged when they complete (R97, R98, R102, R104, R105, R106, R108, R113, R247). -/
def Obligations.word_frames : Prop :=
  ∀ (g : BitVec 4) (d a b z : Reg) (v c : BitVec 2) (m : BitVec 16) (k p : BitVec 6) (n : BitVec 5) (cc : BitVec 4) (imm : BitVec 12)
      (by_ : BitVec 8) (la : BitVec 4) (o : BitVec 7) (u : BitVec 1) (i : Instr) (s s' : State) (t t' : LiveLine),
    s.thr = some t → t.line.wait = 0 → exec i s = .next s' → s'.thr = some t' → t'.line.wait = 0 →
    let still := t'.line.pend = t.line.pend ∧ SameIdentity t.line t'.line ∧ t'.stores = t.stores ∧ t'.derr = t.derr ∧ t'.place = t.place
    let noPreds := ∀ q, getQ t'.line q = getQ t.line q
    let noRegs := ∀ r, getG t'.line r = getG t.line r
    (i ∈ [.add g d a b v c, .sub g d a b v c, .and g d a b v, .or g d a b v, .xor g d a b v, .andn g d a b v, .orn g d a b v,
        .xnor g d a b v, .shl g d a b v c, .shr g d a b v, .sar g d a b v, .rol g d a b v, .ror g d a b v, .min g d a b v, .max g d a b v,
        .minb g d a b v, .maxb g d a b v, .mul g d a b v c, .mulh g d a b v, .mulhb g d a b v, .div g d a b v, .divb g d a b v,
        .rem g d a b v, .remb g d a b v, .neg g d a v c, .abs g d a v c, .clz g d a v, .ctz g d a v, .popc g d a v, .bswap g d a v,
        .sext g d a v, .mov g d a, .movi g d m, .movh g d a m, .addi g d a m, .andi g d a m, .ori g d a m, .xori g d a m,
        .shli g d a v k, .shri g d a v k, .sari g d a v k, .roli g d a v k, .bext g d a k p, .bextb g d a k p, .bins g d a k p,
        .vadd g d a b v, .vsub g d a b v, .vadds g d a b v u, .vsubs g d a b v u, .vmul g d a b v u, .vmin g d a b v u, .vmax g d a b v u,
        .vavg g d a b v u, .vshl g d a b v, .vshr g d a b v, .vsar g d a b v, .vsel g d a b v z, .vshuf g d a b v, .vpack g d a b v u,
        .vunpk g d a v u, .vdot g d a b v u, .vsum g d a v u] →
      OnlyLine s s' ∧ OtherRegs d t.line t'.line ∧ noPreds ∧ still ∧ t'.line.fflg = t.line.fflg)
    ∧ (i ∈ [.cmp g d a b n v u, .cmpi g d a cc imm, .qand g d a b, .qor g d a b, .qxor g d a b, .qnot g d a, .qmov g d a,
        .qset g d by_, .qany g d a v, .qall g d a v, .qtog g d by_, .gtoq g d a] →
      OnlyLine s s' ∧ t'.line.g = t.line.g ∧ t'.line.tag = t.line.tag ∧ OtherPreds d t.line t'.line ∧ still
        ∧ t'.line.fflg = t.line.fflg)
    ∧ (i ∈ [.fadd g d a b v u, .fsub g d a b v u, .fmul g d a b v u, .fdiv g d a b v u, .fsqrt g d a v u, .fmin g d a b v u,
        .fmax g d a b v u, .fma g d a b v u, .fround g d a v u, .fcvt g d a v b z] →
      OnlyLine s s' ∧ OtherRegs d t.line t'.line ∧ noPreds ∧ still)
    ∧ (i ∈ [.ld g d a z c la o, .ldx g d a la z c cc b, .amoAdd g d a b u v c, .amoSwap g d a b u v c, .amoCas g d a b u v c,
        .tkld g d a v c] → t'.place = t.place →
      s'.memory = s.memory ∧ noRegs ∧ noPreds ∧ t'.line.fflg = t.line.fflg ∧ SameIdentity t.line t'.line
        ∧ (∀ r, r ≠ d → getTag t'.line r = getTag t.line r ∧ isPending t'.line r = isPending t.line r))
    ∧ (i ∈ [.st g d a z c la o, .stx g d a la z c cc b, .ste g d a z c la b] → t'.place = t.place →
      s'.memory = s.memory ∧ noRegs ∧ noPreds ∧ t'.line.tag = t.line.tag ∧ t'.line.pend = t.line.pend ∧ t'.line.fflg = t.line.fflg
        ∧ SameIdentity t.line t'.line)

/-- Released second writes forbid the crossed state of two writes against two; a release after a read carries what was read (R222, R223, R224, R228, R229, R494, R495). Where a clause goes past the words of the rules it is the choice of the model: log entries 26 and 53. -/
def Obligations.litmus_outcomes : Prop :=
  ∀ (x : Exec), x.allowed = true →
    (∀ a1 a2 b1 b2 : Nat, (x.ev a1).isWrite = true → (x.ev a2).isWrite = true → (x.ev b1).isWrite = true → (x.ev b2).isWrite = true →
      x.po a1 a2 = true → x.po b1 b2 = true → x.releases a2 = true → x.releases b2 = true →
      ¬ (x.coAt b2 a1 = true ∧ x.coAt a2 b1 = true))
    ∧ (∀ w r y q z : Nat, x.rfAt w r = true → (x.ev w).agent ≠ (x.ev r).agent → x.po r y = true → (x.ev y).isWrite = true →
      (x.con y).rel = true → (x.con y).act = .write ∨ (x.con y).act = .rmw → x.rfAt y q = true → (x.ev y).agent ≠ (x.ev q).agent →
      (x.con q).acq = true → (x.con q).act = .read ∨ (x.con q).act = .rmw → x.mutual y q = true → x.po q z = true →
      x.inWindow true q z = false → x.frAt z w = false)

end
end

