-- ==== Sys2Proof/Laws/State.lean ====
section
/-! SUPPORT. Laws/State.lean: one law per field per update: what an update of the state, of a line or of a live line leaves alone. -/

namespace Sys2Proof.Machine

/-! ### Parts of the module -/

@[simp] theorem setCore_agenda (s : State) (c : Nat) (v : Core) : (setCore s c v).agenda = s.agenda := rfl
@[simp] theorem setCore_tape (s : State) (c : Nat) (v : Core) : (setCore s c v).tape = s.tape := rfl
@[simp] theorem setCore_tick (s : State) (c : Nat) (v : Core) : (setCore s c v).tick = s.tick := rfl
@[simp] theorem setCore_thr (s : State) (c : Nat) (v : Core) : (setCore s c v).thr = s.thr := rfl
@[simp] theorem setCore_lines (s : State) (c : Nat) (v : Core) : (setCore s c v).lines = s.lines := rfl
@[simp] theorem setCore_clusters (s : State) (c : Nat) (v : Core) : (setCore s c v).clusters = s.clusters := rfl
@[simp] theorem setCore_slices (s : State) (c : Nat) (v : Core) : (setCore s c v).slices = s.slices := rfl
@[simp] theorem setCore_dies (s : State) (c : Nat) (v : Core) : (setCore s c v).dies = s.dies := rfl
@[simp] theorem setCore_dmgen (s : State) (c : Nat) (v : Core) : (setCore s c v).dmgen = s.dmgen := rfl
@[simp] theorem setCore_failed (s : State) (c : Nat) (v : Core) : (setCore s c v).failed = s.failed := rfl
@[simp] theorem setCore_tenants (s : State) (c : Nat) (v : Core) : (setCore s c v).tenants = s.tenants := rfl
@[simp] theorem setCore_owner (s : State) (c : Nat) (v : Core) : (setCore s c v).owner = s.owner := rfl
@[simp] theorem setCore_used (s : State) (c : Nat) (v : Core) : (setCore s c v).used = s.used := rfl
@[simp] theorem setCore_memory (s : State) (c : Nat) (v : Core) : (setCore s c v).memory = s.memory := rfl
@[simp] theorem setCore_net (s : State) (c : Nat) (v : Core) : (setCore s c v).net = s.net := rfl
@[simp] theorem setCore_nextId (s : State) (c : Nat) (v : Core) : (setCore s c v).nextId = s.nextId := rfl
@[simp] theorem setCore_msgs (s : State) (c : Nat) (v : Core) : (setCore s c v).msgs = s.msgs := rfl
@[simp] theorem setCore_watch (s : State) (c : Nat) (v : Core) : (setCore s c v).watch = s.watch := rfl
@[simp] theorem setCore_pending (s : State) (c : Nat) (v : Core) : (setCore s c v).pending = s.pending := rfl
@[simp] theorem setCore_launched (s : State) (c : Nat) (v : Core) : (setCore s c v).launched = s.launched := rfl
@[simp] theorem setCore_invals (s : State) (c : Nat) (v : Core) : (setCore s c v).invals = s.invals := rfl
@[simp] theorem setCore_remap (s : State) (c : Nat) (v : Core) : (setCore s c v).remap = s.remap := rfl
@[simp] theorem setCore_svc (s : State) (c : Nat) (v : Core) : (setCore s c v).svc = s.svc := rfl
@[simp] theorem setCore_gangs (s : State) (c : Nat) (v : Core) : (setCore s c v).gangs = s.gangs := rfl
@[simp] theorem setCore_switches (s : State) (c : Nat) (v : Core) : (setCore s c v).switches = s.switches := rfl
@[simp] theorem setCore_flows (s : State) (c : Nat) (v : Core) : (setCore s c v).flows = s.flows := rfl
@[simp] theorem setCore_egress (s : State) (c : Nat) (v : Core) : (setCore s c v).egress = s.egress := rfl
@[simp] theorem setCore_portSent (s : State) (c : Nat) (v : Core) : (setCore s c v).portSent = s.portSent := rfl
@[simp] theorem setCore_etherType (s : State) (c : Nat) (v : Core) : (setCore s c v).etherType = s.etherType := rfl
@[simp] theorem setCore_strange (s : State) (c : Nat) (v : Core) : (setCore s c v).strange = s.strange := rfl
@[simp] theorem setCore_transit (s : State) (c : Nat) (v : Core) : (setCore s c v).transit = s.transit := rfl
@[simp] theorem setCore_links (s : State) (c : Nat) (v : Core) : (setCore s c v).links = s.links := rfl
@[simp] theorem setCore_offered (s : State) (c : Nat) (v : Core) : (setCore s c v).offered = s.offered := rfl
@[simp] theorem setCore_accepted (s : State) (c : Nat) (v : Core) : (setCore s c v).accepted = s.accepted := rfl
@[simp] theorem setCore_host (s : State) (c : Nat) (v : Core) : (setCore s c v).host = s.host := rfl
@[simp] theorem setCore_flash (s : State) (c : Nat) (v : Core) : (setCore s c v).flash = s.flash := rfl
@[simp] theorem setCore_moduleCkpt (s : State) (c : Nat) (v : Core) : (setCore s c v).moduleCkpt = s.moduleCkpt := rfl
@[simp] theorem setCore_tenantCkpts (s : State) (c : Nat) (v : Core) : (setCore s c v).tenantCkpts = s.tenantCkpts := rfl

@[simp] theorem setCluster_agenda (s : State) (k : Nat) (v : Cluster) : (setCluster s k v).agenda = s.agenda := rfl
@[simp] theorem setCluster_tape (s : State) (k : Nat) (v : Cluster) : (setCluster s k v).tape = s.tape := rfl
@[simp] theorem setCluster_tick (s : State) (k : Nat) (v : Cluster) : (setCluster s k v).tick = s.tick := rfl
@[simp] theorem setCluster_thr (s : State) (k : Nat) (v : Cluster) : (setCluster s k v).thr = s.thr := rfl
@[simp] theorem setCluster_lines (s : State) (k : Nat) (v : Cluster) : (setCluster s k v).lines = s.lines := rfl
@[simp] theorem setCluster_cores (s : State) (k : Nat) (v : Cluster) : (setCluster s k v).cores = s.cores := rfl
@[simp] theorem setCluster_slices (s : State) (k : Nat) (v : Cluster) : (setCluster s k v).slices = s.slices := rfl
@[simp] theorem setCluster_dies (s : State) (k : Nat) (v : Cluster) : (setCluster s k v).dies = s.dies := rfl
@[simp] theorem setCluster_dmgen (s : State) (k : Nat) (v : Cluster) : (setCluster s k v).dmgen = s.dmgen := rfl
@[simp] theorem setCluster_failed (s : State) (k : Nat) (v : Cluster) : (setCluster s k v).failed = s.failed := rfl
@[simp] theorem setCluster_tenants (s : State) (k : Nat) (v : Cluster) : (setCluster s k v).tenants = s.tenants := rfl
@[simp] theorem setCluster_owner (s : State) (k : Nat) (v : Cluster) : (setCluster s k v).owner = s.owner := rfl
@[simp] theorem setCluster_used (s : State) (k : Nat) (v : Cluster) : (setCluster s k v).used = s.used := rfl
@[simp] theorem setCluster_memory (s : State) (k : Nat) (v : Cluster) : (setCluster s k v).memory = s.memory := rfl
@[simp] theorem setCluster_net (s : State) (k : Nat) (v : Cluster) : (setCluster s k v).net = s.net := rfl
@[simp] theorem setCluster_nextId (s : State) (k : Nat) (v : Cluster) : (setCluster s k v).nextId = s.nextId := rfl
@[simp] theorem setCluster_msgs (s : State) (k : Nat) (v : Cluster) : (setCluster s k v).msgs = s.msgs := rfl
@[simp] theorem setCluster_watch (s : State) (k : Nat) (v : Cluster) : (setCluster s k v).watch = s.watch := rfl
@[simp] theorem setCluster_pending (s : State) (k : Nat) (v : Cluster) : (setCluster s k v).pending = s.pending := rfl
@[simp] theorem setCluster_launched (s : State) (k : Nat) (v : Cluster) : (setCluster s k v).launched = s.launched := rfl
@[simp] theorem setCluster_invals (s : State) (k : Nat) (v : Cluster) : (setCluster s k v).invals = s.invals := rfl
@[simp] theorem setCluster_remap (s : State) (k : Nat) (v : Cluster) : (setCluster s k v).remap = s.remap := rfl
@[simp] theorem setCluster_svc (s : State) (k : Nat) (v : Cluster) : (setCluster s k v).svc = s.svc := rfl
@[simp] theorem setCluster_gangs (s : State) (k : Nat) (v : Cluster) : (setCluster s k v).gangs = s.gangs := rfl
@[simp] theorem setCluster_switches (s : State) (k : Nat) (v : Cluster) : (setCluster s k v).switches = s.switches := rfl
@[simp] theorem setCluster_flows (s : State) (k : Nat) (v : Cluster) : (setCluster s k v).flows = s.flows := rfl
@[simp] theorem setCluster_egress (s : State) (k : Nat) (v : Cluster) : (setCluster s k v).egress = s.egress := rfl
@[simp] theorem setCluster_portSent (s : State) (k : Nat) (v : Cluster) : (setCluster s k v).portSent = s.portSent := rfl
@[simp] theorem setCluster_etherType (s : State) (k : Nat) (v : Cluster) : (setCluster s k v).etherType = s.etherType := rfl
@[simp] theorem setCluster_strange (s : State) (k : Nat) (v : Cluster) : (setCluster s k v).strange = s.strange := rfl
@[simp] theorem setCluster_transit (s : State) (k : Nat) (v : Cluster) : (setCluster s k v).transit = s.transit := rfl
@[simp] theorem setCluster_links (s : State) (k : Nat) (v : Cluster) : (setCluster s k v).links = s.links := rfl
@[simp] theorem setCluster_offered (s : State) (k : Nat) (v : Cluster) : (setCluster s k v).offered = s.offered := rfl
@[simp] theorem setCluster_accepted (s : State) (k : Nat) (v : Cluster) : (setCluster s k v).accepted = s.accepted := rfl
@[simp] theorem setCluster_host (s : State) (k : Nat) (v : Cluster) : (setCluster s k v).host = s.host := rfl
@[simp] theorem setCluster_flash (s : State) (k : Nat) (v : Cluster) : (setCluster s k v).flash = s.flash := rfl
@[simp] theorem setCluster_moduleCkpt (s : State) (k : Nat) (v : Cluster) : (setCluster s k v).moduleCkpt = s.moduleCkpt := rfl
@[simp] theorem setCluster_tenantCkpts (s : State) (k : Nat) (v : Cluster) : (setCluster s k v).tenantCkpts = s.tenantCkpts := rfl

@[simp] theorem setSlice_agenda (s : State) (n : Nat) (v : Slice) : (setSlice s n v).agenda = s.agenda := rfl
@[simp] theorem setSlice_tape (s : State) (n : Nat) (v : Slice) : (setSlice s n v).tape = s.tape := rfl
@[simp] theorem setSlice_tick (s : State) (n : Nat) (v : Slice) : (setSlice s n v).tick = s.tick := rfl
@[simp] theorem setSlice_thr (s : State) (n : Nat) (v : Slice) : (setSlice s n v).thr = s.thr := rfl
@[simp] theorem setSlice_lines (s : State) (n : Nat) (v : Slice) : (setSlice s n v).lines = s.lines := rfl
@[simp] theorem setSlice_cores (s : State) (n : Nat) (v : Slice) : (setSlice s n v).cores = s.cores := rfl
@[simp] theorem setSlice_clusters (s : State) (n : Nat) (v : Slice) : (setSlice s n v).clusters = s.clusters := rfl
@[simp] theorem setSlice_dies (s : State) (n : Nat) (v : Slice) : (setSlice s n v).dies = s.dies := rfl
@[simp] theorem setSlice_dmgen (s : State) (n : Nat) (v : Slice) : (setSlice s n v).dmgen = s.dmgen := rfl
@[simp] theorem setSlice_failed (s : State) (n : Nat) (v : Slice) : (setSlice s n v).failed = s.failed := rfl
@[simp] theorem setSlice_tenants (s : State) (n : Nat) (v : Slice) : (setSlice s n v).tenants = s.tenants := rfl
@[simp] theorem setSlice_owner (s : State) (n : Nat) (v : Slice) : (setSlice s n v).owner = s.owner := rfl
@[simp] theorem setSlice_used (s : State) (n : Nat) (v : Slice) : (setSlice s n v).used = s.used := rfl
@[simp] theorem setSlice_memory (s : State) (n : Nat) (v : Slice) : (setSlice s n v).memory = s.memory := rfl
@[simp] theorem setSlice_net (s : State) (n : Nat) (v : Slice) : (setSlice s n v).net = s.net := rfl
@[simp] theorem setSlice_nextId (s : State) (n : Nat) (v : Slice) : (setSlice s n v).nextId = s.nextId := rfl
@[simp] theorem setSlice_msgs (s : State) (n : Nat) (v : Slice) : (setSlice s n v).msgs = s.msgs := rfl
@[simp] theorem setSlice_watch (s : State) (n : Nat) (v : Slice) : (setSlice s n v).watch = s.watch := rfl
@[simp] theorem setSlice_pending (s : State) (n : Nat) (v : Slice) : (setSlice s n v).pending = s.pending := rfl
@[simp] theorem setSlice_launched (s : State) (n : Nat) (v : Slice) : (setSlice s n v).launched = s.launched := rfl
@[simp] theorem setSlice_invals (s : State) (n : Nat) (v : Slice) : (setSlice s n v).invals = s.invals := rfl
@[simp] theorem setSlice_remap (s : State) (n : Nat) (v : Slice) : (setSlice s n v).remap = s.remap := rfl
@[simp] theorem setSlice_svc (s : State) (n : Nat) (v : Slice) : (setSlice s n v).svc = s.svc := rfl
@[simp] theorem setSlice_gangs (s : State) (n : Nat) (v : Slice) : (setSlice s n v).gangs = s.gangs := rfl
@[simp] theorem setSlice_switches (s : State) (n : Nat) (v : Slice) : (setSlice s n v).switches = s.switches := rfl
@[simp] theorem setSlice_flows (s : State) (n : Nat) (v : Slice) : (setSlice s n v).flows = s.flows := rfl
@[simp] theorem setSlice_egress (s : State) (n : Nat) (v : Slice) : (setSlice s n v).egress = s.egress := rfl
@[simp] theorem setSlice_portSent (s : State) (n : Nat) (v : Slice) : (setSlice s n v).portSent = s.portSent := rfl
@[simp] theorem setSlice_etherType (s : State) (n : Nat) (v : Slice) : (setSlice s n v).etherType = s.etherType := rfl
@[simp] theorem setSlice_strange (s : State) (n : Nat) (v : Slice) : (setSlice s n v).strange = s.strange := rfl
@[simp] theorem setSlice_transit (s : State) (n : Nat) (v : Slice) : (setSlice s n v).transit = s.transit := rfl
@[simp] theorem setSlice_links (s : State) (n : Nat) (v : Slice) : (setSlice s n v).links = s.links := rfl
@[simp] theorem setSlice_offered (s : State) (n : Nat) (v : Slice) : (setSlice s n v).offered = s.offered := rfl
@[simp] theorem setSlice_accepted (s : State) (n : Nat) (v : Slice) : (setSlice s n v).accepted = s.accepted := rfl
@[simp] theorem setSlice_host (s : State) (n : Nat) (v : Slice) : (setSlice s n v).host = s.host := rfl
@[simp] theorem setSlice_flash (s : State) (n : Nat) (v : Slice) : (setSlice s n v).flash = s.flash := rfl
@[simp] theorem setSlice_moduleCkpt (s : State) (n : Nat) (v : Slice) : (setSlice s n v).moduleCkpt = s.moduleCkpt := rfl
@[simp] theorem setSlice_tenantCkpts (s : State) (n : Nat) (v : Slice) : (setSlice s n v).tenantCkpts = s.tenantCkpts := rfl

@[simp] theorem setDie_agenda (s : State) (v : Nat) (d : Die) : (setDie s v d).agenda = s.agenda := rfl
@[simp] theorem setDie_tape (s : State) (v : Nat) (d : Die) : (setDie s v d).tape = s.tape := rfl
@[simp] theorem setDie_tick (s : State) (v : Nat) (d : Die) : (setDie s v d).tick = s.tick := rfl
@[simp] theorem setDie_thr (s : State) (v : Nat) (d : Die) : (setDie s v d).thr = s.thr := rfl
@[simp] theorem setDie_lines (s : State) (v : Nat) (d : Die) : (setDie s v d).lines = s.lines := rfl
@[simp] theorem setDie_cores (s : State) (v : Nat) (d : Die) : (setDie s v d).cores = s.cores := rfl
@[simp] theorem setDie_clusters (s : State) (v : Nat) (d : Die) : (setDie s v d).clusters = s.clusters := rfl
@[simp] theorem setDie_slices (s : State) (v : Nat) (d : Die) : (setDie s v d).slices = s.slices := rfl
@[simp] theorem setDie_dmgen (s : State) (v : Nat) (d : Die) : (setDie s v d).dmgen = s.dmgen := rfl
@[simp] theorem setDie_failed (s : State) (v : Nat) (d : Die) : (setDie s v d).failed = s.failed := rfl
@[simp] theorem setDie_tenants (s : State) (v : Nat) (d : Die) : (setDie s v d).tenants = s.tenants := rfl
@[simp] theorem setDie_owner (s : State) (v : Nat) (d : Die) : (setDie s v d).owner = s.owner := rfl
@[simp] theorem setDie_used (s : State) (v : Nat) (d : Die) : (setDie s v d).used = s.used := rfl
@[simp] theorem setDie_memory (s : State) (v : Nat) (d : Die) : (setDie s v d).memory = s.memory := rfl
@[simp] theorem setDie_net (s : State) (v : Nat) (d : Die) : (setDie s v d).net = s.net := rfl
@[simp] theorem setDie_nextId (s : State) (v : Nat) (d : Die) : (setDie s v d).nextId = s.nextId := rfl
@[simp] theorem setDie_msgs (s : State) (v : Nat) (d : Die) : (setDie s v d).msgs = s.msgs := rfl
@[simp] theorem setDie_watch (s : State) (v : Nat) (d : Die) : (setDie s v d).watch = s.watch := rfl
@[simp] theorem setDie_pending (s : State) (v : Nat) (d : Die) : (setDie s v d).pending = s.pending := rfl
@[simp] theorem setDie_launched (s : State) (v : Nat) (d : Die) : (setDie s v d).launched = s.launched := rfl
@[simp] theorem setDie_invals (s : State) (v : Nat) (d : Die) : (setDie s v d).invals = s.invals := rfl
@[simp] theorem setDie_remap (s : State) (v : Nat) (d : Die) : (setDie s v d).remap = s.remap := rfl
@[simp] theorem setDie_svc (s : State) (v : Nat) (d : Die) : (setDie s v d).svc = s.svc := rfl
@[simp] theorem setDie_gangs (s : State) (v : Nat) (d : Die) : (setDie s v d).gangs = s.gangs := rfl
@[simp] theorem setDie_switches (s : State) (v : Nat) (d : Die) : (setDie s v d).switches = s.switches := rfl
@[simp] theorem setDie_flows (s : State) (v : Nat) (d : Die) : (setDie s v d).flows = s.flows := rfl
@[simp] theorem setDie_egress (s : State) (v : Nat) (d : Die) : (setDie s v d).egress = s.egress := rfl
@[simp] theorem setDie_portSent (s : State) (v : Nat) (d : Die) : (setDie s v d).portSent = s.portSent := rfl
@[simp] theorem setDie_etherType (s : State) (v : Nat) (d : Die) : (setDie s v d).etherType = s.etherType := rfl
@[simp] theorem setDie_strange (s : State) (v : Nat) (d : Die) : (setDie s v d).strange = s.strange := rfl
@[simp] theorem setDie_transit (s : State) (v : Nat) (d : Die) : (setDie s v d).transit = s.transit := rfl
@[simp] theorem setDie_links (s : State) (v : Nat) (d : Die) : (setDie s v d).links = s.links := rfl
@[simp] theorem setDie_offered (s : State) (v : Nat) (d : Die) : (setDie s v d).offered = s.offered := rfl
@[simp] theorem setDie_accepted (s : State) (v : Nat) (d : Die) : (setDie s v d).accepted = s.accepted := rfl
@[simp] theorem setDie_host (s : State) (v : Nat) (d : Die) : (setDie s v d).host = s.host := rfl
@[simp] theorem setDie_flash (s : State) (v : Nat) (d : Die) : (setDie s v d).flash = s.flash := rfl
@[simp] theorem setDie_moduleCkpt (s : State) (v : Nat) (d : Die) : (setDie s v d).moduleCkpt = s.moduleCkpt := rfl
@[simp] theorem setDie_tenantCkpts (s : State) (v : Nat) (d : Die) : (setDie s v d).tenantCkpts = s.tenantCkpts := rfl

@[simp] theorem setTenant_agenda (s : State) (t : Nat) (v : Tenant) : (setTenant s t v).agenda = s.agenda := rfl
@[simp] theorem setTenant_tape (s : State) (t : Nat) (v : Tenant) : (setTenant s t v).tape = s.tape := rfl
@[simp] theorem setTenant_tick (s : State) (t : Nat) (v : Tenant) : (setTenant s t v).tick = s.tick := rfl
@[simp] theorem setTenant_thr (s : State) (t : Nat) (v : Tenant) : (setTenant s t v).thr = s.thr := rfl
@[simp] theorem setTenant_lines (s : State) (t : Nat) (v : Tenant) : (setTenant s t v).lines = s.lines := rfl
@[simp] theorem setTenant_cores (s : State) (t : Nat) (v : Tenant) : (setTenant s t v).cores = s.cores := rfl
@[simp] theorem setTenant_clusters (s : State) (t : Nat) (v : Tenant) : (setTenant s t v).clusters = s.clusters := rfl
@[simp] theorem setTenant_slices (s : State) (t : Nat) (v : Tenant) : (setTenant s t v).slices = s.slices := rfl
@[simp] theorem setTenant_dies (s : State) (t : Nat) (v : Tenant) : (setTenant s t v).dies = s.dies := rfl
@[simp] theorem setTenant_dmgen (s : State) (t : Nat) (v : Tenant) : (setTenant s t v).dmgen = s.dmgen := rfl
@[simp] theorem setTenant_failed (s : State) (t : Nat) (v : Tenant) : (setTenant s t v).failed = s.failed := rfl
@[simp] theorem setTenant_owner (s : State) (t : Nat) (v : Tenant) : (setTenant s t v).owner = s.owner := rfl
@[simp] theorem setTenant_used (s : State) (t : Nat) (v : Tenant) : (setTenant s t v).used = s.used := rfl
@[simp] theorem setTenant_memory (s : State) (t : Nat) (v : Tenant) : (setTenant s t v).memory = s.memory := rfl
@[simp] theorem setTenant_net (s : State) (t : Nat) (v : Tenant) : (setTenant s t v).net = s.net := rfl
@[simp] theorem setTenant_nextId (s : State) (t : Nat) (v : Tenant) : (setTenant s t v).nextId = s.nextId := rfl
@[simp] theorem setTenant_msgs (s : State) (t : Nat) (v : Tenant) : (setTenant s t v).msgs = s.msgs := rfl
@[simp] theorem setTenant_watch (s : State) (t : Nat) (v : Tenant) : (setTenant s t v).watch = s.watch := rfl
@[simp] theorem setTenant_pending (s : State) (t : Nat) (v : Tenant) : (setTenant s t v).pending = s.pending := rfl
@[simp] theorem setTenant_launched (s : State) (t : Nat) (v : Tenant) : (setTenant s t v).launched = s.launched := rfl
@[simp] theorem setTenant_invals (s : State) (t : Nat) (v : Tenant) : (setTenant s t v).invals = s.invals := rfl
@[simp] theorem setTenant_remap (s : State) (t : Nat) (v : Tenant) : (setTenant s t v).remap = s.remap := rfl
@[simp] theorem setTenant_svc (s : State) (t : Nat) (v : Tenant) : (setTenant s t v).svc = s.svc := rfl
@[simp] theorem setTenant_gangs (s : State) (t : Nat) (v : Tenant) : (setTenant s t v).gangs = s.gangs := rfl
@[simp] theorem setTenant_switches (s : State) (t : Nat) (v : Tenant) : (setTenant s t v).switches = s.switches := rfl
@[simp] theorem setTenant_flows (s : State) (t : Nat) (v : Tenant) : (setTenant s t v).flows = s.flows := rfl
@[simp] theorem setTenant_egress (s : State) (t : Nat) (v : Tenant) : (setTenant s t v).egress = s.egress := rfl
@[simp] theorem setTenant_portSent (s : State) (t : Nat) (v : Tenant) : (setTenant s t v).portSent = s.portSent := rfl
@[simp] theorem setTenant_etherType (s : State) (t : Nat) (v : Tenant) : (setTenant s t v).etherType = s.etherType := rfl
@[simp] theorem setTenant_strange (s : State) (t : Nat) (v : Tenant) : (setTenant s t v).strange = s.strange := rfl
@[simp] theorem setTenant_transit (s : State) (t : Nat) (v : Tenant) : (setTenant s t v).transit = s.transit := rfl
@[simp] theorem setTenant_links (s : State) (t : Nat) (v : Tenant) : (setTenant s t v).links = s.links := rfl
@[simp] theorem setTenant_offered (s : State) (t : Nat) (v : Tenant) : (setTenant s t v).offered = s.offered := rfl
@[simp] theorem setTenant_accepted (s : State) (t : Nat) (v : Tenant) : (setTenant s t v).accepted = s.accepted := rfl
@[simp] theorem setTenant_host (s : State) (t : Nat) (v : Tenant) : (setTenant s t v).host = s.host := rfl
@[simp] theorem setTenant_flash (s : State) (t : Nat) (v : Tenant) : (setTenant s t v).flash = s.flash := rfl
@[simp] theorem setTenant_moduleCkpt (s : State) (t : Nat) (v : Tenant) : (setTenant s t v).moduleCkpt = s.moduleCkpt := rfl
@[simp] theorem setTenant_tenantCkpts (s : State) (t : Nat) (v : Tenant) : (setTenant s t v).tenantCkpts = s.tenantCkpts := rfl

@[simp] theorem toHost_agenda (s : State) (m : HostMsg) : (toHost s m).agenda = s.agenda := rfl
@[simp] theorem toHost_tape (s : State) (m : HostMsg) : (toHost s m).tape = s.tape := rfl
@[simp] theorem toHost_tick (s : State) (m : HostMsg) : (toHost s m).tick = s.tick := rfl
@[simp] theorem toHost_thr (s : State) (m : HostMsg) : (toHost s m).thr = s.thr := rfl
@[simp] theorem toHost_lines (s : State) (m : HostMsg) : (toHost s m).lines = s.lines := rfl
@[simp] theorem toHost_cores (s : State) (m : HostMsg) : (toHost s m).cores = s.cores := rfl
@[simp] theorem toHost_clusters (s : State) (m : HostMsg) : (toHost s m).clusters = s.clusters := rfl
@[simp] theorem toHost_slices (s : State) (m : HostMsg) : (toHost s m).slices = s.slices := rfl
@[simp] theorem toHost_dies (s : State) (m : HostMsg) : (toHost s m).dies = s.dies := rfl
@[simp] theorem toHost_dmgen (s : State) (m : HostMsg) : (toHost s m).dmgen = s.dmgen := rfl
@[simp] theorem toHost_failed (s : State) (m : HostMsg) : (toHost s m).failed = s.failed := rfl
@[simp] theorem toHost_tenants (s : State) (m : HostMsg) : (toHost s m).tenants = s.tenants := rfl
@[simp] theorem toHost_owner (s : State) (m : HostMsg) : (toHost s m).owner = s.owner := rfl
@[simp] theorem toHost_used (s : State) (m : HostMsg) : (toHost s m).used = s.used := rfl
@[simp] theorem toHost_memory (s : State) (m : HostMsg) : (toHost s m).memory = s.memory := rfl
@[simp] theorem toHost_net (s : State) (m : HostMsg) : (toHost s m).net = s.net := rfl
@[simp] theorem toHost_nextId (s : State) (m : HostMsg) : (toHost s m).nextId = s.nextId := rfl
@[simp] theorem toHost_msgs (s : State) (m : HostMsg) : (toHost s m).msgs = s.msgs := rfl
@[simp] theorem toHost_watch (s : State) (m : HostMsg) : (toHost s m).watch = s.watch := rfl
@[simp] theorem toHost_pending (s : State) (m : HostMsg) : (toHost s m).pending = s.pending := rfl
@[simp] theorem toHost_launched (s : State) (m : HostMsg) : (toHost s m).launched = s.launched := rfl
@[simp] theorem toHost_invals (s : State) (m : HostMsg) : (toHost s m).invals = s.invals := rfl
@[simp] theorem toHost_remap (s : State) (m : HostMsg) : (toHost s m).remap = s.remap := rfl
@[simp] theorem toHost_svc (s : State) (m : HostMsg) : (toHost s m).svc = s.svc := rfl
@[simp] theorem toHost_gangs (s : State) (m : HostMsg) : (toHost s m).gangs = s.gangs := rfl
@[simp] theorem toHost_switches (s : State) (m : HostMsg) : (toHost s m).switches = s.switches := rfl
@[simp] theorem toHost_flows (s : State) (m : HostMsg) : (toHost s m).flows = s.flows := rfl
@[simp] theorem toHost_egress (s : State) (m : HostMsg) : (toHost s m).egress = s.egress := rfl
@[simp] theorem toHost_portSent (s : State) (m : HostMsg) : (toHost s m).portSent = s.portSent := rfl
@[simp] theorem toHost_etherType (s : State) (m : HostMsg) : (toHost s m).etherType = s.etherType := rfl
@[simp] theorem toHost_strange (s : State) (m : HostMsg) : (toHost s m).strange = s.strange := rfl
@[simp] theorem toHost_transit (s : State) (m : HostMsg) : (toHost s m).transit = s.transit := rfl
@[simp] theorem toHost_links (s : State) (m : HostMsg) : (toHost s m).links = s.links := rfl
@[simp] theorem toHost_offered (s : State) (m : HostMsg) : (toHost s m).offered = s.offered := rfl
@[simp] theorem toHost_accepted (s : State) (m : HostMsg) : (toHost s m).accepted = s.accepted := rfl
@[simp] theorem toHost_flash (s : State) (m : HostMsg) : (toHost s m).flash = s.flash := rfl
@[simp] theorem toHost_moduleCkpt (s : State) (m : HostMsg) : (toHost s m).moduleCkpt = s.moduleCkpt := rfl
@[simp] theorem toHost_tenantCkpts (s : State) (m : HostMsg) : (toHost s m).tenantCkpts = s.tenantCkpts := rfl

@[simp] theorem dropLine_agenda (s : State) (t : Nat) (a : Nat) : (dropLine s t a).agenda = s.agenda := rfl
@[simp] theorem dropLine_tape (s : State) (t : Nat) (a : Nat) : (dropLine s t a).tape = s.tape := rfl
@[simp] theorem dropLine_tick (s : State) (t : Nat) (a : Nat) : (dropLine s t a).tick = s.tick := rfl
@[simp] theorem dropLine_thr (s : State) (t : Nat) (a : Nat) : (dropLine s t a).thr = s.thr := rfl
@[simp] theorem dropLine_cores (s : State) (t : Nat) (a : Nat) : (dropLine s t a).cores = s.cores := rfl
@[simp] theorem dropLine_clusters (s : State) (t : Nat) (a : Nat) : (dropLine s t a).clusters = s.clusters := rfl
@[simp] theorem dropLine_slices (s : State) (t : Nat) (a : Nat) : (dropLine s t a).slices = s.slices := rfl
@[simp] theorem dropLine_dies (s : State) (t : Nat) (a : Nat) : (dropLine s t a).dies = s.dies := rfl
@[simp] theorem dropLine_dmgen (s : State) (t : Nat) (a : Nat) : (dropLine s t a).dmgen = s.dmgen := rfl
@[simp] theorem dropLine_failed (s : State) (t : Nat) (a : Nat) : (dropLine s t a).failed = s.failed := rfl
@[simp] theorem dropLine_tenants (s : State) (t : Nat) (a : Nat) : (dropLine s t a).tenants = s.tenants := rfl
@[simp] theorem dropLine_owner (s : State) (t : Nat) (a : Nat) : (dropLine s t a).owner = s.owner := rfl
@[simp] theorem dropLine_used (s : State) (t : Nat) (a : Nat) : (dropLine s t a).used = s.used := rfl
@[simp] theorem dropLine_memory (s : State) (t : Nat) (a : Nat) : (dropLine s t a).memory = s.memory := rfl
@[simp] theorem dropLine_net (s : State) (t : Nat) (a : Nat) : (dropLine s t a).net = s.net := rfl
@[simp] theorem dropLine_nextId (s : State) (t : Nat) (a : Nat) : (dropLine s t a).nextId = s.nextId := rfl
@[simp] theorem dropLine_msgs (s : State) (t : Nat) (a : Nat) : (dropLine s t a).msgs = s.msgs := rfl
@[simp] theorem dropLine_watch (s : State) (t : Nat) (a : Nat) : (dropLine s t a).watch = s.watch := rfl
@[simp] theorem dropLine_pending (s : State) (t : Nat) (a : Nat) : (dropLine s t a).pending = s.pending := rfl
@[simp] theorem dropLine_launched (s : State) (t : Nat) (a : Nat) : (dropLine s t a).launched = s.launched := rfl
@[simp] theorem dropLine_invals (s : State) (t : Nat) (a : Nat) : (dropLine s t a).invals = s.invals := rfl
@[simp] theorem dropLine_remap (s : State) (t : Nat) (a : Nat) : (dropLine s t a).remap = s.remap := rfl
@[simp] theorem dropLine_svc (s : State) (t : Nat) (a : Nat) : (dropLine s t a).svc = s.svc := rfl
@[simp] theorem dropLine_gangs (s : State) (t : Nat) (a : Nat) : (dropLine s t a).gangs = s.gangs := rfl
@[simp] theorem dropLine_switches (s : State) (t : Nat) (a : Nat) : (dropLine s t a).switches = s.switches := rfl
@[simp] theorem dropLine_flows (s : State) (t : Nat) (a : Nat) : (dropLine s t a).flows = s.flows := rfl
@[simp] theorem dropLine_egress (s : State) (t : Nat) (a : Nat) : (dropLine s t a).egress = s.egress := rfl
@[simp] theorem dropLine_portSent (s : State) (t : Nat) (a : Nat) : (dropLine s t a).portSent = s.portSent := rfl
@[simp] theorem dropLine_etherType (s : State) (t : Nat) (a : Nat) : (dropLine s t a).etherType = s.etherType := rfl
@[simp] theorem dropLine_strange (s : State) (t : Nat) (a : Nat) : (dropLine s t a).strange = s.strange := rfl
@[simp] theorem dropLine_transit (s : State) (t : Nat) (a : Nat) : (dropLine s t a).transit = s.transit := rfl
@[simp] theorem dropLine_links (s : State) (t : Nat) (a : Nat) : (dropLine s t a).links = s.links := rfl
@[simp] theorem dropLine_offered (s : State) (t : Nat) (a : Nat) : (dropLine s t a).offered = s.offered := rfl
@[simp] theorem dropLine_accepted (s : State) (t : Nat) (a : Nat) : (dropLine s t a).accepted = s.accepted := rfl
@[simp] theorem dropLine_host (s : State) (t : Nat) (a : Nat) : (dropLine s t a).host = s.host := rfl
@[simp] theorem dropLine_flash (s : State) (t : Nat) (a : Nat) : (dropLine s t a).flash = s.flash := rfl
@[simp] theorem dropLine_moduleCkpt (s : State) (t : Nat) (a : Nat) : (dropLine s t a).moduleCkpt = s.moduleCkpt := rfl
@[simp] theorem dropLine_tenantCkpts (s : State) (t : Nat) (a : Nat) : (dropLine s t a).tenantCkpts = s.tenantCkpts := rfl

@[simp] theorem sendPkt_agenda (s : State) (p : Pkt) : (sendPkt s p).agenda = s.agenda := rfl
@[simp] theorem sendPkt_tape (s : State) (p : Pkt) : (sendPkt s p).tape = s.tape := rfl
@[simp] theorem sendPkt_tick (s : State) (p : Pkt) : (sendPkt s p).tick = s.tick := rfl
@[simp] theorem sendPkt_thr (s : State) (p : Pkt) : (sendPkt s p).thr = s.thr := rfl
@[simp] theorem sendPkt_lines (s : State) (p : Pkt) : (sendPkt s p).lines = s.lines := rfl
@[simp] theorem sendPkt_cores (s : State) (p : Pkt) : (sendPkt s p).cores = s.cores := rfl
@[simp] theorem sendPkt_clusters (s : State) (p : Pkt) : (sendPkt s p).clusters = s.clusters := rfl
@[simp] theorem sendPkt_slices (s : State) (p : Pkt) : (sendPkt s p).slices = s.slices := rfl
@[simp] theorem sendPkt_dies (s : State) (p : Pkt) : (sendPkt s p).dies = s.dies := rfl
@[simp] theorem sendPkt_dmgen (s : State) (p : Pkt) : (sendPkt s p).dmgen = s.dmgen := rfl
@[simp] theorem sendPkt_failed (s : State) (p : Pkt) : (sendPkt s p).failed = s.failed := rfl
@[simp] theorem sendPkt_tenants (s : State) (p : Pkt) : (sendPkt s p).tenants = s.tenants := rfl
@[simp] theorem sendPkt_owner (s : State) (p : Pkt) : (sendPkt s p).owner = s.owner := rfl
@[simp] theorem sendPkt_used (s : State) (p : Pkt) : (sendPkt s p).used = s.used := rfl
@[simp] theorem sendPkt_memory (s : State) (p : Pkt) : (sendPkt s p).memory = s.memory := rfl
@[simp] theorem sendPkt_msgs (s : State) (p : Pkt) : (sendPkt s p).msgs = s.msgs := rfl
@[simp] theorem sendPkt_watch (s : State) (p : Pkt) : (sendPkt s p).watch = s.watch := rfl
@[simp] theorem sendPkt_pending (s : State) (p : Pkt) : (sendPkt s p).pending = s.pending := rfl
@[simp] theorem sendPkt_launched (s : State) (p : Pkt) : (sendPkt s p).launched = s.launched := rfl
@[simp] theorem sendPkt_invals (s : State) (p : Pkt) : (sendPkt s p).invals = s.invals := rfl
@[simp] theorem sendPkt_remap (s : State) (p : Pkt) : (sendPkt s p).remap = s.remap := rfl
@[simp] theorem sendPkt_svc (s : State) (p : Pkt) : (sendPkt s p).svc = s.svc := rfl
@[simp] theorem sendPkt_gangs (s : State) (p : Pkt) : (sendPkt s p).gangs = s.gangs := rfl
@[simp] theorem sendPkt_switches (s : State) (p : Pkt) : (sendPkt s p).switches = s.switches := rfl
@[simp] theorem sendPkt_flows (s : State) (p : Pkt) : (sendPkt s p).flows = s.flows := rfl
@[simp] theorem sendPkt_egress (s : State) (p : Pkt) : (sendPkt s p).egress = s.egress := rfl
@[simp] theorem sendPkt_portSent (s : State) (p : Pkt) : (sendPkt s p).portSent = s.portSent := rfl
@[simp] theorem sendPkt_etherType (s : State) (p : Pkt) : (sendPkt s p).etherType = s.etherType := rfl
@[simp] theorem sendPkt_strange (s : State) (p : Pkt) : (sendPkt s p).strange = s.strange := rfl
@[simp] theorem sendPkt_transit (s : State) (p : Pkt) : (sendPkt s p).transit = s.transit := rfl
@[simp] theorem sendPkt_offered (s : State) (p : Pkt) : (sendPkt s p).offered = s.offered := rfl
@[simp] theorem sendPkt_accepted (s : State) (p : Pkt) : (sendPkt s p).accepted = s.accepted := rfl
@[simp] theorem sendPkt_host (s : State) (p : Pkt) : (sendPkt s p).host = s.host := rfl
@[simp] theorem sendPkt_flash (s : State) (p : Pkt) : (sendPkt s p).flash = s.flash := rfl
@[simp] theorem sendPkt_moduleCkpt (s : State) (p : Pkt) : (sendPkt s p).moduleCkpt = s.moduleCkpt := rfl
@[simp] theorem sendPkt_tenantCkpts (s : State) (p : Pkt) : (sendPkt s p).tenantCkpts = s.tenantCkpts := rfl

@[simp] theorem dropPkt_agenda (s : State) (id : Nat) : (dropPkt s id).agenda = s.agenda := rfl
@[simp] theorem dropPkt_tape (s : State) (id : Nat) : (dropPkt s id).tape = s.tape := rfl
@[simp] theorem dropPkt_tick (s : State) (id : Nat) : (dropPkt s id).tick = s.tick := rfl
@[simp] theorem dropPkt_thr (s : State) (id : Nat) : (dropPkt s id).thr = s.thr := rfl
@[simp] theorem dropPkt_lines (s : State) (id : Nat) : (dropPkt s id).lines = s.lines := rfl
@[simp] theorem dropPkt_cores (s : State) (id : Nat) : (dropPkt s id).cores = s.cores := rfl
@[simp] theorem dropPkt_clusters (s : State) (id : Nat) : (dropPkt s id).clusters = s.clusters := rfl
@[simp] theorem dropPkt_slices (s : State) (id : Nat) : (dropPkt s id).slices = s.slices := rfl
@[simp] theorem dropPkt_dies (s : State) (id : Nat) : (dropPkt s id).dies = s.dies := rfl
@[simp] theorem dropPkt_dmgen (s : State) (id : Nat) : (dropPkt s id).dmgen = s.dmgen := rfl
@[simp] theorem dropPkt_failed (s : State) (id : Nat) : (dropPkt s id).failed = s.failed := rfl
@[simp] theorem dropPkt_tenants (s : State) (id : Nat) : (dropPkt s id).tenants = s.tenants := rfl
@[simp] theorem dropPkt_owner (s : State) (id : Nat) : (dropPkt s id).owner = s.owner := rfl
@[simp] theorem dropPkt_used (s : State) (id : Nat) : (dropPkt s id).used = s.used := rfl
@[simp] theorem dropPkt_memory (s : State) (id : Nat) : (dropPkt s id).memory = s.memory := rfl
@[simp] theorem dropPkt_nextId (s : State) (id : Nat) : (dropPkt s id).nextId = s.nextId := rfl
@[simp] theorem dropPkt_msgs (s : State) (id : Nat) : (dropPkt s id).msgs = s.msgs := rfl
@[simp] theorem dropPkt_watch (s : State) (id : Nat) : (dropPkt s id).watch = s.watch := rfl
@[simp] theorem dropPkt_pending (s : State) (id : Nat) : (dropPkt s id).pending = s.pending := rfl
@[simp] theorem dropPkt_launched (s : State) (id : Nat) : (dropPkt s id).launched = s.launched := rfl
@[simp] theorem dropPkt_invals (s : State) (id : Nat) : (dropPkt s id).invals = s.invals := rfl
@[simp] theorem dropPkt_remap (s : State) (id : Nat) : (dropPkt s id).remap = s.remap := rfl
@[simp] theorem dropPkt_svc (s : State) (id : Nat) : (dropPkt s id).svc = s.svc := rfl
@[simp] theorem dropPkt_gangs (s : State) (id : Nat) : (dropPkt s id).gangs = s.gangs := rfl
@[simp] theorem dropPkt_switches (s : State) (id : Nat) : (dropPkt s id).switches = s.switches := rfl
@[simp] theorem dropPkt_flows (s : State) (id : Nat) : (dropPkt s id).flows = s.flows := rfl
@[simp] theorem dropPkt_egress (s : State) (id : Nat) : (dropPkt s id).egress = s.egress := rfl
@[simp] theorem dropPkt_portSent (s : State) (id : Nat) : (dropPkt s id).portSent = s.portSent := rfl
@[simp] theorem dropPkt_etherType (s : State) (id : Nat) : (dropPkt s id).etherType = s.etherType := rfl
@[simp] theorem dropPkt_strange (s : State) (id : Nat) : (dropPkt s id).strange = s.strange := rfl
@[simp] theorem dropPkt_transit (s : State) (id : Nat) : (dropPkt s id).transit = s.transit := rfl
@[simp] theorem dropPkt_links (s : State) (id : Nat) : (dropPkt s id).links = s.links := rfl
@[simp] theorem dropPkt_offered (s : State) (id : Nat) : (dropPkt s id).offered = s.offered := rfl
@[simp] theorem dropPkt_accepted (s : State) (id : Nat) : (dropPkt s id).accepted = s.accepted := rfl
@[simp] theorem dropPkt_host (s : State) (id : Nat) : (dropPkt s id).host = s.host := rfl
@[simp] theorem dropPkt_flash (s : State) (id : Nat) : (dropPkt s id).flash = s.flash := rfl
@[simp] theorem dropPkt_moduleCkpt (s : State) (id : Nat) : (dropPkt s id).moduleCkpt = s.moduleCkpt := rfl
@[simp] theorem dropPkt_tenantCkpts (s : State) (id : Nat) : (dropPkt s id).tenantCkpts = s.tenantCkpts := rfl

/-! ### The line -/

@[simp] theorem setG_pc (l : Line) (i : Reg) (v : Word) (t : Byte) : (setG l i v t).pc = l.pc := rfl
@[simp] theorem setG_rmode (l : Line) (i : Reg) (v : Word) (t : Byte) : (setG l i v t).rmode = l.rmode := rfl
@[simp] theorem setG_tlvl (l : Line) (i : Reg) (v : Word) (t : Byte) : (setG l i v t).tlvl = l.tlvl := rfl
@[simp] theorem setG_tfb (l : Line) (i : Reg) (v : Word) (t : Byte) : (setG l i v t).tfb = l.tfb := rfl
@[simp] theorem setG_fen (l : Line) (i : Reg) (v : Word) (t : Byte) : (setG l i v t).fen = l.fen := rfl
@[simp] theorem setG_q (l : Line) (i : Reg) (v : Word) (t : Byte) : (setG l i v t).q = l.q := rfl
@[simp] theorem setG_wait (l : Line) (i : Reg) (v : Word) (t : Byte) : (setG l i v t).wait = l.wait := rfl
@[simp] theorem setG_tenant (l : Line) (i : Reg) (v : Word) (t : Byte) : (setG l i v t).tenant = l.tenant := rfl
@[simp] theorem setG_job (l : Line) (i : Reg) (v : Word) (t : Byte) : (setG l i v t).job = l.job := rfl
@[simp] theorem setG_prio (l : Line) (i : Reg) (v : Word) (t : Byte) : (setG l i v t).prio = l.prio := rfl
@[simp] theorem setG_sdom (l : Line) (i : Reg) (v : Word) (t : Byte) : (setG l i v t).sdom = l.sdom := rfl
@[simp] theorem setG_hnd (l : Line) (i : Reg) (v : Word) (t : Byte) : (setG l i v t).hnd = l.hnd := rfl
@[simp] theorem setG_fin (l : Line) (i : Reg) (v : Word) (t : Byte) : (setG l i v t).fin = l.fin := rfl
@[simp] theorem setG_root (l : Line) (i : Reg) (v : Word) (t : Byte) : (setG l i v t).root = l.root := rfl
@[simp] theorem setG_pend (l : Line) (i : Reg) (v : Word) (t : Byte) : (setG l i v t).pend = l.pend := rfl
@[simp] theorem setG_lacnt (l : Line) (i : Reg) (v : Word) (t : Byte) : (setG l i v t).lacnt = l.lacnt := rfl
@[simp] theorem setG_laopen (l : Line) (i : Reg) (v : Word) (t : Byte) : (setG l i v t).laopen = l.laopen := rfl
@[simp] theorem setG_hcnt (l : Line) (i : Reg) (v : Word) (t : Byte) : (setG l i v t).hcnt = l.hcnt := rfl
@[simp] theorem setG_hpay (l : Line) (i : Reg) (v : Word) (t : Byte) : (setG l i v t).hpay = l.hpay := rfl
@[simp] theorem setG_fcode (l : Line) (i : Reg) (v : Word) (t : Byte) : (setG l i v t).fcode = l.fcode := rfl
@[simp] theorem setG_fflg (l : Line) (i : Reg) (v : Word) (t : Byte) : (setG l i v t).fflg = l.fflg := rfl
@[simp] theorem setG_tdata (l : Line) (i : Reg) (v : Word) (t : Byte) : (setG l i v t).tdata = l.tdata := rfl
@[simp] theorem setG_lver (l : Line) (i : Reg) (v : Word) (t : Byte) : (setG l i v t).lver = l.lver := rfl
@[simp] theorem setG_hwin (l : Line) (i : Reg) (v : Word) (t : Byte) : (setG l i v t).hwin = l.hwin := rfl

@[simp] theorem setTag_g (l : Line) (i : Reg) (t : Byte) : (setTag l i t).g = l.g := rfl
@[simp] theorem setTag_pc (l : Line) (i : Reg) (t : Byte) : (setTag l i t).pc = l.pc := rfl
@[simp] theorem setTag_rmode (l : Line) (i : Reg) (t : Byte) : (setTag l i t).rmode = l.rmode := rfl
@[simp] theorem setTag_tlvl (l : Line) (i : Reg) (t : Byte) : (setTag l i t).tlvl = l.tlvl := rfl
@[simp] theorem setTag_tfb (l : Line) (i : Reg) (t : Byte) : (setTag l i t).tfb = l.tfb := rfl
@[simp] theorem setTag_fen (l : Line) (i : Reg) (t : Byte) : (setTag l i t).fen = l.fen := rfl
@[simp] theorem setTag_q (l : Line) (i : Reg) (t : Byte) : (setTag l i t).q = l.q := rfl
@[simp] theorem setTag_wait (l : Line) (i : Reg) (t : Byte) : (setTag l i t).wait = l.wait := rfl
@[simp] theorem setTag_tenant (l : Line) (i : Reg) (t : Byte) : (setTag l i t).tenant = l.tenant := rfl
@[simp] theorem setTag_job (l : Line) (i : Reg) (t : Byte) : (setTag l i t).job = l.job := rfl
@[simp] theorem setTag_prio (l : Line) (i : Reg) (t : Byte) : (setTag l i t).prio = l.prio := rfl
@[simp] theorem setTag_sdom (l : Line) (i : Reg) (t : Byte) : (setTag l i t).sdom = l.sdom := rfl
@[simp] theorem setTag_hnd (l : Line) (i : Reg) (t : Byte) : (setTag l i t).hnd = l.hnd := rfl
@[simp] theorem setTag_fin (l : Line) (i : Reg) (t : Byte) : (setTag l i t).fin = l.fin := rfl
@[simp] theorem setTag_root (l : Line) (i : Reg) (t : Byte) : (setTag l i t).root = l.root := rfl
@[simp] theorem setTag_pend (l : Line) (i : Reg) (t : Byte) : (setTag l i t).pend = l.pend := rfl
@[simp] theorem setTag_lacnt (l : Line) (i : Reg) (t : Byte) : (setTag l i t).lacnt = l.lacnt := rfl
@[simp] theorem setTag_laopen (l : Line) (i : Reg) (t : Byte) : (setTag l i t).laopen = l.laopen := rfl
@[simp] theorem setTag_hcnt (l : Line) (i : Reg) (t : Byte) : (setTag l i t).hcnt = l.hcnt := rfl
@[simp] theorem setTag_hpay (l : Line) (i : Reg) (t : Byte) : (setTag l i t).hpay = l.hpay := rfl
@[simp] theorem setTag_fcode (l : Line) (i : Reg) (t : Byte) : (setTag l i t).fcode = l.fcode := rfl
@[simp] theorem setTag_fflg (l : Line) (i : Reg) (t : Byte) : (setTag l i t).fflg = l.fflg := rfl
@[simp] theorem setTag_tdata (l : Line) (i : Reg) (t : Byte) : (setTag l i t).tdata = l.tdata := rfl
@[simp] theorem setTag_lver (l : Line) (i : Reg) (t : Byte) : (setTag l i t).lver = l.lver := rfl
@[simp] theorem setTag_hwin (l : Line) (i : Reg) (t : Byte) : (setTag l i t).hwin = l.hwin := rfl

@[simp] theorem setPending_g (l : Line) (i : Reg) : (setPending l i).g = l.g := rfl
@[simp] theorem setPending_pc (l : Line) (i : Reg) : (setPending l i).pc = l.pc := rfl
@[simp] theorem setPending_rmode (l : Line) (i : Reg) : (setPending l i).rmode = l.rmode := rfl
@[simp] theorem setPending_tlvl (l : Line) (i : Reg) : (setPending l i).tlvl = l.tlvl := rfl
@[simp] theorem setPending_tfb (l : Line) (i : Reg) : (setPending l i).tfb = l.tfb := rfl
@[simp] theorem setPending_fen (l : Line) (i : Reg) : (setPending l i).fen = l.fen := rfl
@[simp] theorem setPending_q (l : Line) (i : Reg) : (setPending l i).q = l.q := rfl
@[simp] theorem setPending_wait (l : Line) (i : Reg) : (setPending l i).wait = l.wait := rfl
@[simp] theorem setPending_tag (l : Line) (i : Reg) : (setPending l i).tag = l.tag := rfl
@[simp] theorem setPending_tenant (l : Line) (i : Reg) : (setPending l i).tenant = l.tenant := rfl
@[simp] theorem setPending_job (l : Line) (i : Reg) : (setPending l i).job = l.job := rfl
@[simp] theorem setPending_prio (l : Line) (i : Reg) : (setPending l i).prio = l.prio := rfl
@[simp] theorem setPending_sdom (l : Line) (i : Reg) : (setPending l i).sdom = l.sdom := rfl
@[simp] theorem setPending_hnd (l : Line) (i : Reg) : (setPending l i).hnd = l.hnd := rfl
@[simp] theorem setPending_fin (l : Line) (i : Reg) : (setPending l i).fin = l.fin := rfl
@[simp] theorem setPending_root (l : Line) (i : Reg) : (setPending l i).root = l.root := rfl
@[simp] theorem setPending_lacnt (l : Line) (i : Reg) : (setPending l i).lacnt = l.lacnt := rfl
@[simp] theorem setPending_laopen (l : Line) (i : Reg) : (setPending l i).laopen = l.laopen := rfl
@[simp] theorem setPending_hcnt (l : Line) (i : Reg) : (setPending l i).hcnt = l.hcnt := rfl
@[simp] theorem setPending_hpay (l : Line) (i : Reg) : (setPending l i).hpay = l.hpay := rfl
@[simp] theorem setPending_fcode (l : Line) (i : Reg) : (setPending l i).fcode = l.fcode := rfl
@[simp] theorem setPending_fflg (l : Line) (i : Reg) : (setPending l i).fflg = l.fflg := rfl
@[simp] theorem setPending_tdata (l : Line) (i : Reg) : (setPending l i).tdata = l.tdata := rfl
@[simp] theorem setPending_lver (l : Line) (i : Reg) : (setPending l i).lver = l.lver := rfl
@[simp] theorem setPending_hwin (l : Line) (i : Reg) : (setPending l i).hwin = l.hwin := rfl

@[simp] theorem clearPending_g (l : Line) (i : Reg) : (clearPending l i).g = l.g := rfl
@[simp] theorem clearPending_pc (l : Line) (i : Reg) : (clearPending l i).pc = l.pc := rfl
@[simp] theorem clearPending_rmode (l : Line) (i : Reg) : (clearPending l i).rmode = l.rmode := rfl
@[simp] theorem clearPending_tlvl (l : Line) (i : Reg) : (clearPending l i).tlvl = l.tlvl := rfl
@[simp] theorem clearPending_tfb (l : Line) (i : Reg) : (clearPending l i).tfb = l.tfb := rfl
@[simp] theorem clearPending_fen (l : Line) (i : Reg) : (clearPending l i).fen = l.fen := rfl
@[simp] theorem clearPending_q (l : Line) (i : Reg) : (clearPending l i).q = l.q := rfl
@[simp] theorem clearPending_wait (l : Line) (i : Reg) : (clearPending l i).wait = l.wait := rfl
@[simp] theorem clearPending_tag (l : Line) (i : Reg) : (clearPending l i).tag = l.tag := rfl
@[simp] theorem clearPending_tenant (l : Line) (i : Reg) : (clearPending l i).tenant = l.tenant := rfl
@[simp] theorem clearPending_job (l : Line) (i : Reg) : (clearPending l i).job = l.job := rfl
@[simp] theorem clearPending_prio (l : Line) (i : Reg) : (clearPending l i).prio = l.prio := rfl
@[simp] theorem clearPending_sdom (l : Line) (i : Reg) : (clearPending l i).sdom = l.sdom := rfl
@[simp] theorem clearPending_hnd (l : Line) (i : Reg) : (clearPending l i).hnd = l.hnd := rfl
@[simp] theorem clearPending_fin (l : Line) (i : Reg) : (clearPending l i).fin = l.fin := rfl
@[simp] theorem clearPending_root (l : Line) (i : Reg) : (clearPending l i).root = l.root := rfl
@[simp] theorem clearPending_lacnt (l : Line) (i : Reg) : (clearPending l i).lacnt = l.lacnt := rfl
@[simp] theorem clearPending_laopen (l : Line) (i : Reg) : (clearPending l i).laopen = l.laopen := rfl
@[simp] theorem clearPending_hcnt (l : Line) (i : Reg) : (clearPending l i).hcnt = l.hcnt := rfl
@[simp] theorem clearPending_hpay (l : Line) (i : Reg) : (clearPending l i).hpay = l.hpay := rfl
@[simp] theorem clearPending_fcode (l : Line) (i : Reg) : (clearPending l i).fcode = l.fcode := rfl
@[simp] theorem clearPending_fflg (l : Line) (i : Reg) : (clearPending l i).fflg = l.fflg := rfl
@[simp] theorem clearPending_tdata (l : Line) (i : Reg) : (clearPending l i).tdata = l.tdata := rfl
@[simp] theorem clearPending_lver (l : Line) (i : Reg) : (clearPending l i).lver = l.lver := rfl
@[simp] theorem clearPending_hwin (l : Line) (i : Reg) : (clearPending l i).hwin = l.hwin := rfl

@[simp] theorem clearExt_g (l : Line) : (clearExt l).g = l.g := rfl
@[simp] theorem clearExt_pc (l : Line) : (clearExt l).pc = l.pc := rfl
@[simp] theorem clearExt_rmode (l : Line) : (clearExt l).rmode = l.rmode := rfl
@[simp] theorem clearExt_tlvl (l : Line) : (clearExt l).tlvl = l.tlvl := rfl
@[simp] theorem clearExt_tfb (l : Line) : (clearExt l).tfb = l.tfb := rfl
@[simp] theorem clearExt_fen (l : Line) : (clearExt l).fen = l.fen := rfl
@[simp] theorem clearExt_q (l : Line) : (clearExt l).q = l.q := rfl
@[simp] theorem clearExt_wait (l : Line) : (clearExt l).wait = l.wait := rfl
@[simp] theorem clearExt_tag (l : Line) : (clearExt l).tag = l.tag := rfl
@[simp] theorem clearExt_tenant (l : Line) : (clearExt l).tenant = l.tenant := rfl
@[simp] theorem clearExt_job (l : Line) : (clearExt l).job = l.job := rfl
@[simp] theorem clearExt_prio (l : Line) : (clearExt l).prio = l.prio := rfl
@[simp] theorem clearExt_sdom (l : Line) : (clearExt l).sdom = l.sdom := rfl
@[simp] theorem clearExt_hnd (l : Line) : (clearExt l).hnd = l.hnd := rfl
@[simp] theorem clearExt_fin (l : Line) : (clearExt l).fin = l.fin := rfl
@[simp] theorem clearExt_root (l : Line) : (clearExt l).root = l.root := rfl
@[simp] theorem clearExt_pend (l : Line) : (clearExt l).pend = l.pend := rfl
@[simp] theorem clearExt_lacnt (l : Line) : (clearExt l).lacnt = l.lacnt := rfl
@[simp] theorem clearExt_laopen (l : Line) : (clearExt l).laopen = l.laopen := rfl
@[simp] theorem clearExt_fcode (l : Line) : (clearExt l).fcode = l.fcode := rfl
@[simp] theorem clearExt_fflg (l : Line) : (clearExt l).fflg = l.fflg := rfl
@[simp] theorem clearExt_tdata (l : Line) : (clearExt l).tdata = l.tdata := rfl
@[simp] theorem clearExt_lver (l : Line) : (clearExt l).lver = l.lver := rfl
@[simp] theorem clearExt_hwin (l : Line) : (clearExt l).hwin = l.hwin := rfl

@[simp] theorem raiseFlags_g (l : Line) (e : BitVec 5) : (raiseFlags l e).g = l.g := rfl
@[simp] theorem raiseFlags_pc (l : Line) (e : BitVec 5) : (raiseFlags l e).pc = l.pc := rfl
@[simp] theorem raiseFlags_rmode (l : Line) (e : BitVec 5) : (raiseFlags l e).rmode = l.rmode := rfl
@[simp] theorem raiseFlags_tlvl (l : Line) (e : BitVec 5) : (raiseFlags l e).tlvl = l.tlvl := rfl
@[simp] theorem raiseFlags_tfb (l : Line) (e : BitVec 5) : (raiseFlags l e).tfb = l.tfb := rfl
@[simp] theorem raiseFlags_fen (l : Line) (e : BitVec 5) : (raiseFlags l e).fen = l.fen := rfl
@[simp] theorem raiseFlags_q (l : Line) (e : BitVec 5) : (raiseFlags l e).q = l.q := rfl
@[simp] theorem raiseFlags_wait (l : Line) (e : BitVec 5) : (raiseFlags l e).wait = l.wait := rfl
@[simp] theorem raiseFlags_tag (l : Line) (e : BitVec 5) : (raiseFlags l e).tag = l.tag := rfl
@[simp] theorem raiseFlags_tenant (l : Line) (e : BitVec 5) : (raiseFlags l e).tenant = l.tenant := rfl
@[simp] theorem raiseFlags_job (l : Line) (e : BitVec 5) : (raiseFlags l e).job = l.job := rfl
@[simp] theorem raiseFlags_prio (l : Line) (e : BitVec 5) : (raiseFlags l e).prio = l.prio := rfl
@[simp] theorem raiseFlags_sdom (l : Line) (e : BitVec 5) : (raiseFlags l e).sdom = l.sdom := rfl
@[simp] theorem raiseFlags_hnd (l : Line) (e : BitVec 5) : (raiseFlags l e).hnd = l.hnd := rfl
@[simp] theorem raiseFlags_fin (l : Line) (e : BitVec 5) : (raiseFlags l e).fin = l.fin := rfl
@[simp] theorem raiseFlags_root (l : Line) (e : BitVec 5) : (raiseFlags l e).root = l.root := rfl
@[simp] theorem raiseFlags_pend (l : Line) (e : BitVec 5) : (raiseFlags l e).pend = l.pend := rfl
@[simp] theorem raiseFlags_lacnt (l : Line) (e : BitVec 5) : (raiseFlags l e).lacnt = l.lacnt := rfl
@[simp] theorem raiseFlags_laopen (l : Line) (e : BitVec 5) : (raiseFlags l e).laopen = l.laopen := rfl
@[simp] theorem raiseFlags_hcnt (l : Line) (e : BitVec 5) : (raiseFlags l e).hcnt = l.hcnt := rfl
@[simp] theorem raiseFlags_hpay (l : Line) (e : BitVec 5) : (raiseFlags l e).hpay = l.hpay := rfl
@[simp] theorem raiseFlags_fcode (l : Line) (e : BitVec 5) : (raiseFlags l e).fcode = l.fcode := rfl
@[simp] theorem raiseFlags_tdata (l : Line) (e : BitVec 5) : (raiseFlags l e).tdata = l.tdata := rfl
@[simp] theorem raiseFlags_lver (l : Line) (e : BitVec 5) : (raiseFlags l e).lver = l.lver := rfl
@[simp] theorem raiseFlags_hwin (l : Line) (e : BitVec 5) : (raiseFlags l e).hwin = l.hwin := rfl

/-! ### The live line -/

@[simp] theorem atPc_tenant (t : LiveLine) (pc : BitVec 48) : (atPc t pc).tenant = t.tenant := rfl
@[simp] theorem atPc_addr (t : LiveLine) (pc : BitVec 48) : (atPc t pc).addr = t.addr := rfl
@[simp] theorem atPc_place (t : LiveLine) (pc : BitVec 48) : (atPc t pc).place = t.place := rfl
@[simp] theorem atPc_clm (t : LiveLine) (pc : BitVec 48) : (atPc t pc).clm = t.clm := rfl
@[simp] theorem atPc_holder (t : LiveLine) (pc : BitVec 48) : (atPc t pc).holder = t.holder := rfl
@[simp] theorem atPc_pull (t : LiveLine) (pc : BitVec 48) : (atPc t pc).pull = t.pull := rfl
@[simp] theorem atPc_verDue (t : LiveLine) (pc : BitVec 48) : (atPc t pc).verDue = t.verDue := rfl
@[simp] theorem atPc_stores (t : LiveLine) (pc : BitVec 48) : (atPc t pc).stores = t.stores := rfl
@[simp] theorem atPc_drain (t : LiveLine) (pc : BitVec 48) : (atPc t pc).drain = t.drain := rfl
@[simp] theorem atPc_derr (t : LiveLine) (pc : BitVec 48) : (atPc t pc).derr = t.derr := rfl
@[simp] theorem atPc_forfeit (t : LiveLine) (pc : BitVec 48) : (atPc t pc).forfeit = t.forfeit := rfl
@[simp] theorem atPc_norm (t : LiveLine) (pc : BitVec 48) : (atPc t pc).norm = t.norm := rfl
@[simp] theorem atPc_normWait (t : LiveLine) (pc : BitVec 48) : (atPc t pc).normWait = t.normWait := rfl
@[simp] theorem atPc_count (t : LiveLine) (pc : BitVec 48) : (atPc t pc).count = t.count := rfl
@[simp] theorem atPc_cool (t : LiveLine) (pc : BitVec 48) : (atPc t pc).cool = t.cool := rfl
@[simp] theorem atPc_last (t : LiveLine) (pc : BitVec 48) : (atPc t pc).last = t.last := rfl
@[simp] theorem atPc_passed (t : LiveLine) (pc : BitVec 48) : (atPc t pc).passed = t.passed := rfl
@[simp] theorem atPc_passedCl (t : LiveLine) (pc : BitVec 48) : (atPc t pc).passedCl = t.passedCl := rfl
@[simp] theorem atPc_lastCl (t : LiveLine) (pc : BitVec 48) : (atPc t pc).lastCl = t.lastCl := rfl
@[simp] theorem atPc_staging (t : LiveLine) (pc : BitVec 48) : (atPc t pc).staging = t.staging := rfl
@[simp] theorem atPc_yieldOf (t : LiveLine) (pc : BitVec 48) : (atPc t pc).yieldOf = t.yieldOf := rfl
@[simp] theorem atPc_pool (t : LiveLine) (pc : BitVec 48) : (atPc t pc).pool = t.pool := rfl
@[simp] theorem atPc_fw (t : LiveLine) (pc : BitVec 48) : (atPc t pc).fw = t.fw := rfl
@[simp] theorem atPc_await (t : LiveLine) (pc : BitVec 48) : (atPc t pc).await = t.await := rfl
@[simp] theorem atPc_route (t : LiveLine) (pc : BitVec 48) : (atPc t pc).route = t.route := rfl

@[simp] theorem waitLine_tenant (t : LiveLine) (tag : Word) : (waitLine t tag).tenant = t.tenant := rfl
@[simp] theorem waitLine_addr (t : LiveLine) (tag : Word) : (waitLine t tag).addr = t.addr := rfl
@[simp] theorem waitLine_place (t : LiveLine) (tag : Word) : (waitLine t tag).place = t.place := rfl
@[simp] theorem waitLine_clm (t : LiveLine) (tag : Word) : (waitLine t tag).clm = t.clm := rfl
@[simp] theorem waitLine_holder (t : LiveLine) (tag : Word) : (waitLine t tag).holder = t.holder := rfl
@[simp] theorem waitLine_pull (t : LiveLine) (tag : Word) : (waitLine t tag).pull = t.pull := rfl
@[simp] theorem waitLine_verDue (t : LiveLine) (tag : Word) : (waitLine t tag).verDue = t.verDue := rfl
@[simp] theorem waitLine_stores (t : LiveLine) (tag : Word) : (waitLine t tag).stores = t.stores := rfl
@[simp] theorem waitLine_drain (t : LiveLine) (tag : Word) : (waitLine t tag).drain = t.drain := rfl
@[simp] theorem waitLine_derr (t : LiveLine) (tag : Word) : (waitLine t tag).derr = t.derr := rfl
@[simp] theorem waitLine_forfeit (t : LiveLine) (tag : Word) : (waitLine t tag).forfeit = t.forfeit := rfl
@[simp] theorem waitLine_norm (t : LiveLine) (tag : Word) : (waitLine t tag).norm = t.norm := rfl
@[simp] theorem waitLine_normWait (t : LiveLine) (tag : Word) : (waitLine t tag).normWait = t.normWait := rfl
@[simp] theorem waitLine_count (t : LiveLine) (tag : Word) : (waitLine t tag).count = t.count := rfl
@[simp] theorem waitLine_cool (t : LiveLine) (tag : Word) : (waitLine t tag).cool = t.cool := rfl
@[simp] theorem waitLine_last (t : LiveLine) (tag : Word) : (waitLine t tag).last = t.last := rfl
@[simp] theorem waitLine_passed (t : LiveLine) (tag : Word) : (waitLine t tag).passed = t.passed := rfl
@[simp] theorem waitLine_passedCl (t : LiveLine) (tag : Word) : (waitLine t tag).passedCl = t.passedCl := rfl
@[simp] theorem waitLine_lastCl (t : LiveLine) (tag : Word) : (waitLine t tag).lastCl = t.lastCl := rfl
@[simp] theorem waitLine_staging (t : LiveLine) (tag : Word) : (waitLine t tag).staging = t.staging := rfl
@[simp] theorem waitLine_yieldOf (t : LiveLine) (tag : Word) : (waitLine t tag).yieldOf = t.yieldOf := rfl
@[simp] theorem waitLine_pool (t : LiveLine) (tag : Word) : (waitLine t tag).pool = t.pool := rfl
@[simp] theorem waitLine_fw (t : LiveLine) (tag : Word) : (waitLine t tag).fw = t.fw := rfl
@[simp] theorem waitLine_await (t : LiveLine) (tag : Word) : (waitLine t tag).await = t.await := rfl
@[simp] theorem waitLine_route (t : LiveLine) (tag : Word) : (waitLine t tag).route = t.route := rfl

/-! ### Registers -/

@[simp] theorem getG_setG_self (l : Line) (i : Reg) (v : Word) (t : Byte) : getG (setG l i v t) i = v := by
  simp [getG, setG]

theorem getG_setG_ne (l : Line) (i j : Reg) (v : Word) (t : Byte) (h : j ≠ i) : getG (setG l i v t) j = getG l j := by
  have h' : i.toNat ≠ j.toNat := fun e => h (BitVec.eq_of_toNat_eq e.symm)
  simp [getG, setG, h']

@[simp] theorem getTag_setG_self (l : Line) (i : Reg) (v : Word) (t : Byte) : getTag (setG l i v t) i = t := by
  simp [getTag, setG]

theorem getTag_setG_ne (l : Line) (i j : Reg) (v : Word) (t : Byte) (h : j ≠ i) : getTag (setG l i v t) j = getTag l j := by
  have h' : i.toNat ≠ j.toNat := fun e => h (BitVec.eq_of_toNat_eq e.symm)
  simp [getTag, setG, h']

theorem getQ_zero (l : Line) : getQ l 0 = 0xFF := rfl

theorem getQ_setQ_self (l : Line) (i : Reg) (v : Byte) (h : i ≠ 0) : getQ (setQ l i v) i = v := by
  simp only [getQ, setQ, if_neg h]
  simp

theorem getQ_setQ_ne (l : Line) (i j : Reg) (v : Byte) (h : j ≠ i) : getQ (setQ l i v) j = getQ l j := by
  have h' : i.toNat ≠ j.toNat := fun e => h (BitVec.eq_of_toNat_eq e.symm)
  by_cases hi : i = 0
  · simp [setQ, hi]
  · simp only [getQ, setQ, if_neg hi]
    simp [h']

/-- A write to q0 changes nothing (R13). -/
theorem setQ_zero (l : Line) (v : Byte) : setQ l 0 v = l := rfl

/-! ### Tables -/

theorem tabGet_tabIns_self {α : Type} (d : α) (k : Nat) (v : α) (t : Tab α) : tabGet d k (tabIns k v t) = v := by
  induction t with
  | nil => simp [tabIns, tabGet]
  | cons e t ih =>
    unfold tabIns
    split
    · simp [tabGet]
    · split
      · simp [tabGet]
      · rename_i h
        simp [tabGet, Ne.symm h, ih]

theorem tabGet_tabIns_ne {α : Type} (d : α) (k j : Nat) (v : α) (t : Tab α) (h : j ≠ k) :
    tabGet d j (tabIns k v t) = tabGet d j t := by
  induction t with
  | nil => simp [tabIns, tabGet, Ne.symm h]
  | cons e t ih =>
    unfold tabIns
    split
    · simp [tabGet, Ne.symm h]
    · split
      · rename_i hk
        simp [tabGet, Ne.symm h, ← hk]
      · simp [tabGet, ih]

theorem tabGet_tabDel_ne {α : Type} (d : α) (k j : Nat) (t : Tab α) (h : j ≠ k) : tabGet d j (tabDel k t) = tabGet d j t := by
  induction t with
  | nil => rfl
  | cons e t ih =>
    unfold tabDel
    split
    · rename_i hk
      simp [tabGet, hk, Ne.symm h]
    · simp [tabGet, ih]

/-- A replaced entry leaves every other one alone. -/
theorem tabGet_tabPut_ne {α : Type} [DecidableEq α] (d e : α) (k j : Nat) (v : α) (t : Tab α) (h : j ≠ k) :
    tabGet e j (tabPut d k v t) = tabGet e j t := by
  unfold tabPut
  split
  · exact tabGet_tabDel_ne e k j t h
  · exact tabGet_tabIns_ne e k j v t h

theorem getCore_setCore_ne (s : State) (c k : Nat) (v : Core) (h : k ≠ c) : getCore (setCore s c v) k = getCore s k :=
  tabGet_tabPut_ne _ _ c k v s.cores h

theorem getTenant_setTenant_ne (s : State) (t k : Nat) (v : Tenant) (h : k ≠ t) :
    getTenant (setTenant s t v) k = getTenant s k :=
  tabGet_tabPut_ne _ _ t k v s.tenants h

theorem getCluster_setCluster_ne (s : State) (c k : Nat) (v : Cluster) (h : k ≠ c) :
    getCluster (setCluster s c v) k = getCluster s k :=
  tabGet_tabPut_ne _ _ c k v s.clusters h

end Sys2Proof.Machine
end

