-- ==== Sys2Proof/Laws/Issue.lean ====
section
/-! SUPPORT. Laws/Issue.lean: what the issue of a word can do, said once: a ready word goes to its meaning, every word answers a
next state, and what the plain meanings of one line answer. -/

namespace Sys2Proof.Machine

/-! ### The issuing line as a word finds it -/

@[simp] theorem getG_clearExt (l : Line) (r : Reg) : getG (clearExt l) r = getG l r := rfl
@[simp] theorem getTag_clearExt (l : Line) (r : Reg) : getTag (clearExt l) r = getTag l r := rfl
@[simp] theorem getQ_clearExt (l : Line) (r : Reg) : getQ (clearExt l) r = getQ l r := rfl

@[simp] theorem closedWindow_getG (l : Line) (b : Bool) (r : Reg) : getG (closedWindow l b) r = getG l r := by
  cases b <;> rfl

@[simp] theorem closedWindow_getTag (l : Line) (b : Bool) (r : Reg) : getTag (closedWindow l b) r = getTag l r := by
  cases b <;> rfl

@[simp] theorem closedWindow_getQ (l : Line) (b : Bool) (r : Reg) : getQ (closedWindow l b) r = getQ l r := by
  cases b <;> rfl

/-- The window and nothing else changes when an issue is counted. -/
theorem countWindow_frame (l : Line) (k : Option (BitVec 4)) :
    countWindow l k = { l with lacnt := (countWindow l k).lacnt, laopen := (countWindow l k).laopen } := by
  unfold countWindow
  cases l.laopen <;> cases k <;> simp [openWindow] <;> (try split) <;> simp

@[simp] theorem countWindow_getG (l : Line) (k : Option (BitVec 4)) (r : Reg) : getG (countWindow l k) r = getG l r := by
  rw [countWindow_frame]; rfl

@[simp] theorem countWindow_getTag (l : Line) (k : Option (BitVec 4)) (r : Reg) :
    getTag (countWindow l k) r = getTag l r := by
  rw [countWindow_frame]; rfl

@[simp] theorem countWindow_getQ (l : Line) (k : Option (BitVec 4)) (r : Reg) : getQ (countWindow l k) r = getQ l r := by
  rw [countWindow_frame]; rfl

/-- Counting an issue leaves everything but the window and the extension alone. -/
theorem counted_frame (h : Hdr) (t : LiveLine) :
    counted h t = { t.line with lacnt := (counted h t).lacnt, laopen := (counted h t).laopen, hcnt := 0, hpay := 0 } := by
  unfold counted issueCtx clearExt
  simp only
  rw [countWindow_frame]
  cases h.drain <;> rfl

@[simp] theorem counted_getG (h : Hdr) (t : LiveLine) (r : Reg) : getG (counted h t) r = getG t.line r := by
  rw [counted_frame]; rfl

@[simp] theorem counted_getTag (h : Hdr) (t : LiveLine) (r : Reg) : getTag (counted h t) r = getTag t.line r := by
  rw [counted_frame]; rfl

@[simp] theorem counted_getQ (h : Hdr) (t : LiveLine) (r : Reg) : getQ (counted h t) r = getQ t.line r := by
  rw [counted_frame]; rfl

/-- The line of the context is the counted line. -/
theorem issueCtx_line (h : Hdr) (t : LiveLine) : (issueCtx h t).t = { t with await := stillAwaits t, line := counted h t } := rfl

@[simp] theorem issueCtx_tline (h : Hdr) (t : LiveLine) : (issueCtx h t).t.line = counted h t := rfl
@[simp] theorem issueCtx_p (h : Hdr) (t : LiveLine) : (issueCtx h t).p = wordPc t := rfl
@[simp] theorem issueCtx_core (h : Hdr) (t : LiveLine) : (issueCtx h t).core = coreOfPlace t.place := rfl
@[simp] theorem issueCtx_md (h : Hdr) (t : LiveLine) : (issueCtx h t).md = t.md := rfl

/-- The agent of an access is read off the line as it stood. -/
@[simp] theorem issueCtx_who (h : Hdr) (t : LiveLine) :
    (issueCtx h t).who = ⟨t.line.tenant.toNat, t.line.job.toNat, t.line.tlvl.toNat, .core (coreOfPlace t.place)⟩ := by
  unfold Ctx.who
  rw [issueCtx_tline, counted_frame]
  rfl

/-! ### Words -/

/-- A ready word goes to its meaning. -/
theorem issueWord_ready {h : Hdr} {s : State} {t : LiveLine} (hr : Ready h s t) (body : Ctx → State → Res) :
    issueWord h body s = finishIssue s t (coreOfPlace t.place) (body (issueCtx h t) s) := by
  obtain ⟨ht, hl, hg, hp, hd⟩ := hr
  simp [issueWord, ht, Nat.not_lt.mpr hl, hg, hp, hd]

/-- Every answer of a meaning leads to a next state. -/
theorem finishIssue_next (s : State) (t : LiveLine) (c : Nat) (r : Res) : ∃ s', finishIssue s t c r = .next s' := by
  cases r <;> exact ⟨_, rfl⟩

/-- A word with an issuing line answers a next state. -/
theorem issueWord_next (h : Hdr) (body : Ctx → State → Res) {s : State} {t : LiveLine} (ht : s.thr = some t) :
    ∃ s', issueWord h body s = .next s' := by
  unfold issueWord
  rw [ht]
  simp only
  split
  · exact finishIssue_next _ _ _ _
  · split
    · exact ⟨_, rfl⟩
    · split
      · exact ⟨_, rfl⟩
      · split
        · exact ⟨_, rfl⟩
        · exact finishIssue_next _ _ _ _

/-- All that the issue of a word can do: a Privileged trap, a word skipped, a wait for a register, a wait for the drain, or
its meaning. -/
theorem issueWord_cases {h : Hdr} {body : Ctx → State → Res} {s s' : State} {t : LiveLine} (ht : s.thr = some t)
    (he : issueWord h body s = .next s') :
    (t.line.tlvl.toNat < h.level ∧ s' = trapped s t (trapPrivileged ((h.word.bind encodeNat).getD 0)))
    ∨ (guardTrue t.line h.guard = false ∧ s' = afterIssue s (skipLine t) (wordPc t + 4))
    ∨ (∃ i, firstPending t.line h.named = some i ∧ s' = waiting s t (waitTag 1 i))
    ∨ (mustDrain s h t = true ∧ s' = draining s t .all)
    ∨ (Ready h s t ∧ finishIssue s t (coreOfPlace t.place) (body (issueCtx h t) s) = .next s') := by
  unfold issueWord at he
  rw [ht] at he
  simp only at he
  split at he
  · rename_i hl
    refine .inl ⟨hl, ?_⟩
    injection he with he
    exact he.symm
  · rename_i hl
    split at he
    · rename_i hg
      injection he with he
      exact .inr (.inl ⟨hg, he.symm⟩)
    · rename_i hg
      split at he
      · rename_i i hi
        injection he with he
        exact .inr (.inr (.inl ⟨i, hi, he.symm⟩))
      · rename_i hp
        split at he
        · rename_i hd
          injection he with he
          exact .inr (.inr (.inr (.inl ⟨hd, he.symm⟩)))
        · rename_i hd
          exact .inr (.inr (.inr (.inr ⟨⟨ht, Nat.not_lt.mp hl, by simpa using hg, hp, by simpa using hd⟩, he⟩)))

/-- A meaning of the line alone that answers a line. -/
theorem issueLine_done {h : Hdr} {s : State} {t : LiveLine} (hr : Ready h s t) {f : Ctx → Except Trap Line} {l : Line}
    (hf : f (issueCtx h t) = .ok l) : issueWord h (lineBody f) s = .next (done s t l) := by
  rw [issueWord_ready hr, lineBody, hf]
  rfl

/-- A meaning of the line alone that answers a trap. -/
theorem issueLine_trap {h : Hdr} {s : State} {t : LiveLine} (hr : Ready h s t) {f : Ctx → Except Trap Line} {e : Trap}
    (hf : f (issueCtx h t) = .error e) : issueWord h (lineBody f) s = .next (trapped s t e) := by
  rw [issueWord_ready hr, lineBody, hf]
  rfl

/-! ### A hint word -/

/-- All that a hint word does. -/
theorem issueHint_cases {f : Line → Except Trap Line} {s s' : State} {t : LiveLine} (ht : s.thr = some t)
    (he : issueHint f s = .next s') :
    (∃ m, t.md = some m ∧ s' = trapped s t (trapIllegal (hmodOf m)))
    ∨ (t.md = none ∧ ∃ e, f t.line = .error e ∧ s' = trapped s t e) ∨ (t.md = none ∧ ∃ l, f t.line = .ok l ∧ s' = done s t l) := by
  unfold issueHint at he
  rw [ht] at he
  simp only at he
  split at he
  · rename_i m hm
    injection he with he
    exact .inl ⟨_, hm, he.symm⟩
  · rename_i hm hf
    injection he with he
    exact .inr (.inl ⟨hm, _, hf, he.symm⟩)
  · rename_i hm hf
    injection he with he
    exact .inr (.inr ⟨hm, _, hf, he.symm⟩)

/-- A hint word with an issuing line answers a next state. -/
theorem issueHint_next (f : Line → Except Trap Line) {s : State} {t : LiveLine} (ht : s.thr = some t) :
    ∃ s', issueHint f s = .next s' := by
  unfold issueHint
  rw [ht]
  simp only
  split
  · exact finishIssue_next _ _ _ _
  · exact finishIssue_next _ _ _ _
  · exact ⟨_, rfl⟩

/-! ### Tags -/

@[simp] theorem checkTags_nil (l : Line) : checkTags l [] = none := rfl

/-- An accepted tag is passed over. -/
theorem checkTags_ok {l : Line} {r : Reg} {ts : List Byte} (h : ts.contains (getTag l r) = true)
    (rest : List (Reg × List Byte)) : checkTags l ((r, ts) :: rest) = checkTags l rest := by
  simp only [checkTags]
  rw [if_pos h]

/-- The first tag that is not accepted raises the format trap. -/
theorem checkTags_bad {l : Line} {r : Reg} {ts : List Byte} (h : ts.contains (getTag l r) = false)
    (rest : List (Reg × List Byte)) : checkTags l ((r, ts) :: rest) = some (trapFormat r (getTag l r)) := by
  simp only [checkTags]
  rw [if_neg (by rw [h]; exact Bool.false_ne_true)]

/-! ### The plain register forms -/

/-- A function of two int64 registers. -/
theorem issueBinary_done {g : BitVec 4} {d a b : Reg} {s : State} {t : LiveLine} (hr : Ready (hdr g [d, a, b]) s t)
    (ha : getTag t.line a = 0) (hb : getTag t.line b = 0) (f : Word → Word → Word) :
    issueBinary g d a b f s
      = .next (done s t (setG (counted (hdr g [d, a, b]) t) d (f (getG t.line a) (getG t.line b)) 0)) := by
  refine issueLine_done hr ?_
  simp [intBinary, checkTags, ha, hb, orTrap]

/-- A function of one int64 register. -/
theorem issueUnary_done {g : BitVec 4} {d a : Reg} {s : State} {t : LiveLine} (hr : Ready (hdr g [d, a]) s t)
    (ha : getTag t.line a = 0) (f : Word → Word) :
    issueUnary g d a f s = .next (done s t (setG (counted (hdr g [d, a]) t) d (f (getG t.line a)) 0)) := by
  refine issueLine_done hr ?_
  simp [intUnary, checkTags, ha, orTrap]

/-- A predicate operation. -/
theorem issueQ_done {g : BitVec 4} {d : Reg} {s : State} {t : LiveLine} (hr : Ready (hdr g []) s t) (f : Line → Byte) :
    issueQ g d f s = .next (done s t (setQ (counted (hdr g []) t) d (f (counted (hdr g []) t)))) :=
  issueLine_done hr rfl

/-! ### What stands after a word -/

@[simp] theorem done_memory (s : State) (t : LiveLine) (l : Line) : (done s t l).memory = s.memory := by
  unfold done afterIssue countIssue; cases t.place <;> rfl

/-- The issuing line after a word that is done. -/
theorem done_thr (s : State) (t : LiveLine) (l : Line) :
    (done s t l).thr = some (agedLine s (atPc { t with await := stillAwaits t, line := l } (wordPc t + 4))) := by
  simp only [done, afterIssue]

/-- A trap keeps everything of the line but its wait, FCODE and TDATA (R396). -/
theorem parkLine_frame (l : Line) (e : Trap) :
    parkLine l e = { l with wait := 0xA000000000000000, fcode := e.code, tdata := e.tdata } := rfl

/-- The line a trap leaves: parked where it stands. -/
theorem takeTrap_line (s : State) (t : LiveLine) (e : Trap) (c : Nat) :
    (takeTrap s t e c).2.line = parkLine t.line e := by
  unfold takeTrap
  split
  · rfl
  · split <;> rfl

end Sys2Proof.Machine
end

