-- ==== Sys2Proof/Laws/Memory.lean ====
section
/-! SUPPORT. Laws/Memory.lean: every operation on memory keeps its canonical form, and a read after a write of a byte. -/

namespace Sys2Proof.Machine

/-! ### Rising lists -/

theorem rising_iff (l : List Nat) : rising l = true ↔ l.Pairwise (· < ·) := by
  induction l with
  | nil => simp [rising]
  | cons a t ih =>
    cases t with
    | nil => simp [rising]
    | cons b t =>
      simp only [rising, Bool.and_eq_true, decide_eq_true_eq, ih, List.pairwise_cons]
      constructor
      · rintro ⟨hab, hb, ht⟩
        refine ⟨?_, hb, ht⟩
        intro x hx
        rcases List.mem_cons.mp hx with rfl | hx
        · exact hab
        · exact lt_trans hab (hb x hx)
      · rintro ⟨ha, hb, ht⟩
        exact ⟨ha b (List.mem_cons_self ..), hb, ht⟩

theorem rising_filter (p : Nat → Bool) (l : List Nat) (h : rising l = true) : rising (l.filter p) = true :=
  (rising_iff _).mpr (((rising_iff _).mp h).filter p)

theorem mem_setIns (k x : Nat) (l : List Nat) (h : x ∈ setIns k l) : x = k ∨ x ∈ l := by
  induction l with
  | nil => simpa [setIns] using h
  | cons y t ih =>
    unfold setIns at h
    split at h
    · rcases List.mem_cons.mp h with h | h <;> simp [h]
    · split at h
      · exact .inr h
      · rcases List.mem_cons.mp h with h | h
        · simp [h]
        · rcases ih h with h | h <;> simp [h]

theorem pairwise_setIns (k : Nat) (l : List Nat) (h : l.Pairwise (· < ·)) : (setIns k l).Pairwise (· < ·) := by
  induction l with
  | nil => simp [setIns]
  | cons y t ih =>
    have ht := List.pairwise_cons.mp h
    unfold setIns
    split
    · rename_i hk
      refine List.pairwise_cons.mpr ⟨?_, h⟩
      intro x hx
      rcases List.mem_cons.mp hx with rfl | hx
      · exact hk
      · exact lt_trans hk (ht.1 x hx)
    · split
      · exact h
      · rename_i h1 h2
        refine List.pairwise_cons.mpr ⟨?_, ih ht.2⟩
        intro x hx
        rcases mem_setIns k x t hx with rfl | hx
        · omega
        · exact ht.1 x hx

theorem rising_setIns (k : Nat) (l : List Nat) (h : rising l = true) : rising (setIns k l) = true :=
  (rising_iff _).mpr (pairwise_setIns k l ((rising_iff _).mp h))

theorem setDel_sublist (k : Nat) (l : List Nat) : (setDel k l).Sublist l := by
  induction l with
  | nil => simp [setDel]
  | cons y t ih =>
    unfold setDel
    split
    · exact List.sublist_cons_self y t
    · exact ih.cons_cons y

theorem rising_setDel (k : Nat) (l : List Nat) (h : rising l = true) : rising (setDel k l) = true :=
  (rising_iff _).mpr (((rising_iff _).mp h).sublist (setDel_sublist k l))

/-! ### Cells -/

/-- Cells in canonical form. -/
def cellsWf (c : List Host.Cell) : Bool := rising (c.map (·.1)) && c.all (fun e => e.2 != 0)

theorem byteDel_sublist (k : Nat) (c : List Host.Cell) : (byteDel k c).Sublist c := by
  induction c with
  | nil => simp [byteDel]
  | cons y t ih =>
    unfold byteDel
    split
    · exact List.sublist_cons_self y t
    · exact ih.cons_cons y

theorem mem_byteIns (k : Nat) (v : Byte) (x : Host.Cell) (c : List Host.Cell) (h : x ∈ byteIns k v c) :
    x = (k, v) ∨ x ∈ c := by
  induction c with
  | nil => simpa [byteIns] using h
  | cons y t ih =>
    unfold byteIns at h
    split at h
    · rcases List.mem_cons.mp h with h | h <;> simp [h]
    · split at h
      · rcases List.mem_cons.mp h with h | h <;> simp [h]
      · rcases List.mem_cons.mp h with h | h
        · simp [h]
        · rcases ih h with h | h <;> simp [h]

theorem cellsWf_iff (c : List Host.Cell) :
    cellsWf c = true ↔ c.Pairwise (fun a b => a.1 < b.1) ∧ ∀ e ∈ c, e.2 ≠ 0 := by
  simp [cellsWf, rising_iff, List.pairwise_map]

theorem pairwise_byteIns (k : Nat) (v : Byte) (c : List Host.Cell) (h : c.Pairwise fun a b => a.1 < b.1) :
    (byteIns k v c).Pairwise fun a b => a.1 < b.1 := by
  induction c with
  | nil => simp [byteIns]
  | cons y t ih =>
    have ht := List.pairwise_cons.mp h
    unfold byteIns
    split
    · rename_i hk
      refine List.pairwise_cons.mpr ⟨?_, h⟩
      intro x hx
      rcases List.mem_cons.mp hx with rfl | hx
      · exact hk
      · exact lt_trans hk (ht.1 x hx)
    · split
      · rename_i hk
        exact List.pairwise_cons.mpr ⟨fun x hx => hk ▸ ht.1 x hx, ht.2⟩
      · rename_i h1 h2
        refine List.pairwise_cons.mpr ⟨?_, ih ht.2⟩
        intro x hx
        rcases mem_byteIns k v x t hx with rfl | hx
        · show y.1 < k
          omega
        · exact ht.1 x hx

theorem cellsWf_bytePut (k : Nat) (v : Byte) (c : List Host.Cell) (h : cellsWf c = true) :
    cellsWf (bytePut k v c) = true := by
  rw [cellsWf_iff] at h ⊢
  unfold bytePut
  split
  · exact ⟨h.1.sublist (byteDel_sublist k c), fun e he => h.2 e ((byteDel_sublist k c).subset he)⟩
  · rename_i hv
    refine ⟨pairwise_byteIns k v c h.1, fun e he => ?_⟩
    rcases mem_byteIns k v e c he with rfl | he
    · exact hv
    · exact h.2 e he

theorem cellsWf_filter (p : Host.Cell → Bool) (c : List Host.Cell) (h : cellsWf c = true) : cellsWf (c.filter p) = true := by
  rw [cellsWf_iff] at h ⊢
  exact ⟨h.1.filter p, fun e he => h.2 e (List.mem_of_mem_filter he)⟩

theorem cellsWf_cellsPut (bs : List Byte) (k : Nat) (c : List Host.Cell) (h : cellsWf c = true) :
    cellsWf (cellsPut k bs c) = true := by
  induction bs generalizing k c with
  | nil => exact h
  | cons b t ih => exact ih (k + 1) _ (cellsWf_bytePut k b c h)

theorem cellsWf_foldl (f : Host.Cell → Nat) (l c : List Host.Cell) (h : cellsWf c = true) :
    cellsWf (l.foldl (fun c e => bytePut (f e) e.2 c) c) = true := by
  induction l generalizing c with
  | nil => exact h
  | cons e t ih => exact ih _ (cellsWf_bytePut _ _ c h)

theorem rising_foldl (f : Nat → Nat) (l c : List Nat) (h : rising c = true) :
    rising (l.foldl (fun c x => setIns (f x) c) c) = true := by
  induction l generalizing c with
  | nil => exact h
  | cons e t ih => exact ih _ (rising_setIns _ c h)

/-! ### Memory -/

theorem memWf_iff (m : Memory) :
    memWf m = true ↔ cellsWf m.bytes = true ∧ rising m.full = true ∧ rising m.poison = true := by
  simp [memWf, cellsWf, and_assoc]

theorem memWf_zero : memWf Memory.zero = true := rfl

theorem memWf_memPut (m : Memory) (k : Nat) (bs : List Byte) (h : memWf m = true) : memWf (memPut m k bs) = true := by
  rw [memWf_iff] at h ⊢
  exact ⟨cellsWf_cellsPut bs k _ h.1, h.2⟩

theorem memWf_memWrite (m : Memory) (k n v : Nat) (h : memWf m = true) : memWf (memWrite m k n v) = true :=
  memWf_memPut m k (natLe v n) h

theorem memWf_fePut (m : Memory) (k : Nat) (b : Bool) (h : memWf m = true) : memWf (fePut m k b) = true := by
  rw [memWf_iff] at h ⊢
  refine ⟨h.1, ?_, h.2.2⟩
  cases b
  · exact rising_setDel _ _ h.2.1
  · exact rising_setIns _ _ h.2.1

theorem memWf_poisonAt (m : Memory) (k : Nat) (h : memWf m = true) : memWf (poisonAt m k) = true := by
  rw [memWf_iff] at h ⊢
  exact ⟨h.1, h.2.1, rising_setIns _ _ h.2.2⟩

theorem memWf_memScrub (m : Memory) (k n : Nat) (h : memWf m = true) : memWf (memScrub m k n) = true := by
  rw [memWf_iff] at h ⊢
  exact ⟨cellsWf_filter _ _ h.1, rising_filter _ _ h.2.1, rising_filter _ _ h.2.2⟩

theorem memWf_memMove (m : Memory) (k k' n : Nat) (h : memWf m = true) : memWf (memMove m k k' n) = true := by
  have hs := (memWf_iff _).mp (memWf_memScrub _ k' n (memWf_memScrub m k n h))
  rw [memWf_iff]
  exact ⟨cellsWf_foldl _ _ _ hs.1, rising_foldl _ _ _ hs.2.1, rising_foldl _ _ _ hs.2.2⟩

theorem memWf_memPaste (m : Memory) (k n : Nat) (p : Memory) (h : memWf m = true) : memWf (memPaste m k n p) = true := by
  have hs := (memWf_iff _).mp (memWf_memScrub m k n h)
  rw [memWf_iff]
  exact ⟨cellsWf_foldl _ _ _ hs.1, rising_foldl _ _ _ hs.2.1, rising_foldl _ _ _ hs.2.2⟩

theorem memWf_writeUnits (f : Nat) (l : List (List Byte)) (m : Memory) (h : memWf m = true) :
    memWf (writeUnits f l m) = true := by
  induction l generalizing f m with
  | nil => exact h
  | cons u t ih => exact ih _ _ (memWf_memPut _ _ _ h)

theorem memWf_writeImage (m : Memory) (k : Nat) (old new : Line) (h : memWf m = true) : memWf (writeImage m k old new) = true := by
  unfold writeImage
  generalize (List.range 16) = l
  induction l generalizing m with
  | nil => exact h
  | cons i t ih =>
    simp only [List.foldl_cons]
    split
    · exact ih m h
    · exact ih _ (memWf_memWrite _ _ _ _ h)

/-! ### Reading a byte after a write -/

theorem byteAt_byteIns_self (k : Nat) (v : Byte) (c : List Host.Cell) : byteAt k (byteIns k v c) = v := by
  induction c with
  | nil => simp [byteIns, byteAt]
  | cons e t ih =>
    unfold byteIns
    split
    · simp [byteAt]
    · split
      · simp [byteAt]
      · rename_i h
        simp [byteAt, Ne.symm h, ih]

theorem byteAt_byteIns_ne (k j : Nat) (v : Byte) (c : List Host.Cell) (h : j ≠ k) : byteAt j (byteIns k v c) = byteAt j c := by
  induction c with
  | nil => simp [byteIns, byteAt, Ne.symm h]
  | cons e t ih =>
    unfold byteIns
    split
    · simp [byteAt, Ne.symm h]
    · split
      · rename_i hk
        simp [byteAt, Ne.symm h, ← hk]
      · simp [byteAt, ih]

theorem byteAt_byteDel_ne (k j : Nat) (c : List Host.Cell) (h : j ≠ k) : byteAt j (byteDel k c) = byteAt j c := by
  induction c with
  | nil => rfl
  | cons e t ih =>
    unfold byteDel
    split
    · rename_i hk
      simp [byteAt, hk, Ne.symm h]
    · simp [byteAt, ih]

/-- A write of one byte leaves every other byte alone. -/
theorem byteAt_bytePut_ne (k j : Nat) (v : Byte) (c : List Host.Cell) (h : j ≠ k) :
    byteAt j (bytePut k v c) = byteAt j c := by
  unfold bytePut
  split
  · exact byteAt_byteDel_ne k j c h
  · exact byteAt_byteIns_ne k j v c h

theorem byteAt_of_lt (k : Nat) (c : List Host.Cell) (h : ∀ e ∈ c, k < e.1) : byteAt k c = 0 := by
  induction c with
  | nil => rfl
  | cons e t ih =>
    have he := h e (List.mem_cons_self ..)
    have : e.1 ≠ k := by omega
    simp [byteAt, this, ih fun x hx => h x (List.mem_cons_of_mem _ hx)]

theorem byteAt_byteDel_self (k : Nat) (c : List Host.Cell) (h : c.Pairwise fun a b => a.1 < b.1) :
    byteAt k (byteDel k c) = 0 := by
  induction c with
  | nil => rfl
  | cons e t ih =>
    have ht := List.pairwise_cons.mp h
    unfold byteDel
    split
    · rename_i hk
      exact byteAt_of_lt k t fun x hx => hk ▸ ht.1 x hx
    · rename_i hk
      simp [byteAt, hk, ih ht.2]

/-- A byte written reads back, in memory in canonical form. -/
theorem byteAt_bytePut_self (k : Nat) (v : Byte) (c : List Host.Cell) (h : cellsWf c = true) :
    byteAt k (bytePut k v c) = v := by
  unfold bytePut
  split
  · rename_i hv
    rw [byteAt_byteDel_self k c ((cellsWf_iff c).mp h).1, hv]
  · exact byteAt_byteIns_self k v c

/-- A write of bytes leaves every byte outside them alone. -/
theorem byteAt_cellsPut_outside (bs : List Byte) (k j : Nat) (c : List Host.Cell) (h : j < k ∨ k + bs.length ≤ j) :
    byteAt j (cellsPut k bs c) = byteAt j c := by
  induction bs generalizing k c with
  | nil => rfl
  | cons b t ih =>
    simp only [List.length_cons] at h
    rw [cellsPut, ih (k + 1) _ (by omega), byteAt_bytePut_ne k j b c (by omega)]

theorem length_natLe (v n : Nat) : (natLe v n).length = n := by
  induction n generalizing v with
  | zero => rfl
  | succ n ih => simp [natLe, ih]

/-- A write of `n` bytes leaves every byte outside them alone. -/
theorem byteAt_memWrite_outside (m : Memory) (k n v j : Nat) (h : j < k ∨ k + n ≤ j) :
    byteAt j (memWrite m k n v).bytes = byteAt j m.bytes :=
  byteAt_cellsPut_outside (natLe v n) k j m.bytes (by rw [length_natLe]; exact h)

end Sys2Proof.Machine
end

