-- ==== Sys2Proof/Laws/Words.lean ====
section
/-! SUPPORT. Laws/Words.lean: values at a width as bit vectors: the reading and the extension of operands, and the forms of
the integer functions that proofs use. -/

namespace Sys2Proof.Machine

/-- U(v, n) is the unsigned reading of the low n bits. -/
theorem uval_eq (v : Word) (n : Nat) : uval v n = (v.setWidth n).toNat := by
  simp [uval]

/-- The signed reading of an n-bit number. -/
theorem signed_eq {n : Nat} (x : BitVec n) : signed x.toNat n = x.toInt := by
  simp [signed, BitVec.toInt_eq_toNat_cond]

/-- S(v, n) is the signed reading of the low n bits. -/
theorem sval_eq (v : Word) (n : Nat) : sval v n = (v.setWidth n).toInt := by
  rw [sval, uval_eq, signed_eq]

/-- An integer reduced modulo 2^n. -/
theorem wrapTo_eq (v : Int) (n : Nat) : wrapTo v n = (BitVec.ofInt n v).toNat := by
  simp [wrapTo, BitVec.toNat_ofInt]

/-- ext(v, n, s). -/
theorem extS_eq (v : Int) (n : Nat) : extS v n = (BitVec.ofInt n v).signExtend 64 := by
  rw [extS, wrapTo_eq, signed_eq]
  rfl

/-- ext(v, n, z). -/
theorem extZ_eq (v : Int) (n : Nat) : extZ v n = (BitVec.ofInt n v).setWidth 64 := by
  rw [extZ, wrapTo_eq]
  exact BitVec.ofNat_toNat 64 _

/-- A width is 8, 16, 32 or 64. -/
theorem widthBits_cases (w : BitVec 2) : widthBits w = 64 ∨ widthBits w = 32 ∨ widthBits w = 16 ∨ widthBits w = 8 := by
  revert w
  decide

/-- The bits of every width. -/
theorem widthBits_pos (w : BitVec 2) : 0 < widthBits w := by
  rcases widthBits_cases w with h | h | h | h <;> omega

theorem widthBits_le (w : BitVec 2) : widthBits w ≤ 64 := by
  rcases widthBits_cases w with h | h | h | h <;> omega

/-- A value within the signed range of n ≤ 64 bits is not changed by its extension. -/
theorem extS_of_range {v : Int} {n : Nat} (h0 : 0 < n) (hl : -(2 : Int) ^ (n - 1) ≤ v) (hu : v < (2 : Int) ^ (n - 1)) :
    extS v n = BitVec.ofInt 64 v := by
  rw [extS_eq, BitVec.signExtend, BitVec.toInt_ofInt_eq_self h0 hl hu]

/-- A value within the unsigned range of n bits is not changed by its extension. -/
theorem extZ_of_range {v : Int} {n : Nat} (hl : 0 ≤ v) (hu : v < (2 : Int) ^ n) : extZ v n = BitVec.ofInt 64 v := by
  have h : wrapTo v n = v.toNat := by
    have : v % ((2 ^ n : Nat) : Int) = v := Int.emod_eq_of_lt hl (by push_cast; exact hu)
    rw [wrapTo, this]
  rw [extZ, h]
  conv_rhs => rw [← Int.toNat_of_nonneg hl]
  rfl

/-- Saturation to the signed range. -/
theorem satS_eq (v : Int) (n : Nat) : satS v n = max (-(2 : Int) ^ (n - 1)) (min ((2 : Int) ^ (n - 1) - 1) v) := by
  have : (0 : Int) < (2 : Int) ^ (n - 1) := by positivity
  unfold satS clampInt
  push_cast
  split
  · omega
  · split <;> omega

/-- Saturation to the unsigned range. -/
theorem satU_eq (v : Int) (n : Nat) : satU v n = max 0 (min ((2 : Int) ^ n - 1) v) := by
  have : (0 : Int) < (2 : Int) ^ n := by positivity
  unfold satU clampInt
  push_cast
  split
  · omega
  · split <;> omega

/-- RULE 1. -/
theorem reduce_one (n : Nat) (h : 0 < n) (v : Int) :
    reduce 1 n v = BitVec.ofInt 64 (max (-(2 : Int) ^ (n - 1)) (min ((2 : Int) ^ (n - 1) - 1) v)) := by
  have hp : (0 : Int) < (2 : Int) ^ (n - 1) := by positivity
  show extS (satS v n) n = _
  rw [extS_of_range h, satS_eq]
  · rw [satS_eq]; omega
  · rw [satS_eq]; omega

/-- RULE 2. -/
theorem reduce_two (n : Nat) (v : Int) : reduce 2 n v = BitVec.ofInt 64 (max 0 (min ((2 : Int) ^ n - 1) v)) := by
  have hp : (0 : Int) < (2 : Int) ^ n := by positivity
  show extZ (satU v n) n = _
  rw [extZ_of_range, satU_eq]
  · rw [satU_eq]; omega
  · rw [satU_eq]; omega

/-- RULE 0. -/
theorem reduce_zero (n : Nat) (v : Int) : reduce 0 n v = (BitVec.ofInt n v).signExtend 64 := extS_eq v n

end Sys2Proof.Machine
end

