-- ==== Sys2Proof/Tests/Slice0.lean ====
section
/-! SUPPORT. Tests/Slice0.lean: the model against the spec's own tables and worked examples: ill-formed terms, words written out bit
by bit, results of one instruction each, litmus outcomes, and for every obligation a state that meets its hypotheses. -/

section

set_option Elab.async false

namespace Sys2Proof.Tests

open Sys2Proof.Machine

/-! ### Small states -/

/-- A line with these registers: number, value, format tag. -/
def regs (vs : List (Reg × Word × Byte)) : Line := vs.foldl (fun l v => setG l v.1 v.2.1 v.2.2) Line.zero

/-- That line in slot 0 of core 0. -/
def live (l : Line) : LiveLine := LiveLine.new 0 0x10000 (.slot 0 0) l

/-- The module after boot with that line issuing. -/
def bare (l : Line) : State :=
  { State.reset with thr := some (live l), accepted := 0x3F, host := { State.reset.host with phase := 1 }, tape := List.replicate 64 1 }

/-- A tenant with a code page, two data pages, an unmapped page, and a context page. -/
def tenantA : Tenant :=
  { Tenant.zero with live := true, ptab := [(0, 0x17), (1, 0x1002F), (2, 0x2000F), (3, 0x30007), (4, 0x4002F)] }

/-- The same module with that tenant, and two words of data at 0x20000 and 0x20010. -/
def busy (l : Line) : State :=
  { bare l with
    tenants := [(0, tenantA)]
    memory := memWrite (memWrite Memory.zero 0x20000 8 0x1122334455667788) 0x20010 8 0xFFFFFFFF80000001 }

/-- The issuing line after an instruction. -/
def after (i : Instr) (s : State) : Option LiveLine :=
  match exec i s with
  | .next s' => s'.thr
  | _ => none

/-- Register `r` with its tag, and the trap code, after an instruction on `busy l`. -/
def gives (i : Instr) (l : Line) (r : Reg) (v : Word) (tag : Byte) : Bool :=
  match after i (busy l) with
  | some t => getG t.line r == v && getTag t.line r == tag && t.line.fcode == 0 && t.line.pc == 4
  | none => false

/-- Predicate field `r` after an instruction. -/
def sets (i : Instr) (l : Line) (r : Reg) (v : Byte) : Bool :=
  match after i (busy l) with
  | some t => getQ t.line r == v && t.line.fcode == 0
  | none => false

/-- The trap that an instruction takes. -/
def trapsWith (i : Instr) (s : State) (code : Byte) (tdata : BitVec 48) : Bool :=
  match after i s with
  | some t => t.line.wait == 0xA000000000000000 && t.line.fcode == code && t.line.tdata == tdata
  | none => false

/-- The tag with which the issuing line waits after an instruction. -/
def waitsWith (i : Instr) (s : State) (tag : Word) : Bool :=
  match after i s with
  | some t => t.line.wait == tag
  | none => false

/-- Every term of a list is refused. -/
def refused (l : List Instr) : Bool := l.all fun i => !i.wf

/-! ### Ill-formed terms: one for each check of WellFormed.lean -/

theorem test_guard_of_no_field_is_refused :
    refused [.add 8 1 2 3 0 0, .movi 8 1 0, .br 8 0, .ld 8 1 2 0 0 0 0, .lw 8 1 2 0 0 0 0 0, .nop 8, .csrr 8 1 0, .fence 8 1 1] = true := by
  decide +kernel

theorem test_rule_is_refused :
    refused [.add 0 1 2 3 0 3, .sub 0 1 2 3 0 3, .shl 0 1 2 3 0 3, .mul 0 1 2 3 0 3, .neg 0 1 2 0 2, .abs 0 1 2 0 3] = true := by
  decide +kernel

theorem test_width_is_refused :
    refused [.sext 0 1 2 0, .vadd 0 1 2 3 0, .vmul 0 1 2 3 0 1, .vsel 0 1 2 3 0 1, .vshuf 0 1 2 3 0, .vpack 0 1 2 3 3 0,
      .vpack 0 1 2 3 0 0, .vunpk 0 1 2 0 0, .vdot 0 1 2 3 0 0, .vsum 0 1 2 0 0, .cmp 0 1 2 3 0 0 1] = true := by
  decide +kernel

theorem test_shift_amount_is_refused :
    refused [.shli 0 1 2 1 32, .shri 0 1 2 2 16, .sari 0 1 2 3 8, .roli 0 1 2 3 63] = true := by decide +kernel

theorem test_position_is_refused :
    refused [.movh 0 1 4 0, .bext 0 1 2 1 63, .bextb 0 1 2 63 1, .bins 0 1 2 32 32] = true := by decide +kernel

theorem test_condition_is_refused :
    refused [.cmp 0 1 2 3 12 0 0, .cmpi 0 1 2 12 0, .fcmp 0 1 2 3 1 8 0] = true := by decide +kernel

theorem test_lanes_of_f64_are_refused :
    refused [.fadd 0 1 2 3 0 1, .fsqrt 0 1 2 0 1, .fma 0 1 2 3 0 1, .fcmp 0 1 2 3 0 0 1, .fround 0 1 2 0 1] = true := by
  decide +kernel

theorem test_conversion_is_refused :
    refused [.fcvt 0 1 2 0 3 3, .fcvt 0 1 2 1 0 1, .fcvt 0 1 2 1 2 1, .fcvt 0 1 2 2 1 6] = true := by decide +kernel

theorem test_register_overlap_is_refused :
    refused [.rmov 0 1 1 2 0, .rfill 0 1 2 1 0, .rcmp 0 1 2 2 0, .cwm 0 1 2 1 0 0 0 0 0, .sld 0 3 2 3 0 0 0 0 0,
      .swpq 0 5 2 5 0 0 0 0 0] = true := by decide +kernel

theorem test_order_and_scope_are_refused :
    refused [.amoAdd 0 1 2 3 0 1 0, .amoCas 0 1 2 3 0 0 2, .fence 0 0 1, .fence 0 1 0, .lswap 0 1 0 3 0 0 0, .cpy 0 1 2 0 0 1 0 0,
      .tadd 0 1 2 1 3 0 0 2] = true := by decide +kernel

theorem test_other_reserved_codes_are_refused :
    refused [.spawn 0 1 2 3 0 3, .tinfo 0 1 2 3 0, .csrr 0 1 0x1C, .csrw 0 1 0x010, .csrw 0 1 0x024, .hmod 0 0 5 0 0] = true := by
  decide +kernel

/-! ### Words written out bit by bit from the spec's encodings, one for every row of the opcode table that has one -/

/-- The word reads as the instruction, the instruction encodes as the word, and it is well formed. -/
def reads (w : Nat) (i : Instr) : Bool :=
  i.wf && encodeNat i == some w && (match decodeNat w with
    | .ok j => j == i
    | .error _ => false)


theorem test_words_major_00 : ∀ p ∈ ([
    (0b000000_0011_101_110_111_00000_01_0000_01, .add 3 5 6 7 1 1),
    (0b000000_0011_101_110_111_00001_01_0000_01, .sub 3 5 6 7 1 1),
    (0b000000_0011_101_110_111_00010_01_000000, .and 3 5 6 7 1),
    (0b000000_0011_101_110_111_00011_01_000000, .or 3 5 6 7 1),
    (0b000000_0011_101_110_111_00100_01_000000, .xor 3 5 6 7 1),
    (0b000000_0011_101_110_111_00101_01_000000, .andn 3 5 6 7 1),
    (0b000000_0011_101_110_111_00110_01_000000, .orn 3 5 6 7 1),
    (0b000000_0011_101_110_111_00111_01_000000, .xnor 3 5 6 7 1),
    (0b000000_0011_101_110_111_01000_01_0000_01, .shl 3 5 6 7 1 1),
    (0b000000_0011_101_110_111_01001_01_000000, .shr 3 5 6 7 1),
    (0b000000_0011_101_110_111_01010_01_000000, .sar 3 5 6 7 1),
    (0b000000_0011_101_110_111_01011_01_000000, .rol 3 5 6 7 1),
    (0b000000_0011_101_110_111_01100_01_000000, .ror 3 5 6 7 1),
    (0b000000_0011_101_110_111_01101_01_000000, .min 3 5 6 7 1),
    (0b000000_0011_101_110_111_01110_01_000000, .max 3 5 6 7 1),
    (0b000000_0011_101_110_111_01111_01_000000, .minb 3 5 6 7 1),
    (0b000000_0011_101_110_111_10000_01_000000, .maxb 3 5 6 7 1),
    (0b000000_0011_101_110_111_10001_01_0000_01, .mul 3 5 6 7 1 1),
    (0b000000_0011_101_110_111_10010_01_000000, .mulh 3 5 6 7 1),
    (0b000000_0011_101_110_111_10011_01_000000, .mulhb 3 5 6 7 1),
    (0b000000_0011_101_110_111_10100_01_000000, .div 3 5 6 7 1),
    (0b000000_0011_101_110_111_10101_01_000000, .divb 3 5 6 7 1),
    (0b000000_0011_101_110_111_10110_01_000000, .rem 3 5 6 7 1),
    (0b000000_0011_101_110_00010111_01_0000_01, .neg 3 5 6 1 1),
    (0b000000_0011_101_110_111_11000_01_000000, .remb 3 5 6 7 1),
    (0b000000_0011_101_110_00011001_11_000000, .clz 3 5 6 3),
    (0b000000_0011_101_110_00011010_01_000000, .ctz 3 5 6 1),
    (0b000000_0011_101_110_00011011_01_000000, .popc 3 5 6 1),
    (0b000000_0011_101_110_00011100_01_000000, .bswap 3 5 6 1),
    (0b000000_0011_101_110_0001110100000000, .mov 3 5 6),
    (0b000000_0011_101_110_00011110_01_0000_01, .abs 3 5 6 1 1),
    (0b000000_0011_101_110_00011111_01_000000, .sext 3 5 6 1)] : List (Nat × Instr)), reads p.1 p.2 = true := by decide +kernel

theorem test_words_major_01 : ∀ p ∈ ([
    (0b000001_0011_101_110_1000000100100011, .addi 3 5 6 0x8123)] : List (Nat × Instr)), reads p.1 p.2 = true := by decide +kernel

theorem test_words_major_02 : ∀ p ∈ ([
    (0b000010_0011_101_110_1000000100100011, .andi 3 5 6 0x8123)] : List (Nat × Instr)), reads p.1 p.2 = true := by decide +kernel

theorem test_words_major_03 : ∀ p ∈ ([
    (0b000011_0011_101_110_1000000100100011, .ori 3 5 6 0x8123)] : List (Nat × Instr)), reads p.1 p.2 = true := by decide +kernel

theorem test_words_major_04 : ∀ p ∈ ([
    (0b000100_0011_101_110_1000000100100011, .xori 3 5 6 0x8123)] : List (Nat × Instr)), reads p.1 p.2 = true := by decide +kernel

theorem test_words_major_05 : ∀ p ∈ ([
    (0b000101_0011_101_110_00_01_000000_001101, .shli 3 5 6 1 13),
    (0b000101_0011_101_110_01_01_000000_001101, .shri 3 5 6 1 13),
    (0b000101_0011_101_110_10_01_000000_001101, .sari 3 5 6 1 13),
    (0b000101_0011_101_110_11_01_000000_001101, .roli 3 5 6 1 13)] : List (Nat × Instr)), reads p.1 p.2 = true := by decide +kernel

theorem test_words_major_06 : ∀ p ∈ ([
    (0b000110_0011_101_000_1000000100100011, .movi 3 5 0x8123)] : List (Nat × Instr)), reads p.1 p.2 = true := by decide +kernel

theorem test_words_major_07 : ∀ p ∈ ([
    (0b000111_0011_101_011_1000000100100011, .movh 3 5 3 0x8123)] : List (Nat × Instr)), reads p.1 p.2 = true := by decide +kernel

theorem test_words_major_08 : ∀ p ∈ ([
    (0b001000_0011_101_110_111_01001_01_00000_1, .cmp 3 5 6 7 9 1 1)] : List (Nat × Instr)), reads p.1 p.2 = true := by decide +kernel

theorem test_words_major_09 : ∀ p ∈ ([
    (0b001001_0011_101_110_0111_100000000001, .cmpi 3 5 6 7 0x801)] : List (Nat × Instr)), reads p.1 p.2 = true := by decide +kernel

theorem test_words_major_0A : ∀ p ∈ ([
    (0b001010_0011_101_110_111_0000000000000, .qand 3 5 6 7),
    (0b001010_0011_101_110_111_0000100000000, .qor 3 5 6 7),
    (0b001010_0011_101_110_111_0001000000000, .qxor 3 5 6 7),
    (0b001010_0011_101_110_0000001100000000, .qnot 3 5 6),
    (0b001010_0011_101_110_0000010000000000, .qmov 3 5 6),
    (0b001010_0011_101_00000000101_10100101, .qset 3 5 165),
    (0b001010_0011_101_110_00000110_01_000000, .qany 3 5 6 1),
    (0b001010_0011_101_110_00000111_01_000000, .qall 3 5 6 1),
    (0b001010_0011_101_00000001000_10100101, .qtog 3 5 165),
    (0b001010_0011_101_110_0000100100000000, .gtoq 3 5 6)] : List (Nat × Instr)), reads p.1 p.2 = true := by decide +kernel

theorem test_words_major_0B : ∀ p ∈ ([
    (0b001011_0011_101_110_111_00000_01_000000, .vadd 3 5 6 7 1),
    (0b001011_0011_101_110_111_00001_01_000000, .vsub 3 5 6 7 1),
    (0b001011_0011_101_110_111_00010_01_00000_1, .vadds 3 5 6 7 1 1),
    (0b001011_0011_101_110_111_00011_01_00000_1, .vsubs 3 5 6 7 1 1),
    (0b001011_0011_101_110_111_00100_01_00000_1, .vmul 3 5 6 7 1 1),
    (0b001011_0011_101_110_111_00101_01_00000_1, .vmin 3 5 6 7 1 1),
    (0b001011_0011_101_110_111_00110_01_00000_1, .vmax 3 5 6 7 1 1),
    (0b001011_0011_101_110_111_00111_01_00000_1, .vavg 3 5 6 7 1 1),
    (0b001011_0011_101_110_111_01000_01_000000, .vshl 3 5 6 7 1),
    (0b001011_0011_101_110_111_01001_01_000000, .vshr 3 5 6 7 1),
    (0b001011_0011_101_110_111_01010_01_000000, .vsar 3 5 6 7 1),
    (0b001011_0011_101_110_111_01011_01_0_100_00, .vsel 3 5 6 7 1 4),
    (0b001011_0011_101_110_111_01100_01_000000, .vshuf 3 5 6 7 1),
    (0b001011_0011_101_110_111_01101_10_00000_1, .vpack 3 5 6 7 2 1),
    (0b001011_0011_101_110_00001110_10_0000_1_0, .vunpk 3 5 6 2 1),
    (0b001011_0011_101_110_111_01111_01_00000_1, .vdot 3 5 6 7 1 1),
    (0b001011_0011_101_110_00010000_01_00000_1, .vsum 3 5 6 1 1)] : List (Nat × Instr)), reads p.1 p.2 = true := by decide +kernel

theorem test_words_major_0C : ∀ p ∈ ([
    (0b001100_0011_101_110_111_00000_01_00000_1, .fadd 3 5 6 7 1 1),
    (0b001100_0011_101_110_111_00001_01_00000_1, .fsub 3 5 6 7 1 1),
    (0b001100_0011_101_110_111_00010_01_00000_1, .fmul 3 5 6 7 1 1),
    (0b001100_0011_101_110_111_00011_01_00000_1, .fdiv 3 5 6 7 1 1),
    (0b001100_0011_101_110_00000100_01_00000_1, .fsqrt 3 5 6 1 1),
    (0b001100_0011_101_110_111_00101_01_00000_1, .fmin 3 5 6 7 1 1),
    (0b001100_0011_101_110_111_00110_01_00000_1, .fmax 3 5 6 7 1 1),
    (0b001100_0011_101_110_111_00111_01_00000_1, .fma 3 5 6 7 1 1),
    (0b001100_0011_101_110_111_01000_01_0_0111_1, .fcmp 3 5 6 7 1 7 1)] : List (Nat × Instr)), reads p.1 p.2 = true := by decide +kernel

theorem test_words_major_0D : ∀ p ∈ ([
    (0b001101_0011_101_110_00000000_00_100_001, .fcvt 3 5 6 0 4 1),
    (0b001101_0011_101_110_00000001_01_00000_1, .fround 3 5 6 1 1)] : List (Nat × Instr)), reads p.1 p.2 = true := by decide +kernel

theorem test_words_major_0E : ∀ p ∈ ([
    (0b001110_0011_101_110_0000_010010_011110, .bext 3 5 6 18 30),
    (0b001110_0011_101_110_0100_010010_011110, .bextb 3 5 6 18 30),
    (0b001110_0011_101_110_1000_010010_011110, .bins 3 5 6 18 30)] : List (Nat × Instr)), reads p.1 p.2 = true := by decide +kernel

theorem test_words_major_10 : ∀ p ∈ ([
    (0b010000_0011_0101010101010101010101, .br 3 0x155555)] : List (Nat × Instr)), reads p.1 p.2 = true := by decide +kernel

theorem test_words_major_11 : ∀ p ∈ ([
    (0b010001_0011_0101010101010101010101, .call 3 0x155555)] : List (Nat × Instr)), reads p.1 p.2 = true := by decide +kernel

theorem test_words_major_12 : ∀ p ∈ ([
    (0b010010_0011_000_110_0000000000000000, .jr 3 6),
    (0b010010_0011_000_110_0000000100000000, .ret 3 6),
    (0b010010_0011_000_110_0000001000000000, .callr 3 6)] : List (Nat × Instr)), reads p.1 p.2 = true := by decide +kernel

theorem test_words_major_13 : ∀ p ∈ ([
    (0b010011_0011_101_000_1000000000000011, .loop 3 5 0x8003)] : List (Nat × Instr)), reads p.1 p.2 = true := by decide +kernel

theorem test_words_major_14 : ∀ p ∈ ([
    (0b010100_0011_101_110_111_0000000_1001_01, .spawn 3 5 6 7 9 1)] : List (Nat × Instr)), reads p.1 p.2 = true := by decide +kernel

theorem test_words_major_15 : ∀ p ∈ ([
    (0b010101_0011_000_110_0000000000000000, .join 3 6),
    (0b010101_0011_0000000000000100000000, .yield 3),
    (0b010101_0011_0000000000001000000000, .exit 3),
    (0b010101_0011_000_110_0000001000000001, .exitCounter 3 6),
    (0b010101_0011_000_110_0000001100000000, .go 3 6),
    (0b010101_0011_000_110_0000010000000000, .goc 3 6),
    (0b010101_0011_101_0000000010100000000, .self 3 5),
    (0b010101_0011_101_110_0000011000000000, .cancel 3 5 6)] : List (Nat × Instr)), reads p.1 p.2 = true := by decide +kernel

theorem test_words_major_16 : ∀ p ∈ ([
    (0b010110_0011_101_110_111_00000_01_0000_10, .waitne 3 5 6 7 1 2),
    (0b010110_0011_101_110_111_00001_01_0000_10, .waiteq 3 5 6 7 1 2)] : List (Nat × Instr)), reads p.1 p.2 = true := by decide +kernel

theorem test_words_major_18 : ∀ p ∈ ([
    (0b011000_0011_101_110_101_10_1011_1010101, .ld 3 5 6 5 2 11 85)] : List (Nat × Instr)), reads p.1 p.2 = true := by decide +kernel

theorem test_words_major_19 : ∀ p ∈ ([
    (0b011001_0011_101_110_101_10_1011_1010101, .st 3 5 6 5 2 11 85)] : List (Nat × Instr)), reads p.1 p.2 = true := by decide +kernel

theorem test_words_major_1A : ∀ p ∈ ([
    (0b011010_0011_101_110_1100_101_10_1011_101, .ldx 3 5 6 12 5 2 11 5)] : List (Nat × Instr)), reads p.1 p.2 = true := by decide +kernel

theorem test_words_major_1B : ∀ p ∈ ([
    (0b011011_0011_101_110_1100_101_10_1011_101, .stx 3 5 6 12 5 2 11 5)] : List (Nat × Instr)), reads p.1 p.2 = true := by decide +kernel

theorem test_words_major_1C : ∀ p ∈ ([
    (0b011100_0011_101_110_0000_101_10_0000_101, .ldfe 3 5 6 5 2 5),
    (0b011100_0011_101_110_0001_101_10_0000_101, .ldff 3 5 6 5 2 5)] : List (Nat × Instr)), reads p.1 p.2 = true := by decide +kernel

theorem test_words_major_1D : ∀ p ∈ ([
    (0b011101_0011_101_110_0000_101_10_0000_101, .stf 3 5 6 5 2 5),
    (0b011101_0011_101_110_0001_101_10_1011_101, .ste 3 5 6 5 2 11 5)] : List (Nat × Instr)), reads p.1 p.2 = true := by decide +kernel

theorem test_words_major_1E : ∀ p ∈ ([
    (0b011110_0011_101_110_111_000000_1_00_10_10, .amoAdd 3 5 6 7 1 2 2),
    (0b011110_0011_101_110_111_000010_1_00_10_10, .amoAnd 3 5 6 7 1 2 2),
    (0b011110_0011_101_110_111_000100_1_00_10_10, .amoOr 3 5 6 7 1 2 2),
    (0b011110_0011_101_110_111_000110_1_00_10_10, .amoXor 3 5 6 7 1 2 2),
    (0b011110_0011_101_110_111_001000_1_00_10_10, .amoMin 3 5 6 7 1 2 2),
    (0b011110_0011_101_110_111_001010_1_00_10_10, .amoMax 3 5 6 7 1 2 2),
    (0b011110_0011_101_110_111_001100_1_00_10_10, .amoMinb 3 5 6 7 1 2 2),
    (0b011110_0011_101_110_111_001110_1_00_10_10, .amoMaxb 3 5 6 7 1 2 2),
    (0b011110_0011_101_110_111_010000_1_00_10_10, .amoSwap 3 5 6 7 1 2 2),
    (0b011110_0011_101_110_111_010010_1_00_10_10, .amoCas 3 5 6 7 1 2 2),
    (0b011110_0011_101_110_111_010100_1_00_10_10, .amoFadd 3 5 6 7 1 2 2)] : List (Nat × Instr)), reads p.1 p.2 = true := by decide +kernel

theorem test_words_major_1F : ∀ p ∈ ([
    (0b011111_0011_000000000000000000_01_10, .fence 3 1 2)] : List (Nat × Instr)), reads p.1 p.2 = true := by decide +kernel

theorem test_words_major_20 : ∀ p ∈ ([
    (0b100000_0011_101_110_00000000_01_0000_10, .tkld 3 5 6 1 2),
    (0b100000_0011_101_110_111_0000100000_010, .tkred 3 5 6 7 2),
    (0b100000_0011_101_110_0000001000000000, .tkdrop 3 5 6),
    (0b100000_0011_101_110_0000001100000000, .tkstat 3 5 6)] : List (Nat × Instr)), reads p.1 p.2 = true := by decide +kernel

theorem test_words_major_21 : ∀ p ∈ ([
    (0b100001_0011_000_110_111_00000000000_10, .mpost 3 6 7 2),
    (0b100001_0011_000_110_111_0000100000000, .mexp 3 6 7),
    (0b100001_0011_000_110_111_00010000000_10, .mwait 3 6 7 2),
    (0b100001_0011_101_110_00000011000000_10, .mread 3 5 6 2)] : List (Nat × Instr)), reads p.1 p.2 = true := by decide +kernel

theorem test_words_major_22 : ∀ p ∈ ([
    (0b100010_0011_000_110_111_00000000000_10, .enq 3 6 7 2),
    (0b100010_0011_101_110_010_00001000000_10, .deq 3 5 6 2 2),
    (0b100010_0011_101_110_0000001000000000, .qlen 3 5 6),
    (0b100010_0011_101_110_111_0001100000000, .qmake 3 5 6 7),
    (0b100010_0011_000_110_0000001100000001, .qfree 3 6)] : List (Nat × Instr)), reads p.1 p.2 = true := by decide +kernel

theorem test_words_major_23 : ∀ p ∈ ([
    (0b100011_0011_101_110_111_00000_01_000000, .rmov 3 5 6 7 1),
    (0b100011_0011_101_110_111_00001_01_000000, .rfill 3 5 6 7 1),
    (0b100011_0011_101_110_111_00010_01_000000, .rcmp 3 5 6 7 1)] : List (Nat × Instr)), reads p.1 p.2 = true := by decide +kernel

theorem test_words_major_24 : ∀ p ∈ ([
    (0b100100_0011_101_110_0000000_1_1001_0_1_10, .lw 3 5 6 1 9 0 1 2),
    (0b100100_0011_101_0000000001_1_1001_0_1_10, .lswap 3 5 1 9 0 1 2),
    (0b100100_0011_101_110_0000010_1_1001_0_1_10, .lstream 3 5 6 1 9 0 1 2),
    (0b100100_0011_101_0000000011_1_1001_0_1_10, .ldrain 3 5 1 9 0 1 2),
    (0b100100_0011_101_110_0000100_1_1001_0_1_10, .lcfg 3 5 6 1 9 0 1 2),
    (0b100100_0011_101_110_111_0101000000000, .lrem 3 5 6 7)] : List (Nat × Instr)), reads p.1 p.2 = true := by decide +kernel

theorem test_words_major_25 : ∀ p ∈ ([
    (0b100101_0011_101_110_0000000_1_1001_0_1_10, .tadd 3 5 6 1 9 0 1 2),
    (0b100101_0011_101_110_0000001_1_1001_0_1_10, .tmul 3 5 6 1 9 0 1 2),
    (0b100101_0011_101_110_0000010_1_1001_0_1_10, .tfma 3 5 6 1 9 0 1 2),
    (0b100101_0011_101_110_0000011_1_1001_0_1_10, .tmax 3 5 6 1 9 0 1 2),
    (0b100101_0011_101_110_0000100_1_1001_0_1_10, .tmin 3 5 6 1 9 0 1 2),
    (0b100101_0011_101_110_0000101_1_1001_0_1_10, .texp2 3 5 6 1 9 0 1 2),
    (0b100101_0011_101_110_0000110_1_1001_0_1_10, .trcp 3 5 6 1 9 0 1 2),
    (0b100101_0011_101_110_0000111_1_1001_0_1_10, .trsqrt 3 5 6 1 9 0 1 2),
    (0b100101_0011_101_110_0001000_1_1001_0_1_10, .tcvt 3 5 6 1 9 0 1 2),
    (0b100101_0011_101_110_111_1001_1_1001_0_1_10, .tred 3 5 6 7 1 9 0 1 2),
    (0b100101_0011_101_110_0001010_1_1001_0_1_10, .tsel 3 5 6 1 9 0 1 2),
    (0b100101_0011_101_110_0001011_1_1001_0_1_10, .ttrn 3 5 6 1 9 0 1 2)] : List (Nat × Instr)), reads p.1 p.2 = true := by decide +kernel

theorem test_words_major_26 : ∀ p ∈ ([
    (0b100110_0011_101_110_0000000_1_1001_0_1_10, .cpy 3 5 6 1 9 0 1 2),
    (0b100110_0011_101_110_0000001_1_1001_0_1_10, .cpyd 3 5 6 1 9 0 1 2),
    (0b100110_0011_101_110_111_0010_1_1001_0_1_10, .cwm 3 5 6 7 1 9 0 1 2),
    (0b100110_0011_101_110_0000011_1_1001_0_1_10, .chan 3 5 6 1 9 0 1 2)] : List (Nat × Instr)), reads p.1 p.2 = true := by decide +kernel

theorem test_words_major_27 : ∀ p ∈ ([
    (0b100111_0011_101_110_111_0000_1_1001_0_1_10, .scmc 3 5 6 7 1 9 0 1 2),
    (0b100111_0011_101_110_111_0001_1_1001_0_1_10, .sld 3 5 6 7 1 9 0 1 2)] : List (Nat × Instr)), reads p.1 p.2 = true := by decide +kernel

theorem test_words_major_28 : ∀ p ∈ ([
    (0b101000_0011_101_110_0000000000000000, .gslot 3 5 6),
    (0b101000_0011_101_110_111_0000100000000, .gset 3 5 6 7),
    (0b101000_0011_000_110_0000001000000000, .gfree 3 6)] : List (Nat × Instr)), reads p.1 p.2 = true := by decide +kernel

theorem test_words_major_29 : ∀ p ∈ ([
    (0b101001_0011_000_110_0000000000000000, .jwait 3 6),
    (0b101001_0011_101_110_0000000100000000, .jtest 3 5 6),
    (0b101001_0011_101_110_0000001000000000, .jstat 3 5 6)] : List (Nat × Instr)), reads p.1 p.2 = true := by decide +kernel

theorem test_words_major_2A : ∀ p ∈ ([
    (0b101010_0011_101_110_111_0000000000000, .talloc 3 5 6 7),
    (0b101010_0011_000_110_0000000100000000, .tfree 3 6),
    (0b101010_0011_101_110_111_0001000000000, .tdesc 3 5 6 7),
    (0b101010_0011_101_110_111_000110000000_1, .tinfo 3 5 6 7 1)] : List (Nat × Instr)), reads p.1 p.2 = true := by decide +kernel

theorem test_words_major_2B : ∀ p ∈ ([
    (0b101011_0011_101_110_0000000_1_1001_0_1_10, .swpin 3 5 6 1 9 0 1 2),
    (0b101011_0011_101_110_0000001_1_1001_0_1_10, .swpout 3 5 6 1 9 0 1 2),
    (0b101011_0011_101_110_111_0010_1_1001_0_1_10, .swpq 3 5 6 7 1 9 0 1 2)] : List (Nat × Instr)), reads p.1 p.2 = true := by decide +kernel

theorem test_words_major_2C : ∀ p ∈ ([
    (0b101100_0011_101_110_0000000000000000, .capmint 3 5 6),
    (0b101100_0011_0000000000000100000000, .caprev 3)] : List (Nat × Instr)), reads p.1 p.2 = true := by decide +kernel

theorem test_words_major_2D : ∀ p ∈ ([
    (0b101101_0011_0000000000000000000000, .fin 3)] : List (Nat × Instr)), reads p.1 p.2 = true := by decide +kernel

theorem test_words_major_30 : ∀ p ∈ ([
    (0b110000_0011_000000_1000000100100011, .trap 3 0x8123)] : List (Nat × Instr)), reads p.1 p.2 = true := by decide +kernel

theorem test_words_major_31 : ∀ p ∈ ([
    (0b110001_0011_101_000_0000000000100001, .csrr 3 5 33)] : List (Nat × Instr)), reads p.1 p.2 = true := by decide +kernel

theorem test_words_major_32 : ∀ p ∈ ([
    (0b110010_0011_000_110_0000000000001001, .csrw 3 6 9)] : List (Nat × Instr)), reads p.1 p.2 = true := by decide +kernel

theorem test_words_major_33 : ∀ p ∈ ([
    (0b110011_0011_000_110_0000000000000_101, .rft 3 6 5)] : List (Nat × Instr)), reads p.1 p.2 = true := by decide +kernel

theorem test_words_major_34 : ∀ p ∈ ([
    (0b110100_0011_0000000000000000000001, .cevictSelf 3),
    (0b110100_0011_000_110_0000000000000000, .cevict 3 6),
    (0b110100_0011_101_110_0000000100000000, .cclaim 3 5 6),
    (0b110100_0011_000_110_111_0001000000000, .cpark 3 6 7)] : List (Nat × Instr)), reads p.1 p.2 = true := by decide +kernel

theorem test_words_major_35 : ∀ p ∈ ([
    (0b110101_0011_000_110_0000000000000000, .transit 3 6),
    (0b110101_0011_000_110_111_0000100000000, .tlbinv 3 6 7),
    (0b110101_0011_101_110_111_0001000000000, .gsw 3 5 6 7)] : List (Nat × Instr)), reads p.1 p.2 = true := by decide +kernel

theorem test_words_major_36 : ∀ p ∈ ([
    (0b110110_0011_0000000000000000000000, .nop 3),
    (0b110110_0011_000_110_111_0000100000000, .halt 3 6 7),
    (0b110110_0011_000_110_0000001000000000, .seal 3 6)] : List (Nat × Instr)), reads p.1 p.2 = true := by decide +kernel

theorem test_words_major_3F : ∀ p ∈ ([
    (0b11111100_011001111000100110101011, .hext 0x6789ab),
    (0b11111101_100100010010001101000101, .hsched 0x912345),
    (0b1111111000000000000000_0101_1_100_1_0, .hmod 5 1 4 1 0)] : List (Nat × Instr)), reads p.1 p.2 = true := by decide +kernel

/-- Words that are no instruction: the first test of R68 that applies decides. -/
theorem test_reserved_words :
    ([(0x3C194000, .emulation), (0x3E194000, .emulation), (0x02000000, .illegal), (0x34210206, .emulation), (0x36210206, .illegal),
      (0xFF000000, .illegal), (0x00194083, .illegal), (0xFE000014, .illegal)] : List (Nat × Reject)).all
        (fun p => match decodeNat p.1 with
          | .ok _ => false
          | .error e => e == p.2) = true := by decide +kernel

/-- The four bytes of a word, laid out as memory holds them, reach the decoder. -/
theorem test_decode_table_word : decodeTableWord 32 0x00194081 = some (.add 0 3 1 2 2 1) := by decide +kernel

/-! ### Results: the spec's worked examples and its tables -/

/-- One addition under three rules (R100). -/
theorem test_add_under_three_rules :
    let l := regs [(1, 0x7FF0, 0), (2, 0x20, 0)]
    gives (.add 0 3 1 2 2 0) l 3 0xFFFFFFFFFFFF8010 0 && gives (.add 0 3 1 2 2 1) l 3 0x7FFF 0
      && gives (.add 0 3 1 2 2 2) l 3 0x8010 0 = true := by decide +kernel

/-- A source with the f64 tag is refused (R95). -/
theorem test_add_format_trap :
    (match after (.add 0 3 1 2 2 0) (busy (regs [(1, 0x7FF0, 0), (2, 0x20, 4)])) with
      | some t => t.line.fcode != 0 && getG t.line 3 == 0
      | none => false) = true := by decide +kernel

/-- Division by zero and the least value by minus one (R99). -/
theorem test_division_corners :
    let z := regs [(1, 0x80, 0), (2, 0, 0)]
    let m := regs [(1, 0x80, 0), (2, 0xFF, 0)]
    gives (.div 0 3 1 2 3) z 3 0xFFFFFFFFFFFFFFFF 0 && gives (.divb 0 3 1 2 3) z 3 0xFF 0
      && gives (.rem 0 3 1 2 3) z 3 0xFFFFFFFFFFFFFF80 0 && gives (.remb 0 3 1 2 3) z 3 0x80 0
      && gives (.div 0 3 1 2 3) m 3 0xFFFFFFFFFFFFFF80 0 && gives (.rem 0 3 1 2 3) m 3 0 0
      && gives (.abs 0 3 1 3 1) m 3 0x7F 0 && gives (.neg 0 3 1 3 0) m 3 0xFFFFFFFFFFFFFF80 0 = true := by decide +kernel

/-- Shifts by the width and more, and rotates by it (R98). -/
theorem test_shifts_past_the_width :
    let l := regs [(1, 0x80000001, 0), (2, 32, 0)]
    gives (.shl 0 3 1 2 1 0) l 3 0 0 && gives (.shr 0 3 1 2 1) l 3 0 0 && gives (.sar 0 3 1 2 1) l 3 0xFFFFFFFFFFFFFFFF 0
      && gives (.rol 0 3 1 2 1) l 3 0xFFFFFFFF80000001 0 = true := by decide +kernel

/-- Saturating products, high halves and signed against unsigned order (R98, R100). -/
theorem test_products_and_order :
    let l := regs [(1, 0x80000000, 0), (2, 0xFFFFFFFF, 0)]
    gives (.mul 0 3 1 2 1 1) l 3 0x7FFFFFFF 0 && gives (.mulhb 0 3 1 2 1) l 3 0x7FFFFFFF 0 && gives (.mulh 0 3 1 2 1) l 3 0 0
      && gives (.min 0 3 1 2 1) l 3 0xFFFFFFFF80000000 0 && gives (.maxb 0 3 1 2 1) l 3 0xFFFFFFFF 0 = true := by decide +kernel

/-- Counts and byte reversal at a width (R98). -/
theorem test_counts :
    let l := regs [(1, 0xFFFF0120, 0)]
    gives (.clz 0 3 1 2) l 3 7 0 && gives (.ctz 0 3 1 2) l 3 5 0 && gives (.popc 0 3 1 2) l 3 2 0
      && gives (.bswap 0 3 1 2) l 3 0x2001 0 && gives (.sext 0 3 1 3) l 3 0x20 0 = true := by decide +kernel

/-- Immediates, and fields of a word; the emulation handler's bextb of the word 0x3C194000 (R102, R103). -/
theorem test_immediates_and_fields :
    let l := regs [(1, 0x0F0F, 0), (2, 0x3C194000, 0), (3, 0xFFFFFFFFFFFFFFFF, 0)]
    gives (.addi 0 4 1 0xFFFF) l 4 0x0F0E 0 && gives (.andi 0 4 3 0xFF00) l 4 0xFF00 0
      && gives (.movh 0 3 2 0x1234) l 3 0xFFFF1234FFFFFFFF 0 && gives (.bextb 0 4 2 19 2) l 4 3 0
      && gives (.bins 0 3 1 8 7) l 3 0xFFFFFFFFFFFF0FFF 0 = true := by decide +kernel

/-- A 64-bit constant built by two extensions (R61): the pending word after the second, and the value. -/
theorem test_extended_constant :
    pendWord { Line.zero with hcnt := 2, hpay := 0x0123456789AB } = 0x0123456789AB4000
      ∧ (match after (.movi 0 5 0xCDEF) (busy { Line.zero with hcnt := 2, hpay := 0x0123456789AB }) with
        | some t => getG t.line 5 == 0x0123456789ABCDEF && t.line.hcnt == 0 && t.line.hpay == 0
        | none => false) = true := by decide +kernel

/-- The words of a line image (R8). -/
theorem test_line_image :
    let l : Line := { regs [(1, 0xC00000003FC00000, 5)] with pc := 0x4014, rmode := 1, tenant := 5, job := 0x123, prio := 4, pend := 8, lacnt := 2, laopen := true }
    (lineWords l)[8]? == some 0x0001000000004014 && (lineWords l)[1]? == some 0xC00000003FC00000 && packBytes l.tag == 0x500 && identityWord l == 0x0000000004012305 && pendWord l == 0x1208 = true := by decide +kernel

/-- Compares and predicate operations (R104, R105). -/
theorem test_compares_and_predicates :
    let l := { regs [(1, 0xFFFFFFFF, 0), (2, 1, 0)] with q := #v[0xFF, 0x0F, 0x3C, 0x81, 0, 0xFF, 1, 2] }
    sets (.cmp 0 4 1 2 2 1 0) l 4 0xFF && sets (.cmp 0 4 1 2 6 1 0) l 4 0 && sets (.cmpi 0 4 2 0 1) l 4 0xFF
      && sets (.qany 0 4 3 1) l 4 0xFF && sets (.qall 0 4 3 1) l 4 0 && sets (.qand 0 4 1 2) l 4 0x0C
      && sets (.qset 0 0 0) l 0 0xFF && sets (.qtog 0 4 0x5A) l 4 0x5A && sets (.gtoq 0 4 1) l 4 0xFF = true := by decide +kernel

/-- A guard disables lanes, which keep the destination's (R14, R106). -/
theorem test_lanes_under_a_guard :
    let l := { regs [(1, 0x00010002FFFF7FFF, 2), (2, 0x0001000100010001, 2), (3, 0xAAAABBBBCCCCDDDD, 2)] with
      q := #v[0xFF, 5, 0, 0, 0, 0, 0, 0] }
    gives (.vadds 1 3 1 2 2 0) l 3 0xAAAA0003CCCC7FFF 2 && gives (.vavg 0 3 1 2 2 1) l 3 0x0001000280004000 2
      && gives (.vsum 0 3 1 2 0) l 3 0x8001 0 = true := by decide +kernel

/-- Rounding on the scalar path: 1.0 + 2^-24 under RNE, RTZ and RUP (R41, R44). -/
theorem test_rounding_modes :
    let l := fun (rm : BitVec 2) => { regs [(2, 0x3F800000, 5), (3, 0x33800000, 5)] with rmode := rm }
    let r := fun (rm : BitVec 2) (v : Word) => match after (.fadd 0 1 2 3 1 0) (busy (l rm)) with
      | some t => getG t.line 1 == v && t.line.fflg == 0x10
      | none => false
    r 0 0x3F800000 && r 1 0x3F800000 && r 3 0x3F800001 = true := by decide +kernel

/-- The same with the inexact trap enabled: nothing is written, TDATA[4:0] is 0b10000 (R44). -/
theorem test_float_trap :
    (match after (.fadd 0 1 2 3 1 0) (busy { regs [(2, 0x3F800000, 5), (3, 0x33800000, 5)] with fen := 0x10 }) with
      | some t => getG t.line 1 == 0 && t.line.fflg == 0 && t.line.wait == 0xA000000000000000 && t.line.tdata.extractLsb' 0 5 == 0x10
      | none => false) = true := by decide +kernel

/-- fcvt.i32.f64 of 2.5 under RNE and RUP and of -2^40; fcvt.b32.i64 of -1; 0x00400000 to bf16 stays exact (R110). -/
theorem test_conversions :
    let r := fun (src tgt : BitVec 3) (tag : Byte) (rm : BitVec 2) (v res : Word) (f : BitVec 5) =>
      match after (.fcvt 0 4 1 0 src tgt) (busy { regs [(1, v, tag)] with rmode := rm }) with
      | some t => getG t.line 4 == res && t.line.fflg == f
      | none => false
    r 0 6 4 0 0x4004000000000000 2 0x10 && r 0 6 4 3 0x4004000000000000 3 0x10
      && r 0 6 4 0 0xC270000000000000 0xFFFFFFFF80000000 1 && r 4 7 0 0 0xFFFFFFFFFFFFFFFF 0 1
      && r 1 3 5 0 0x00400000 0x0040 0 = true := by decide +kernel

/-- Infinity over itself, one over zero, and the root of four (R108). -/
theorem test_float_specials :
    let r := fun (i : Instr) (v : Word) (f : BitVec 5) =>
      match after i (busy (regs [(1, 0x7C00, 7), (2, 0x3C00, 7), (3, 0, 7), (4, 0x4400, 7), (5, 0, 7)])) with
      | some t => getG t.line 5 == v && t.line.fflg == f
      | none => false
    r (.fdiv 0 5 1 1 2 0) 0x7E00 1 && r (.fdiv 0 5 2 3 2 0) 0x7C00 2 && r (.fsqrt 0 5 4 2 0) 0x4000 0
      && r (.fma 0 5 2 2 2 0) 0x3C00 0 = true := by decide +kernel

/-- br, call, jr, loop (R57, R112). -/
theorem test_transfers :
    let s := busy { regs [(2, 0x4002, 0x0C), (3, 1, 0), (4, 2, 0)] with pc := 0x1000 }
    ((after (.br 0 0x3FFFFF) s).map (·.line.pc) == some 0xFFC) && ((after (.call 0 3) s).map (fun t => getG t.line 7) == some 0x1004)
      && ((after (.loop 0 3 0xFFFD) s).map (·.line.pc) == some 0x1004) && ((after (.loop 0 4 0xFFFD) s).map (·.line.pc) == some 0xFF4)
      && ((after (.jr 0 2) s).map (·.line.wait) == some 0xA000000000000000) = true := by decide +kernel

/-- ld.i64 g3, [g6+0], la2: what the line shows after issue (R21, R24). -/
theorem test_load_leaves_its_register_pending :
    (match after (.ld 0 3 6 0 0 2 0) (busy (regs [(6, 0x20000, 0)])) with
      | some t => pendWord t.line == 0x1208 && getTag t.line 3 == 0 && t.line.pc == 4
      | none => false) = true := by decide +kernel

/-- A misaligned access, one beyond 2^56, and one to no page (R47, R113). -/
theorem test_access_traps :
    trapsWith (.ld 0 3 6 0 0 0 0) (busy (regs [(6, 0x20004, 0)])) 5 8
      && trapsWith (.st 0 3 6 0 0 0 0) (busy (regs [(6, 0x50000, 0)])) 6 1 = true := by decide +kernel

/-- A privileged word at level 0, and trap at level 0 (R416, R415). -/
theorem test_privilege_and_trap :
    trapsWith (.rft 0 0 1) (busy (regs [])) 12 0xCC000001 && trapsWith (.trap 0 5) (busy (regs [])) 13 5 = true := by decide +kernel

/-- The emulation trap of 0x3C194000 (R68, R399): its status word. -/
theorem test_emulation_trap : trapsWith (.notAnInstructionWord 0x3C194000) (busy (regs [(1, 5, 0), (2, 12, 0)])) 2 0x3C194000 = true := by
  decide +kernel

/-- Waits: join on a nonzero counter, waiteq on another value (R157, R163, R171). -/
theorem test_waits :
    waitsWith (.join 0 2) (busy (regs [(2, 0x20000, 0)])) 0x7000000000020000
      && waitsWith (.waiteq 0 1 2 3 0 0) (busy (regs [(2, 0x20000, 0), (3, 9, 0)])) 0x3000000000020000 = true := by decide +kernel

/-- A queue reused under a stale name: qmake gives GEN 0, a full name of GEN 1 traps (R150, R177, R178). -/
theorem test_queue_make :
    let x := { tenantA with qtabBase := 0x20000, qtabLen := 64 }
    let s := { busy (regs [(1, 0x00400005, 0), (2, 0x20800, 0), (3, 0x00100005, 0)]) with tenants := [(0, x)], memory := Memory.zero }
    (match exec (.qmake 0 3 1 2) s with
      | .next s' => (s'.thr.map fun t => getG t.line 3) == some 5 && (readEntry s'.memory (0x20000 + 160)).state == 1
      | _ => false) && (match after (.deq 0 7 3 1 0) s with
      | some t => t.line.wait == 0xA000000000000000 && getG t.line 7 == 0
      | none => false) = true := by decide +kernel

/-- A barrier across wrap (R149, R173): CNT 1 against t = 3 waits, CNT 3 goes on; an expectation of 0x80000000 too far sets OVF. -/
theorem test_barrier_across_wrap :
    let s := fun (c e : BitVec 32) => setCounter (busy (regs [(1, 3, 0), (2, 3, 0), (3, 0x80000000, 0)])) 0 3 ⟨c, e, 0, true, false⟩
    waitsWith (.mwait 0 1 2 0) (s 1 3) 0x4000000300000003 && ((after (.mwait 0 1 2 0) (s 3 3)).map (·.line.pc) == some 4)
      && (match exec (.mexp 0 1 3) (s 0xFFFFFFFE 0xFFFFFFFE) with
        | .next s' => (getCounter s' 0 3).ovf
        | _ => false) = true := by decide +kernel

/-- Window addresses (R181): local store, vault, mailbox counter and table entry of die 2, cluster 9, core 3. -/
theorem test_window_addresses :
    regionOf 0xFF000104960100 = .localStore 0x24B 0x100 ∧ regionOf 0xFF000049000000 = .vault 73 0
      ∧ regionOf 0xFF000110092C30 = .mailbox 0x24B 0x30 ∧ regionOf 0xFF0001209200A0 = .tdt 73 0xA0 := by decide +kernel

/-- One word under two patterns (R187): vault offset 0x12340 under pattern 1. -/
theorem test_swizzle : swizzleVault 1 0x12340 = 0x12358 := by decide +kernel

/-- A BFP-4 weight tile (R192): element (40, 3) and its exponent. -/
theorem test_tile_layout :
    let e : TdtEntry := { TdtEntry.zero with rowsm1 := 255, colsm1 := 127, fmt := 8, axis := true, stride := 64, bexp := 16384 }
    blockIndex e 40 3 = 131 ∧ e.rows = 256 ∧ e.cols = 128 := by decide +kernel

/-- Dealing a 1 KiB burst (R199): DPAT 0x04004A61 deals to cores 5, 7, 1, 2. -/
theorem test_distributor :
    dealOrder 0x04004A61 = [5, 7, 1, 2] ∧ dealBlock 0x04004A61 = 128 := by decide +kernel

/-- Quantising two BFP-4 blocks (R292). -/
theorem test_quantise :
    let bf := fun (x : Nat) => flushed (engFmt 1) x
    let block := fun (l : List Nat) => quantise 4 0 (l.map bf ++ List.replicate 28 (bf 0))
    let a := block [0x3FC0, 0xBF40, 0x3E40, 0x4040]
    let b := block [0x3FC0, 0xBF40, 0x3E40, 0x4070]
    (a.ms.take 4, a.ex, a.exc) = ([3, -2, 0, 6], 0x80, 16) ∧ (b.ms.take 4, b.ex, b.exc) = ([2, -1, 0, 4], 0x81, 16) := by
  decide +kernel

/-- Narrowing conversions of the engines (R302): the table's rows. -/
theorem test_engine_narrowing :
    let r := fun (f rm : Nat) (x : Nat) => elemBits f rm false (flushed (engFmt 0) x)
    r 1 0 0x3F808000 = (0x3F80, 16) ∧ r 1 0 0x3F818000 = (0x3F82, 16) ∧ r 1 1 0x3F818000 = (0x3F81, 16)
      ∧ r 2 0 0x4788B800 = (0x7C00, 20) ∧ r 2 1 0x4788B800 = (0x7BFF, 20) ∧ r 1 0 0x00400000 = (0, 0)
      ∧ r 3 0 0xC2FF0000 = (0x80, 16) ∧ r 3 0 0x43000000 = (0x7F, 1) := by decide +kernel


/-- A fabric header bit by bit (R450): a data frame of member 5 to member 3, class 0, tenant 2, job 0x1234, one packet, SEQ 7, ACKSEQ 9;
a device nack with reason 1. -/
theorem test_frame_header :
    let f : FlowId := ⟨5, 3, 2, 0x1234, 0⟩
    let p : Pkt := ⟨0, 0, .ack, false, 5, 3, 2, 0x1234, 0, 0, 0, .cell 0, 0, 0, 0, 0⟩
    leNat (frameHeader ⟨1, 0, f, 7, 9, 0, [p]⟩) = 9 * 2 ^ 96 + 7 * 2 ^ 64 + 0x01123402 * 2 ^ 32 + 0x000C0501
      ∧ leNat (frameHeader ⟨1, 4, f, 7, 9, 1, []⟩) = 2 ^ 128 + 9 * 2 ^ 96 + 7 * 2 ^ 64 + 0x00123402 * 2 ^ 32 + 0x000C0541 := by
  decide +kernel

/-- The check value of the Ethernet check sequence, low byte first. -/
theorem test_frame_check : fcs ([0x31, 0x32, 0x33, 0x34, 0x35, 0x36, 0x37, 0x38, 0x39] : List Byte) = [0x26, 0x39, 0xF4, 0xCB] := by decide +kernel

/-- A snapshot record (R478): transit 0x1234 at the router of die 2 (link 290), 5 packets sent, 6 taken, 7 in the channel. -/
theorem test_snapshot_record :
    leNat (snapBytes ⟨0x1234, 3, 0x200, 290, 5, 6, 7⟩) = 7 * 2 ^ 192 + 6 * 2 ^ 128 + 5 * 2 ^ 64 + 290 * 2 ^ 32 + 0x20031234 := by decide +kernel

/-- The line of the probe's place after a step. -/
def stepped (s : State) : Option LiveLine :=
  match step s with
  | .next s' => s'.lines.head?
  | _ => none

/-- An hmod holds its bits and leaves PC at itself (R67); the word issued with them is the one behind it, and the pair moves PC by 8. -/
theorem test_modifier_pair :
    let s := State.reset.withFetchWord 32 0xFE000002
    let t := { s with memory := memWrite s.memory 4 4 0xD8000000, lines := s.lines.map fun x => { x with md := some 2 } }
    (stepped s).map (fun x => (x.md, x.word, x.line.pc, x.line.fcode)) = some (some 2, none, 0, 0)
      ∧ (stepped t).map (fun x => (x.md, x.word, x.line.pc, x.line.fcode)) = some (none, none, 8, 0) := by
  decide +kernel

/-! ### Litmus outcomes: the worked examples of the consistency chapter -/

/-- Two locations of die 0. -/
def locX : Location := .dram 0 0 0
def locY : Location := .dram 0 0 64

/-- Both locations at 0. -/
def inits : List Ev := [locX, locY].map fun x => ⟨.init, .initial, 0, 0, 0, true, [], [(x, [0])], none, none, none, []⟩

/-- Word `pos` of thread `n` in cluster `cl`, with what it reads and writes; its operand is what it writes. -/
def wordEv (n pos cl : Nat) (i : Instr) (r w : Vals) : Ev := ⟨.thread n, .word i true true, pos, 8 * cl, 0, true, r, w, none, none, none, w.flatMap (·.2)⟩

/-- An execution of these events after the initial ones. -/
def execution (l : List Ev) (rf : List (Nat × Nat × Location)) (x y fences : List Nat) : Exec :=
  ⟨inits ++ l, rf, [(locX, 0 :: x), (locY, 1 :: y)], fences, [], [], [], []⟩

/-- Message passing: the read of x returns 0 after y was read as 1; `la` is the lookahead of the first read. -/
def passing (rs as : BitVec 2) (cl : Nat) (la : BitVec 4) : Exec :=
  execution [wordEv 0 0 0 (.st 0 1 2 0 0 0 0) [] [(locX, [1])], wordEv 0 1 0 (.st 0 1 3 0 rs 0 0) [] [(locY, [1])],
    wordEv 1 0 cl (.ld 0 1 3 0 as la 0) [(locY, [1])] [], wordEv 1 1 cl (.ld 0 4 2 0 0 0 0) [(locX, [0])] []]
    [(3, 4, locY), (0, 5, locX)] [2] [3] []

/-- Message passing under four scopes: variants 1 to 7, cluster 1 on the same die, cluster 32 on another. -/
theorem test_message_passing :
    [passing 0 0 0 0, passing 1 1 0 0, passing 1 1 32 0, passing 2 2 32 0, passing 1 2 1 0, passing 2 0 32 0,
      passing 2 2 32 1].map Exec.allowed = [true, false, true, false, true, true, true] := by decide +kernel

/-- Store buffering with a fence of a kind and scope between; both threads read 0. -/
def buffering (k scope : BitVec 2) (cl : Nat) (order : List Nat) : Exec :=
  execution [wordEv 0 0 0 (.st 0 1 2 0 0 0 0) [] [(locX, [1])], wordEv 0 1 0 (.fence 0 k scope) [] [],
    wordEv 0 2 0 (.ld 0 4 3 0 0 0 0) [(locY, [0])] [], wordEv 1 0 cl (.st 0 1 3 0 0 0 0) [] [(locY, [1])],
    wordEv 1 1 cl (.fence 0 k scope) [] [], wordEv 1 2 cl (.ld 0 4 2 0 0 0 0) [(locX, [0])] []]
    [(1, 4, locY), (0, 7, locX)] [2] [5] order

theorem test_store_buffering :
    [buffering 3 2 32 [3, 6], buffering 3 2 32 [6, 3], buffering 3 1 32 [3, 6],
      buffering 2 2 32 []].map Exec.allowed = [false, false, true, true] := by decide +kernel

/-- Load buffering: both threads read 1; the store writes what was read when its register is the load's. -/
def loads (la : BitVec 4) (r : Reg) : Exec :=
  execution [wordEv 0 0 0 (.ld 0 1 2 0 0 la 0) [(locX, [1])] [], wordEv 0 1 0 (.st 0 r 3 0 0 0 0) [] [(locY, [1])],
    wordEv 1 0 32 (.ld 0 1 3 0 0 la 0) [(locY, [1])] [], wordEv 1 1 32 (.st 0 r 2 0 0 0 0) [] [(locX, [1])]]
    [(5, 2, locX), (3, 4, locY)] [5] [3] []

theorem test_load_buffering : [loads 1 5, loads 0 5, loads 1 1].map Exec.allowed = [true, false, false] := by decide +kernel

/-- A ticket passed between three threads: Q fetches, S redeems. -/
def redeeming (scope : BitVec 2) : Exec :=
  execution [wordEv 0 0 0 (.st 0 1 2 0 0 0 0) [] [(locX, [1])], wordEv 0 1 0 (.st 0 1 3 0 2 0 0) [] [(locY, [1])],
    wordEv 1 0 32 (.tkld 0 4 3 0 scope) [(locY, [1])] [], { wordEv 2 0 64 (.tkred 0 5 4 6 1) [] [] with of_ := some 4 },
    wordEv 2 1 64 (.ld 0 4 2 0 0 0 0) [(locX, [0])] []]
    [(3, 4, locY), (0, 6, locX)] [2] [3] []

theorem test_ticket_passing : [redeeming 2, redeeming 0, redeeming 1].map Exec.allowed = [false, true, true] := by decide +kernel

/-- Two and two writes, the second of each released at home scope on different dies: each location ends with the other thread's first. -/
def crossed (rel : BitVec 2) : Exec :=
  execution [wordEv 0 0 0 (.st 0 1 2 0 0 0 0) [] [(locX, [1])], wordEv 0 1 0 (.st 0 1 3 0 rel 0 0) [] [(locY, [2])],
    wordEv 1 0 32 (.st 0 1 3 0 0 0 0) [] [(locY, [1])], wordEv 1 1 32 (.st 0 1 2 0 rel 0 0) [] [(locX, [2])]]
    [] [5, 2] [3, 4] []

theorem test_two_plus_two_writes : [crossed 2, crossed 0].map Exec.allowed = [false, true] := by decide +kernel

/-- Two increments: the second reads what the first wrote, or both read 0. -/
def increments (second read : Nat) : Exec :=
  execution [{ wordEv 0 0 0 (.amoAdd 0 7 6 5 0 3 2) [(locX, [0])] [(locX, [1])] with args := [1] },
    { wordEv 1 0 32 (.amoAdd 0 7 6 5 0 3 2) [(locX, [read])] [(locX, [read + 1])] with args := [1] }]
    [(0, 2, locX), (second, 3, locX)] [2, 3] [] []

theorem test_increments : [increments 2 1, increments 0 0].map Exec.allowed = [true, false] := by decide +kernel

/-- The same with the second increment by two: it writes what it computes, or the execution is not allowed. -/
theorem test_increment_writes_its_sum :
    [1, 2].map (fun n => (execution [{ wordEv 0 0 0 (.amoAdd 0 7 6 5 0 3 2) [(locX, [0])] [(locX, [n])] with args := [1] }] [(0, 2, locX)] [2] [] []).allowed)
      = [true, false] := by decide +kernel
/-! ### A state and operands that meet the hypotheses of each obligation, clause by clause -/

/-- What holds of every word below 64 bytes holds at every offset of one. -/
theorem within {n : Nat} {p : Nat → Prop} (h : ∀ i, i < (n + 7) / 8 → p i) : ∀ i, 8 * i < n → p i := fun i hi => h i (by omega)

def line1 : Line := regs [(2, 0x8000000000000000, 0), (3, 0xFFFF, 0)]

/-- Two int64 sources and a free destination. -/
theorem witness_integer_ruled_results :
    Ready (hdr 0 [1, 2, 3]) (busy line1) (live line1)
      ∧ getTag (live line1).line 2 = 0
      ∧ getTag (live line1).line 3 = 0 := by
  and_intros
  all_goals decide +kernel

/-- The same. -/
theorem witness_integer_binary_results :
    Ready (hdr 0 [1, 2, 3]) (busy line1) (live line1)
      ∧ getTag (live line1).line 2 = 0
      ∧ getTag (live line1).line 3 = 0 := by
  and_intros
  all_goals decide +kernel

def line2 : Line := regs [(2, 0x8000000000000000, 0), (3, 0xFFFFFFFFFFFFFFFF, 0)]

def line3 : Line := regs [(2, 5, 0), (3, 0, 0)]

/-- The least value by minus one, and a zero divisor. -/
theorem witness_division_never_traps :
    Ready (hdr 0 [1, 2, 3]) (busy line2) (live line2)
      ∧ Ready (hdr 0 [1, 2]) (busy line2) (live line2)
      ∧ getTag (live line2).line 2 = 0
      ∧ getTag (live line2).line 3 = 0
      ∧ (getG (live line2).line 2).setWidth 64 = BitVec.intMin 64
      ∧ (getG (live line2).line 3).setWidth 64 = (-1 : BitVec 64)
      ∧ Ready (hdr 0 [1, 2, 3]) (busy line3) (live line3)
      ∧ getTag (live line3).line 2 = 0
      ∧ getTag (live line3).line 3 = 0
      ∧ getG (live line3).line 3 = 0 := by
  and_intros
  all_goals decide +kernel

/-- A source that is not the least 32-bit value. -/
theorem witness_integer_unary_results :
    Ready (hdr 0 [1, 2]) (busy line1) (live line1)
      ∧ getTag (live line1).line 2 = 0
      ∧ (getG (live line1).line 2).setWidth 32 ≠ BitVec.intMin 32 := by
  and_intros
  all_goals decide +kernel

/-- The last field that fits 64 bits, and the last halfword. -/
theorem witness_immediate_results :
    Ready (hdr 0 [1, 2]) (busy line1) (live line1)
      ∧ Ready (hdr 0 [1]) (busy line1) (live line1)
      ∧ Ready (hdr 0 [1, 2, 1]) (busy line1) (live line1)
      ∧ getTag (live line1).line 2 = 0
      ∧ getTag (live line1).line 1 = 0
      ∧ (60#6).toNat + ((3#6).toNat + 1) ≤ 64
      ∧ (3#3).toNat < 4 := by
  and_intros
  all_goals decide +kernel

/-- Contexts with no, one and two extensions collected. -/
theorem witness_extended_immediates :
    (issueCtx (hdr 0 []) (live { Line.zero with hcnt := 0, hpay := 0xABCDEF123456 })).hcnt = 0
      ∧ (issueCtx (hdr 0 []) (live { Line.zero with hcnt := 1, hpay := 0xABCDEF123456 })).hcnt = 1
      ∧ (issueCtx (hdr 0 []) (live { Line.zero with hcnt := 2, hpay := 0xABCDEF123456 })).hcnt = 2 := by
  and_intros
  all_goals decide +kernel

def line4 : Line := { regs [(2, 0x80017FFF00F11234, 2), (3, 0x7F0180000102FFFE, 2), (1, 0x1122334455667788, 2)] with q := #v[0xFF, 0x0F, 0x3A, 0x81, 0, 0xFF, 1, 2] }

/-- The last condition, scalar and in lanes. -/
theorem witness_compare_results :
    Ready (hdr 0 [2, 3]) (busy line1) (live line1)
      ∧ getTag (live line1).line 2 = 0
      ∧ getTag (live line1).line 3 = 0
      ∧ Ready (hdr 0 [2]) (busy line1) (live line1)
      ∧ Ready (hdr 1 [2, 3]) (busy line4) (live line4)
      ∧ getTag (live line4).line 2 = laneTag 2
      ∧ getTag (live line4).line 3 = laneTag 2
      ∧ (2 : BitVec 2) ≠ 0
      ∧ (11#5).toNat < 12
      ∧ ([false, true, true, true, false, false, false, false, true, true, true, false] : List Bool)[(11#5).toNat]? = some false := by
  and_intros
  all_goals decide +kernel

/-- Any line; an int64 source for gtoq. -/
theorem witness_predicate_results :
    Ready (hdr 0 []) (busy line1) (live line1)
      ∧ Ready (hdr 0 [2]) (busy line1) (live line1)
      ∧ getTag (live line1).line 2 = 0 := by
  and_intros
  all_goals decide +kernel

def line5 : Line := regs [(2, 0x80017FFF00F11234, 2), (3, 0x3210, 0)]

/-- Four lanes against four, and against an int64 of indices. -/
theorem witness_lane_results :
    Ready (hdr 1 [1, 2, 3]) (busy line4) (live line4)
      ∧ getTag (live line4).line 2 = laneTag 2
      ∧ getTag (live line4).line 3 = laneTag 2
      ∧ Ready (hdr 0 [1, 2, 3]) (busy line5) (live line5)
      ∧ getTag (live line5).line 2 = laneTag 2
      ∧ getTag (live line5).line 3 = 0
      ∧ (2 : BitVec 2) ≠ 0 := by
  and_intros
  all_goals decide +kernel

def line6 : Line := regs [(2, 0x80017FFF00F11234, 2), (3, 0x7F0180000102FFFE, 2)]

def line7 : Line := regs [(2, 0x80017FFF00F11234, 1), (3, 0x7F0180000102FFFE, 1)]

/-- Widths 1 and 2, with an int64 destination for vdot. -/
theorem witness_lane_class_changes :
    Ready (hdr 0 [1, 2, 3]) (busy line6) (live line6)
      ∧ Ready (hdr 0 [1, 2]) (busy line6) (live line6)
      ∧ getTag (live line6).line 2 = laneTag 2
      ∧ getTag (live line6).line 3 = laneTag 2
      ∧ getTag (live line6).line 1 = 0
      ∧ Ready (hdr 0 [1, 2, 3]) (busy line7) (live line7)
      ∧ getTag (live line7).line 2 = laneTag 1
      ∧ getTag (live line7).line 3 = laneTag 1 := by
  and_intros
  all_goals decide +kernel

def line8 : Line := { regs [(2, 0x3F8000017F807FC1, floatTag 3), (3, 0x0001400080007F80, floatTag 3), (1, 0x3F803F803F803F80, floatTag 3)] with fen := 0 }

def line9 : Line := { regs [(2, 0x3F8000017F807FC1, floatTag 3), (3, 0x0001400080007F80, floatTag 3), (1, 0x3F803F803F803F80, floatTag 3)] with fen := 31 }

/-- Four bf16 lanes without traps, and a trap enabled. -/
theorem witness_float_results :
    Ready (hdr 0 [1, 2, 3]) (busy line8) (live line8)
      ∧ Ready (hdr 0 [1, 2]) (busy line8) (live line8)
      ∧ Ready (hdr 0 [2, 3]) (busy line8) (live line8)
      ∧ Ready (hdr 0 [1, 2, 3, 1]) (busy line8) (live line8)
      ∧ getTag (live line8).line 1 = floatTag 3
      ∧ getTag (live line8).line 2 = floatTag 3
      ∧ getTag (live line8).line 3 = floatTag 3
      ∧ Ready (hdr 0 [1, 2, 3]) (busy line9) (live line9)
      ∧ (fadd (fmtOf 3) 0 0x7F80 0xFF80).2 &&& (live line9).line.fen ≠ 0
      ∧ (fadd (fmtOf 3) 0 0x3F80 0x3F80).2 &&& (live line8).line.fen = 0 := by
  and_intros
  all_goals decide +kernel

def line10 : Line := regs [(2, 0x3FB999999999999A, cvtTag 0 0)]

def line11 : Line := regs [(2, 0x3F8000004F000000, cvtTag 1 1)]

/-- f64 to i32, and lanewise f32 to b32. -/
theorem witness_conversion_results :
    Ready (hdr 0 [1, 2]) (busy line10) (live line10)
      ∧ getTag (live line10).line 2 = cvtTag 0 0
      ∧ (0 : Reg) ≠ 6
      ∧ Ready (hdr 0 [1, 2]) (busy line11) (live line11)
      ∧ getTag (live line11).line 2 = cvtTag 1 1
      ∧ (1 : Reg) ≠ 7 := by
  and_intros
  all_goals decide +kernel

/-- The last direction; f16 operands that are normal, subnormal and zero of either sign; the two greatest finite values; formats and integer types that differ. -/
theorem witness_rounding_is_directed_or_nearest :
    (3 < 4 ∧ (1 : Nat) ≠ 0)
      ∧ (unpack (fmtOf 2) 0x3C00 = .fin false 1024 (-10) ∧ 0x3C00 < 2 ^ (fmtOf 2).bits)
      ∧ (unpack (fmtOf 2) 0xB800 = .fin true 1024 (-11) ∧ 0xB800 < 2 ^ (fmtOf 2).bits)
      ∧ (unpack (fmtOf 2) 1 = .fin false 1 (-24) ∧ 1 < 2 ^ (fmtOf 2).bits)
      ∧ (unpack (fmtOf 2) 0 = .zero false ∧ 0 < 2 ^ (fmtOf 2).bits)
      ∧ (unpack (fmtOf 2) 0x8000 = .zero true ∧ 0x8000 < 2 ^ (fmtOf 2).bits)
      ∧ (unpack (fmtOf 2) ((fmtOf 2).inf false - 1) = .fin false 2047 5 ∧ unpack (fmtOf 2) ((fmtOf 2).inf false - 2) = .fin false 2046 5 ∧ unpack (fmtOf 2) ((fmtOf 2).inf true - 1) = .fin true 2047 5 ∧ unpack (fmtOf 2) ((fmtOf 2).inf true - 2) = .fin true 2046 5)
      ∧ ((2 : Reg) ≠ 7 ∧ (2 : Reg).toNat < 4 ∧ 4 ≤ (7 : Reg).toNat ∧ (1 : Reg) ≠ 2 ∧ (4 : Reg) ≠ 7) := by
  and_intros
  all_goals decide +kernel

/-- A signalling NaN, two infinities and a zero of f16. -/
theorem witness_nan_results :
    0x7E01 < 2 ^ (fmtOf 2).bits
      ∧ (decide (0x7C01 / 2 ^ (fmtOf 2).fw % 2 ^ (fmtOf 2).ew = (fmtOf 2).ones) && decide (0x7C01 % 2 ^ (fmtOf 2).fw ≠ 0)) = true
      ∧ decide (0xFC00 % 2 ^ ((fmtOf 2).ew + (fmtOf 2).fw) = (fmtOf 2).ones * 2 ^ (fmtOf 2).fw) = true
      ∧ decide (0x8000 % 2 ^ ((fmtOf 2).ew + (fmtOf 2).fw) = 0) = true := by
  and_intros
  all_goals decide +kernel

/-- A finite value with its negative, and the two zeros. -/
theorem witness_cancellation_sign :
    (0xBC00 < 2 ^ (fmtOf 2).bits ∧ 3 < 4)
      ∧ 0x3C00 / 2 ^ (fmtOf 2).fw % 2 ^ (fmtOf 2).ew ≠ (fmtOf 2).ones
      ∧ 0x3C00 % 2 ^ ((fmtOf 2).ew + (fmtOf 2).fw) ≠ 0
      ∧ (0x3C00 % 2 ^ ((fmtOf 2).ew + (fmtOf 2).fw) = 0xBC00 % 2 ^ ((fmtOf 2).ew + (fmtOf 2).fw) ∧ 0x3C00 ≠ 0xBC00)
      ∧ (0 % 2 ^ ((fmtOf 2).ew + (fmtOf 2).fw) = 0 ∧ 0x8000 % 2 ^ ((fmtOf 2).ew + (fmtOf 2).fw) = 0 ∧ 0 ≠ 0x8000) := by
  and_intros
  all_goals decide +kernel

def line12 : Line := regs [(2, 0xFFFFFFFFFFFC, 0x0C), (3, 1, 0)]

def line13 : Line := regs [(2, 0x4002, 0)]

def line14 : Line := regs [(2, 0x1000000000000, 0x0C)]

/-- The last code address, a misaligned one, one beyond 2^48, and a count of 1. -/
theorem witness_transfer_results :
    Ready (hdr 0 []) (busy line12) (live line12)
      ∧ Ready (hdr 0 [7]) (busy line12) (live line12)
      ∧ Ready (hdr 0 [2]) (busy line12) (live line12)
      ∧ Ready (hdr 0 [2, 7]) (busy line12) (live line12)
      ∧ Ready (hdr 0 [3]) (busy line12) (live line12)
      ∧ getTag (live line12).line 2 = 0x0C
      ∧ getTag (live line12).line 3 = 0
      ∧ ((getG (live line12).line 2).extractLsb' 0 2 = 0 ∧ (getG (live line12).line 2).extractLsb' 48 16 = 0)
      ∧ Ready (hdr 0 [2]) (busy line13) (live line13)
      ∧ Ready (hdr 0 [2, 7]) (busy line13) (live line13)
      ∧ getTag (live line13).line 2 = 0
      ∧ (¬ ((getG (live line13).line 2).extractLsb' 0 2 = 0 ∧ (getG (live line13).line 2).extractLsb' 48 16 = 0))
      ∧ Ready (hdr 0 [2]) (busy line14) (live line14)
      ∧ getTag (live line14).line 2 = 0x0C
      ∧ (¬ ((getG (live line14).line 2).extractLsb' 0 2 = 0 ∧ (getG (live line14).line 2).extractLsb' 48 16 = 0)) := by
  and_intros
  all_goals decide +kernel

/-- No, one and two extensions collected; a target that is no hint; a line that has an hmod already. -/
theorem witness_hint_words :
    (busy { Line.zero with hcnt := 0 }).thr = some (live { Line.zero with hcnt := 0 })
      ∧ (busy { Line.zero with hcnt := 1 }).thr = some (live { Line.zero with hcnt := 1 })
      ∧ (busy { Line.zero with hcnt := 2 }).thr = some (live { Line.zero with hcnt := 2 })
      ∧ (live Line.zero).md = none
      ∧ hintFollows (busy Line.zero) (live Line.zero) = false
      ∧ ({ busy Line.zero with thr := some { live Line.zero with md := some 5 } }).thr = some { live Line.zero with md := some 5 }
      ∧ encodeNat (.hsched 0) = some 0xFD000000
      ∧ hintFollows { busy Line.zero with memory := memWrite Memory.zero 4 4 0xFD000000 } (live Line.zero) = true := by
  and_intros
  all_goals decide +kernel

/-- An illegal word, an emulated one, and one whose feature was not accepted. -/
theorem witness_rejected_words :
    (busy Line.zero).thr = some (live Line.zero)
      ∧ (featureOk (busy Line.zero) 0x02000000 = true ∧ decodeNat 0x02000000 = .error .illegal)
      ∧ (featureOk (busy Line.zero) 0x3C194000 = true ∧ decodeNat 0x3C194000 = .error .emulation)
      ∧ featureOk { busy Line.zero with accepted := 1 } 0x803E0000 = false := by
  and_intros
  all_goals decide +kernel

def line15 : Line := regs [(2, 0x20000, 0), (3, 7, 0), (1, 0xAABBCCDD11223344, 0)]

/-- An aligned address on a mapped page; the last typed size and offset. -/
theorem witness_load_store_issue :
    Ready (hdrLook 0 [1, 2] 2 false) (busy line15) (live line15)
      ∧ Ready (hdrLook 0 [1, 2] 2 true) (busy line15) (live line15)
      ∧ getTag (live line15).line 2 = 0
      ∧ locate (busy line15) (whoOf (live line15)) .load 0x20000 0 = .ok (.cell 0x20000)
      ∧ locateStore (busy line15) (whoOf (live line15)) 0x20000 8 0 = .ok (.cell 0x20000)
      ∧ (0x20000 % typeSize 15 = 0 ∧ 0x20000 < 2 ^ 56) := by
  and_intros
  all_goals decide +kernel

def line16 : Line := regs [(2, 0x20004, 0), (3, 7, 0)]

def line17 : Line := regs [(2, 0x100000000000000, 0), (3, 7, 0)]

def line18 : Line := regs [(2, 0x50000, 0), (3, 7, 0)]

def line19 : Line := regs [(2, 0xFF000100000000, 0), (3, 7, 0)]

def line20 : Line := regs [(1, 0x30000, 0), (2, 0x20010, 0), (3, 7, 0)]

def line21 : Line := regs [(1, 0x20000, 0), (2, 0x50000, 0), (3, 7, 0)]

/-- A misaligned address, one at 2^56, an unmapped page, a page without writes; a full and empty word in DRAM, a ticket in a local store, blocks whose second access is the one that traps. -/
theorem witness_access_traps :
    Ready (hdrLook 0 [1, 2] 2 false) (busy line16) (live line16)
      ∧ Ready (hdrLook 0 [1, 2] 2 true) (busy line16) (live line16)
      ∧ Ready (hdrMod 0 [1, 2, 3] true) (busy line16) (live line16)
      ∧ Ready (hdr 0 [1, 2]) (busy line16) (live line16)
      ∧ Ready (hdrRel 0 [1, 2] true) (busy line16) (live line16)
      ∧ Ready (hdrMod 0 [1, 2] false) (busy line16) (live line16)
      ∧ Ready (hdr 0 [1, 2, 3]) (busy line16) (live line16)
      ∧ Ready (hdrLook 0 [1, 2] 2 false) (busy line17) (live line17)
      ∧ Ready (hdrLook 0 [1, 2] 2 true) (busy line17) (live line17)
      ∧ Ready (hdrMod 0 [1, 2, 3] true) (busy line17) (live line17)
      ∧ Ready (hdr 0 [1, 2]) (busy line17) (live line17)
      ∧ Ready (hdrRel 0 [1, 2] true) (busy line17) (live line17)
      ∧ Ready (hdrMod 0 [1, 2] false) (busy line17) (live line17)
      ∧ Ready (hdr 0 [1, 2, 3]) (busy line17) (live line17)
      ∧ Ready (hdrLook 0 [1, 2] 2 false) (busy line18) (live line18)
      ∧ Ready (hdrLook 0 [1, 2] 2 true) (busy line18) (live line18)
      ∧ Ready (hdrMod 0 [1, 2, 3] true) (busy line18) (live line18)
      ∧ Ready (hdr 0 [1, 2]) (busy line18) (live line18)
      ∧ Ready (hdrRel 0 [1, 2] true) (busy line18) (live line18)
      ∧ Ready (hdrMod 0 [1, 2] false) (busy line18) (live line18)
      ∧ Ready (hdr 0 [1, 2, 3]) (busy line18) (live line18)
      ∧ getTag (live line16).line 1 = 0
      ∧ getTag (live line16).line 2 = 0
      ∧ getTag (live line16).line 3 = 0
      ∧ getTag (live line17).line 1 = 0
      ∧ getTag (live line17).line 2 = 0
      ∧ getTag (live line17).line 3 = 0
      ∧ getTag (live line18).line 1 = 0
      ∧ getTag (live line18).line 2 = 0
      ∧ getTag (live line18).line 3 = 0
      ∧ Ready (hdr 0 [1, 2]) (busy line15) (live line15)
      ∧ Ready (hdrRel 0 [1, 2] true) (busy line15) (live line15)
      ∧ (0x20000 < windowBase ∧ 0x20000 % 8 = 0)
      ∧ Ready (hdrMod 0 [1, 2] false) (busy line19) (live line19)
      ∧ getTag (live line19).line 2 = 0
      ∧ (ticketSpace 0xFF000100000000 = false ∧ 0xFF000100000000 % 64 = 0 ∧ 0xFF000100000000 < 2 ^ 56)
      ∧ Ready (hdr 0 [1, 2, 3]) (busy line20) (live line20)
      ∧ getTag (live line20).line 1 = 0
      ∧ getTag (live line20).line 2 = 0
      ∧ getTag (live line20).line 3 = 0
      ∧ Ready (hdr 0 [1, 2, 3]) (busy line21) (live line21)
      ∧ getTag (live line21).line 1 = 0
      ∧ getTag (live line21).line 2 = 0
      ∧ getTag (live line21).line 3 = 0
      ∧ ((getG (live line20).line 3 ≠ 0 ∧ (live line20).req = none ∧ (live line20).replies = [] ∧ locate (busy line20) (whoOf (live line20)) .load 0x20010 0 = .ok (.cell 0x20010) ∧ locHeld (busy line20) (.cell 0x20010) = false ∧ readHeld (busy line20) (.cell 0x20010) 8 = false))
      ∧ ((getG (live line21).line 3 ≠ 0 ∧ (live line21).req = none ∧ (live line21).replies = [] ∧ locate (busy line21) (whoOf (live line21)) .load 0x20000 0 = .ok (.cell 0x20000) ∧ locHeld (busy line21) (.cell 0x20000) = false ∧ readHeld (busy line21) (.cell 0x20000) 8 = false))
      ∧ (locate (busy line21) (whoOf (live line21)) .load 0x50000 0 = .error (.trap (mkTrap 6 0 0x50000)) ∧ locateWrite (busy line20) (whoOf (live line20)) 0x30000 0 = .error (.trap (mkTrap 8 1 0x30000)))
      ∧ locate (busy line18) (whoOf (live line18)) .load 0x50000 0 = .error (.trap (mkTrap 6 0 0x50000))
      ∧ locateStore (busy line18) (whoOf (live line18)) 0x50000 8 0 = .error (.trap (mkTrap 6 1 0x50000))
      ∧ locateWrite (busy line18) (whoOf (live line18)) 0x30000 0 = .error (.trap (mkTrap 8 1 0x30000)) := by
  and_intros
  all_goals decide +kernel

def line22 : Line := regs [(2, 0x20010, 0), (3, 0x3F800000, 5)]

/-- An int64 operand, and an f32 one for fadd; a fence. -/
theorem witness_atomic_issue :
    Ready (hdrMod 0 [1, 2, 3] true) (busy line15) (live line15)
      ∧ getTag (live line15).line 2 = 0
      ∧ getTag (live line15).line 3 = 0
      ∧ locateWrite (busy line15) (whoOf (live line15)) 0x20000 0 = .ok (.cell 0x20000)
      ∧ Ready (hdrMod 0 [1, 2, 3] false) (busy line22) (live line22)
      ∧ getTag (live line22).line 3 = 5
      ∧ Ready (hdrRel 0 [] true) (busy line15) (live line15)
      ∧ Ready (hdrRel 0 [] false) (busy line15) (live line15) := by
  and_intros
  all_goals decide +kernel

/-- A line in a first-level cache that waits for register 1, and one that waits to drain. -/
def waiter1 : LiveLine := LiveLine.new 0 0x10000 (.slot 0 0) { regs [(2, 5, 0)] with pend := 0b10, wait := waitTag 1 1 }
def waiter2 : LiveLine := { LiveLine.new 0 0x10000 (.cl1 3) { regs [(2, 5, 0)] with wait := waitTag 11 0 } with stores := 1 }
def waiter3 : LiveLine := { waiter2 with drain := .accesses }

/-- A packet of the line at 0x10000. -/
def packet (b : PktBody) (k : Nat) : Pkt :=
  { id := 7, name := 7, body := b, ans := false, src := 0, dst := 0, tenant := 0, job := 0, line := 0x10000, core := 0, target := k,
    loc := .cell k, dmgen := 0, bufClass := 0, bufId := 0, vc := 0 }

/-- The module with that packet in flight for a waiting line. -/
def flying (b : PktBody) (k : Nat) (x : LiveLine) : State :=
  { busy Line.zero with thr := none, lines := [x], net := [packet b k], nextId := 9 }

/-- A line whose place is its image, which waits for register 1, and the image. -/
def waiter4 : LiveLine := LiveLine.new 0 0x40080 .dram waiter1.line
def imaged (x : LiveLine) : State :=
  { busy Line.zero with thr := none, lines := [x], memory := memPut Memory.zero 0x40080 (lineBytes waiter1.line), nextId := 9 }

/-- The same with a message for the line, and with its directory on a die that moves. -/
def messaged : State := { imaged waiter4 with msgs := [⟨0, 0x40080, .wake 5, none, 0⟩] }
def drainer : LiveLine := { waiter2 with drain := .stores }

/-- A load, a store that fills its word, a maximum, a comparison that holds and one that fails, an f32 sum. -/
theorem witness_memory_packets_perform :
    findPkt (flying (.read 4 5 1) 0x20014 waiter1) 7 = some (packet (.read 4 5 1) 0x20014)
      ∧ (performable (flying (.read 4 5 1) 0x20014 waiter1) (packet (.read 4 5 1) 0x20014) = true ∧ isOurs (flying (.read 4 5 1) 0x20014 waiter1) (packet (.read 4 5 1) 0x20014) = true)
      ∧ poisoned (flying (.read 4 5 1) 0x20014 waiter1).memory 0x20014 4 = false
      ∧ findPkt (flying (.write 8 5 (some true)) 0x20000 waiter1) 7 = some (packet (.write 8 5 (some true)) 0x20000)
      ∧ (performable (flying (.write 8 5 (some true)) 0x20000 waiter1) (packet (.write 8 5 (some true)) 0x20000) = true ∧ isOurs (flying (.write 8 5 (some true)) 0x20000 waiter1) (packet (.write 8 5 (some true)) 0x20000) = true)
      ∧ countAtCore (flying (.write 8 5 (some true)) 0x20000 waiter1) (packet (.write 8 5 (some true)) 0x20000) = true
      ∧ findPkt (flying (.rmw 4 4 0x7FFFFFFF 0 1) 0x20010 waiter1) 7 = some (packet (.rmw 4 4 0x7FFFFFFF 0 1) 0x20010)
      ∧ (performable (flying (.rmw 4 4 0x7FFFFFFF 0 1) 0x20010 waiter1) (packet (.rmw 4 4 0x7FFFFFFF 0 1) 0x20010) = true ∧ isOurs (flying (.rmw 4 4 0x7FFFFFFF 0 1) 0x20010 waiter1) (packet (.rmw 4 4 0x7FFFFFFF 0 1) 0x20010) = true)
      ∧ poisoned (flying (.rmw 4 4 0x7FFFFFFF 0 1) 0x20010 waiter1).memory 0x20010 4 = false
      ∧ findPkt (flying (.rmw 9 4 7 0x80000001 1) 0x20010 waiter1) 7 = some (packet (.rmw 9 4 7 0x80000001 1) 0x20010)
      ∧ (performable (flying (.rmw 9 4 7 0x80000001 1) 0x20010 waiter1) (packet (.rmw 9 4 7 0x80000001 1) 0x20010) = true ∧ isOurs (flying (.rmw 9 4 7 0x80000001 1) 0x20010 waiter1) (packet (.rmw 9 4 7 0x80000001 1) 0x20010) = true)
      ∧ poisoned (flying (.rmw 9 4 7 0x80000001 1) 0x20010 waiter1).memory 0x20010 4 = false
      ∧ findPkt (flying (.rmw 9 4 7 8 1) 0x20010 waiter1) 7 = some (packet (.rmw 9 4 7 8 1) 0x20010)
      ∧ (performable (flying (.rmw 9 4 7 8 1) 0x20010 waiter1) (packet (.rmw 9 4 7 8 1) 0x20010) = true ∧ isOurs (flying (.rmw 9 4 7 8 1) 0x20010 waiter1) (packet (.rmw 9 4 7 8 1) 0x20010) = true)
      ∧ poisoned (flying (.rmw 9 4 7 8 1) 0x20010 waiter1).memory 0x20010 4 = false
      ∧ findPkt (flying (.rmw 10 4 0x3F800000 0 1) 0x20010 waiter1) 7 = some (packet (.rmw 10 4 0x3F800000 0 1) 0x20010)
      ∧ (performable (flying (.rmw 10 4 0x3F800000 0 1) 0x20010 waiter1) (packet (.rmw 10 4 0x3F800000 0 1) 0x20010) = true ∧ isOurs (flying (.rmw 10 4 0x3F800000 0 1) 0x20010 waiter1) (packet (.rmw 10 4 0x3F800000 0 1) 0x20010) = true)
      ∧ poisoned (flying (.rmw 10 4 0x3F800000 0 1) 0x20010 waiter1).memory 0x20010 4 = false
      ∧ memRead (flying (.rmw 9 4 7 8 1) 0x20010 waiter1).memory 0x20010 4 = 0x80000001
      ∧ (10 < 11 ∧ typeSize 5 = 4)
      ∧ Canonical (flying (.write 8 5 (some true)) 0x20000 waiter1) := by
  and_intros
  all_goals decide +kernel

/-- A line that waits for the register in a slot and in its image, with and without a message before; lines that wait to drain in each way; and no line. -/
theorem witness_delivery_to_a_line :
    (findLine (flying (.read 8 16 1) 0x20000 waiter1) 0 0x10000 = some waiter1 ∧ reachable (flying (.read 8 16 1) 0x20000 waiter1) waiter1 = true ∧ msgAhead (flying (.read 8 16 1) 0x20000 waiter1) 0 0x10000 = false)
      ∧ (waiter1.place ≠ .dram ∧ waiter1.line.wait = waitTag 1 (1 : Reg).toNat)
      ∧ findLine (flying (.read 8 16 1) 0x20000 waiter1) 0 0x10080 = none
      ∧ (findLine (imaged waiter4) 0 0x40080 = some waiter4 ∧ reachable (imaged waiter4) waiter4 = true ∧ msgAhead (imaged waiter4) 0 0x40080 = false ∧ cellOf (imaged waiter4) 0 0x40080 = some 0x40080 ∧ (memLine (imaged waiter4).memory 0x40080).wait = waitTag 1 1)
      ∧ Canonical (imaged waiter4)
      ∧ (findLine messaged 0 0x40080 = some waiter4 ∧ msgAhead messaged 0 0x40080 = true)
      ∧ (findLine (flying (.write 8 16 none) 0x20000 waiter2) 0 0x10000 = some waiter2 ∧ waiter2.place ≠ .dram ∧ waiter2.line.wait = waitTag 11 0 ∧ waiter2.line.pend = 0 ∧ waiter2.stores ≤ 1 ∧ waiter2.drain = .all ∧ reachable (flying (.write 8 16 none) 0x20000 waiter2) waiter2 = true ∧ readsDone (flying (.write 8 16 none) 0x20000 waiter2) 0 0x10000 = true ∧ fetchHeld (flying (.write 8 16 none) 0x20000 waiter2) 0 0x10000 = false)
      ∧ (findLine (flying (.write 8 16 none) 0x20000 waiter3) 0 0x10000 = some waiter3 ∧ waiter3.place ≠ .dram ∧ waiter3.line.wait = waitTag 11 0 ∧ waiter3.line.pend = 0 ∧ waiter3.stores ≤ 1 ∧ waiter3.drain = .accesses ∧ reachable (flying (.write 8 16 none) 0x20000 waiter3) waiter3 = true ∧ readsDone (flying (.write 8 16 none) 0x20000 waiter3) 0 0x10000 = true ∧ fetchHeld (flying (.write 8 16 none) 0x20000 waiter3) 0 0x10000 = false)
      ∧ (findLine (flying (.write 8 16 none) 0x20000 drainer) 0 0x10000 = some drainer ∧ drainer.place ≠ .dram ∧ drainer.line.wait = waitTag 11 0 ∧ drainer.line.pend = 0 ∧ drainer.stores ≤ 1 ∧ drainer.drain = .stores ∧ reachable (flying (.write 8 16 none) 0x20000 drainer) drainer = true ∧ readsDone (flying (.write 8 16 none) 0x20000 drainer) 0 0x10000 = true ∧ fetchHeld (flying (.write 8 16 none) 0x20000 drainer) 0 0x10000 = false) := by
  and_intros
  all_goals decide +kernel

/-- The module in which the tenant owns the first vault granule of cluster 0 and the local store of core 0, with the first word of the
vault full or not. -/
def vaulted (full : Bool) (l : Line) : State :=
  { busy l with
    memory := { memWrite Memory.zero windowBase 8 0x1122334455667788 with full := if full then [windowBase] else [] }
    owner := (0, 0) :: (List.range 32).map fun i => (2 ^ 20 + i, 0) }

def line23 : Line := regs [(2, 0xFF000000000000, 0), (1, 5, 0)]

/-- The first word of a vault, full and empty. -/
theorem witness_full_empty_words :
    Ready (hdr 0 [1, 2]) (vaulted true line23) (live line23)
      ∧ Ready (hdrRel 0 [1, 2] true) (vaulted true line23) (live line23)
      ∧ Ready (hdrLook 0 [1, 2] 2 true) (vaulted true line23) (live line23)
      ∧ Canonical (vaulted true line23)
      ∧ locate (vaulted true line23) (whoOf (live line23)) .load 0xFF000000000000 0 = .ok (.cell windowBase)
      ∧ locateWrite (vaulted true line23) (whoOf (live line23)) 0xFF000000000000 0 = .ok (.cell windowBase)
      ∧ (locHeld (vaulted true line23) (.cell windowBase) = false ∧ readHeld (vaulted true line23) (.cell windowBase) 8 = false ∧ poisoned (vaulted true line23).memory windowBase 8 = false)
      ∧ feAt (vaulted true line23).memory windowBase = true
      ∧ Ready (hdr 0 [1, 2]) (vaulted false line23) (live line23)
      ∧ Ready (hdrRel 0 [1, 2] true) (vaulted false line23) (live line23)
      ∧ Ready (hdrLook 0 [1, 2] 2 true) (vaulted false line23) (live line23)
      ∧ Canonical (vaulted false line23)
      ∧ locate (vaulted false line23) (whoOf (live line23)) .load 0xFF000000000000 0 = .ok (.cell windowBase)
      ∧ locateWrite (vaulted false line23) (whoOf (live line23)) 0xFF000000000000 0 = .ok (.cell windowBase)
      ∧ (locHeld (vaulted false line23) (.cell windowBase) = false ∧ readHeld (vaulted false line23) (.cell windowBase) 8 = false ∧ poisoned (vaulted false line23).memory windowBase 8 = false)
      ∧ feAt (vaulted false line23).memory windowBase = false
      ∧ getTag (live line23).line 1 = 0
      ∧ getTag (live line23).line 2 = 0 := by
  and_intros
  all_goals decide +kernel

def line24 : Line := regs [(1, 0x20100, 0), (2, 0x20010, 0), (3, 65, 0)]

def line25 : Line := regs [(1, 0x20100, 0), (2, 0x20010, 0), (3, 0, 0)]

def line26 : Line := regs [(1, 0x20100, 0), (2, 0x20010, 0), (3, 1, 0)]

def line27 : Line := regs [(1, 0x20100, 0), (2, 0x20020, 0), (3, 65, 0)]

/-- 65 elements, none, one, and 65 that agree in the first. -/
theorem witness_block_steps :
    Ready (hdr 0 [1, 2, 3]) (busy line24) (live line24)
      ∧ getTag (live line24).line 1 = 0
      ∧ getTag (live line24).line 2 = 0
      ∧ getTag (live line24).line 3 = 0
      ∧ ((live line24).req = none ∧ (live line24).replies = [])
      ∧ Ready (hdr 0 [1, 2, 3]) (busy line25) (live line25)
      ∧ getTag (live line25).line 1 = 0
      ∧ getTag (live line25).line 2 = 0
      ∧ getTag (live line25).line 3 = 0
      ∧ ((live line25).req = none ∧ (live line25).replies = [])
      ∧ Ready (hdr 0 [1, 2, 3]) (busy line26) (live line26)
      ∧ getTag (live line26).line 1 = 0
      ∧ getTag (live line26).line 2 = 0
      ∧ getTag (live line26).line 3 = 0
      ∧ ((live line26).req = none ∧ (live line26).replies = [])
      ∧ Ready (hdr 0 [1, 2, 3]) (busy line27) (live line27)
      ∧ getTag (live line27).line 1 = 0
      ∧ getTag (live line27).line 2 = 0
      ∧ getTag (live line27).line 3 = 0
      ∧ ((live line27).req = none ∧ (live line27).replies = [])
      ∧ ((getG (live line25).line 3).toNat = 0 ∧ (getG (live line26).line 3).toNat = 1 ∧ (getG (live line24).line 3).toNat ≠ 0)
      ∧ (0x20100 % 8 = 0 ∧ 0x20100 < 2 ^ 56 ∧ locateWrite (busy line24) (whoOf (live line24)) 0x20100 0 = .ok (.cell 0x20100) ∧ locHeld (busy line24) (.cell 0x20100) = false ∧ poisoned (busy line24).memory 0x20100 8 = false)
      ∧ (0x20100 % 8 = 0 ∧ 0x20100 < 2 ^ 56 ∧ locate (busy line24) (whoOf (live line24)) .load 0x20100 0 = .ok (.cell 0x20100) ∧ locHeld (busy line24) (.cell 0x20100) = false ∧ poisoned (busy line24).memory 0x20100 8 = false ∧ readHeld (busy line24) (.cell 0x20100) 8 = false)
      ∧ (0x20100 % 8 = 0 ∧ 0x20100 < 2 ^ 56 ∧ locateWrite (busy line26) (whoOf (live line26)) 0x20100 0 = .ok (.cell 0x20100) ∧ locHeld (busy line26) (.cell 0x20100) = false ∧ poisoned (busy line26).memory 0x20100 8 = false)
      ∧ (0x20100 % 8 = 0 ∧ 0x20100 < 2 ^ 56 ∧ locate (busy line26) (whoOf (live line26)) .load 0x20100 0 = .ok (.cell 0x20100) ∧ locHeld (busy line26) (.cell 0x20100) = false ∧ poisoned (busy line26).memory 0x20100 8 = false ∧ readHeld (busy line26) (.cell 0x20100) 8 = false)
      ∧ (0x20100 % 8 = 0 ∧ 0x20100 < 2 ^ 56 ∧ locateWrite (busy line27) (whoOf (live line27)) 0x20100 0 = .ok (.cell 0x20100) ∧ locHeld (busy line27) (.cell 0x20100) = false ∧ poisoned (busy line27).memory 0x20100 8 = false)
      ∧ (0x20100 % 8 = 0 ∧ 0x20100 < 2 ^ 56 ∧ locate (busy line27) (whoOf (live line27)) .load 0x20100 0 = .ok (.cell 0x20100) ∧ locHeld (busy line27) (.cell 0x20100) = false ∧ poisoned (busy line27).memory 0x20100 8 = false ∧ readHeld (busy line27) (.cell 0x20100) 8 = false)
      ∧ (0x20010 % 8 = 0 ∧ 0x20010 < 2 ^ 56 ∧ locate (busy line24) (whoOf (live line24)) .load 0x20010 0 = .ok (.cell 0x20010) ∧ locHeld (busy line24) (.cell 0x20010) = false ∧ poisoned (busy line24).memory 0x20010 8 = false ∧ readHeld (busy line24) (.cell 0x20010) 8 = false)
      ∧ (0x20010 % 8 = 0 ∧ 0x20010 < 2 ^ 56 ∧ locate (busy line26) (whoOf (live line26)) .load 0x20010 0 = .ok (.cell 0x20010) ∧ locHeld (busy line26) (.cell 0x20010) = false ∧ poisoned (busy line26).memory 0x20010 8 = false ∧ readHeld (busy line26) (.cell 0x20010) 8 = false)
      ∧ (0x20020 % 8 = 0 ∧ 0x20020 < 2 ^ 56 ∧ locate (busy line27) (whoOf (live line27)) .load 0x20020 0 = .ok (.cell 0x20020) ∧ locHeld (busy line27) (.cell 0x20020) = false ∧ poisoned (busy line27).memory 0x20020 8 = false ∧ readHeld (busy line27) (.cell 0x20020) 8 = false)
      ∧ (¬ memRead (busy line24).memory 0x20100 8 = memRead (busy line24).memory 0x20010 8)
      ∧ (¬ memRead (busy line26).memory 0x20100 8 = memRead (busy line26).memory 0x20010 8)
      ∧ memRead (busy line27).memory 0x20100 8 = memRead (busy line27).memory 0x20020 8
      ∧ Canonical (busy line26) := by
  and_intros
  all_goals decide +kernel

/-- Entry 17 of slice 5, in a window of 16 entries that the job holds. -/
def ticketed (st : Nat) (l : Line) : State :=
  setTicket (setSlice (busy l) 5 ⟨[], [⟨0, 0, 16, 16⟩]⟩) 5 17
    { TicketEntry.zero with state := st, gen := 3, data := [1, 2, 3, 4, 5, 6, 7, 8], key := 0x20000 }

def line28 : Line := regs [(2, 0xC000405, 9), (3, 0, 0)]

def line29 : Line := regs [(2, 0x8000405, 9), (3, 0, 0)]

/-- A pending entry, a complete one, a stale name; a load from plain memory. -/
theorem witness_ticket_words :
    Ready (hdrMod 0 [1, 2] false) (busy line15) (live line15)
      ∧ getTag (live line15).line 2 = 0
      ∧ (0x20000 % 8 = 0 ∧ ticketSpace 0x20000 = true ∧ locate (busy line15) (whoOf (live line15)) .load 0x20000 0 = .ok (.cell 0x20000))
      ∧ Ready (hdr 0 [1, 2]) (ticketed 1 line28) (live line28)
      ∧ Ready (hdr 0 [1, 2, 3]) (ticketed 1 line28) (live line28)
      ∧ ticketEntry (ticketed 1 line28) 0 0 0xC000405 = some 17
      ∧ ((getTicket (ticketed 1 line28) 5 17).state = 1 ∧ (getTicket (ticketed 1 line28) 5 17).gen ≠ 0xFFFF)
      ∧ Ready (hdr 0 [1, 2]) (ticketed 2 line28) (live line28)
      ∧ Ready (hdr 0 [1, 2, 3]) (ticketed 2 line28) (live line28)
      ∧ ticketEntry (ticketed 2 line28) 0 0 0xC000405 = some 17
      ∧ ((getTicket (ticketed 2 line28) 5 17).state = 2 ∧ (getTicket (ticketed 2 line28) 5 17).gen ≠ 0xFFFF)
      ∧ (ticketBad 0xC000405 = false ∧ tkSize 0xC000405 = 0 ∧ dieHeld (ticketed 1 line28) (dieOfSlice 5) = false)
      ∧ getTag (live line28).line 2 = 9
      ∧ Ready (hdr 0 [1, 2]) (ticketed 1 line29) (live line29)
      ∧ Ready (hdr 0 [1, 2, 3]) (ticketed 1 line29) (live line29)
      ∧ (ticketEntry (ticketed 1 line29) 0 0 0x8000405 = none ∧ (live line29).line.tfb = false) := by
  and_intros
  all_goals decide +kernel

/-- Counter 2 of core 1. -/
def counting (e : Counter) (l : Line) : State := setCounter (busy l) 1 2 e

def line30 : Line := regs [(2, 66, 0), (3, 3, 0)]

def line31 : Line := regs [(2, 66, 0), (3, 0x7FFFFFFF, 0)]

def line32 : Line := regs [(2, 66, 0), (3, 6, 0)]

/-- A counter of the tenant, the last expectation in range and the first beyond, and a counter of another tenant. -/
theorem witness_counter_words :
    Ready (hdrRel 0 [2, 3] true) (counting ⟨5, 5, 0, true, false⟩ line30) (live line30)
      ∧ Ready (hdr 0 [2, 3]) (counting ⟨5, 5, 0, true, false⟩ line30) (live line30)
      ∧ Ready (hdr 0 [1, 2]) (counting ⟨5, 5, 0, true, false⟩ line30) (live line30)
      ∧ getTag (live line30).line 2 = 0
      ∧ getTag (live line30).line 3 = 0
      ∧ (66 < 2 ^ 17 ∧ (getDie (counting ⟨5, 5, 0, true, false⟩ line30) 0).state ≠ 3 ∧ dieHeld (counting ⟨5, 5, 0, true, false⟩ line30) 0 = false)
      ∧ ackOf (issueCtx (hdrRel 0 [2, 3] true) (live line30)) = false
      ∧ ackOf (issueCtx (hdrRel 0 [2, 3] true) { live line30 with md := some 2 }) = true
      ∧ postAhead (counting ⟨5, 5, 0, true, false⟩ line30) 0 0x10000 66 0 = false
      ∧ ((getCounter (counting ⟨5, 5, 0, true, false⟩ line30) 1 2).valid = true ∧ (getCounter (counting ⟨5, 5, 0, true, false⟩ line30) 1 2).tenant = 0)
      ∧ (((5 : BitVec 32) + 3 - 5).msb = false ∧ ((5 : BitVec 32) - 3).msb = false)
      ∧ Ready (hdr 0 [2, 3]) (counting ⟨5, 6, 0, true, false⟩ line31) (live line31)
      ∧ ((6 : BitVec 32) + 0x7FFFFFFF - 5).msb = true
      ∧ Ready (hdr 0 [2, 3]) (counting ⟨5, 5, 0, true, false⟩ line32) (live line32)
      ∧ ((5 : BitVec 32) - 6).msb = true
      ∧ Ready (hdr 0 [1, 2]) (counting ⟨5, 5, 1, true, false⟩ line30) (live line30)
      ∧ (¬ (getCounter (counting ⟨5, 5, 1, true, false⟩ line30) 1 2).tenant = 0) := by
  and_intros
  all_goals decide +kernel

/-- A record of the tenant that counts at `j`, with serial `n`. -/
def record (j : BitVec 56) (n : BitVec 32) : TaskRec :=
  { pc := 0x100, g0 := 1, g1 := 2, g2 := 3, g3 := 4, jaddr := j, tenant := 0, job := 0, prio := 3, sdom := 1, cont := false, tags := 0,
    origin := 0, serial := n, held := false }

/-- Core 0 with records 4 and 5 in its deque and 3 in its ring. -/
def spawning (l : Line) : State :=
  setCore (busy l) 0 { Core.zero with deque := [record 0 4, record 0x20000 5], ring := [record 0x20008 3], serial := 6 }

def line33 : Line := { regs [(2, 0x100, 0x0C), (3, 0, 0), (0, 11, 3), (1, 12, 0)] with prio := 5 }

def line34 : Line := { regs [(2, 0x100, 0), (3, 0x20000, 0), (0, 11, 3), (1, 12, 0)] with prio := 5 }

def line35 : Line := { regs [(2, 5, 0), (3, 0, 0), (0, 11, 3), (1, 12, 0)] with prio := 5 }

def line36 : Line := { regs [(2, 4, 0), (3, 0, 0), (0, 11, 3), (1, 12, 0)] with prio := 5 }

def line37 : Line := { regs [(2, 9, 0), (3, 0, 0), (0, 11, 3), (1, 12, 0)] with prio := 5 }

/-- A spawn without and with a counter, and one behind a store; cancels of a record without and with one, and of none. -/
theorem witness_spawn_and_cancel :
    Ready (hdr 0 [1, 2, 3, 0, 1, 2, 3]) (spawning line33) (live line33)
      ∧ (codeAligned 0x100 = true ∧ (dequePush (getCore (spawning line33) 0) (record 0 6)).isSome = true)
      ∧ AccessesDone (spawning line33) (live line33)
      ∧ ((live line33).req = none ∧ (live line33).replies = [])
      ∧ Ready (hdr 0 [1, 2, 3, 0, 1, 2, 3]) (spawning line34) (live line34)
      ∧ (codeAligned 0x100 = true ∧ (dequePush (getCore (spawning line34) 0) (record 0 6)).isSome = true)
      ∧ AccessesDone (spawning line34) (live line34)
      ∧ ((live line34).req = none ∧ (live line34).replies = [])
      ∧ Ready (hdr 0 [1, 2, 3, 0, 1, 2, 3]) { spawning line33 with thr := some { live line33 with stores := 1 } } { live line33 with stores := 1 }
      ∧ (getG (live line33).line 3 = 0 ∧ ({ live line33 with stores := 1 }).stores ≠ 0)
      ∧ getTag (live line33).line 2 = 0x0C
      ∧ getTag (live line33).line 3 = 0
      ∧ getTag (live line34).line 2 = 0
      ∧ counterLoc (spawning line34) (issueCtx (hdr 0 [1, 2, 3, 0, 1, 2, 3]) (live line34)) 0x20000 = .ok (.cell 0x20000)
      ∧ (locHeld (spawning line34) (.cell 0x20000) = false ∧ poisoned (spawning line34).memory 0x20000 8 = false ∧ readHeld (spawning line34) (.cell 0x20000) 8 = false)
      ∧ Canonical (spawning line34)
      ∧ Ready (hdr 0 [1, 2]) (spawning line36) (live line36)
      ∧ ((live line36).req = none ∧ (live line36).replies = [])
      ∧ Ready (hdr 0 [1, 2]) (spawning line35) (live line35)
      ∧ ((live line35).req = none ∧ (live line35).replies = [])
      ∧ Ready (hdr 0 [1, 2]) (spawning line37) (live line37)
      ∧ ((live line37).req = none ∧ (live line37).replies = [])
      ∧ ((getCore (spawning line36) 0).ring ++ (getCore (spawning line36) 0).deque).find? (isRecord 0 0 4) = some (record 0 4)
      ∧ ((getCore (spawning line35) 0).ring ++ (getCore (spawning line35) 0).deque).find? (isRecord 0 0 5) = some (record 0x20000 5)
      ∧ ((getCore (spawning line37) 0).ring ++ (getCore (spawning line37) 0).deque).find? (isRecord 0 0 9) = none
      ∧ getTag (live line35).line 2 = 0
      ∧ (getCore (spawning line35) 0).serial ≠ 0
      ∧ (locateWrite (spawning line35) (whoOf (live line35)) 0x20000 0 = .ok (.cell 0x20000) ∧ drained (spawning line35) (live line35) = true)
      ∧ (locHeld (spawning line35) (.cell 0x20000) = false ∧ poisoned (spawning line35).memory 0x20000 8 = false ∧ readHeld (spawning line35) (.cell 0x20000) 8 = false) := by
  and_intros
  all_goals decide +kernel

def line38 : Line := regs [(2, 0x20000, 0)]

def line39 : Line := regs [(2, 0xFF000003000000, 0)]

def line40 : Line := regs [(2, 2047, 0)]

def line41 : Line := regs [(2, 2048, 0)]

/-- A drained line that is no root, with a counter, a cluster, a die, the last core and the first number beyond. -/
theorem witness_thread_ends_and_moves :
    Ready (hdr 0 []) (busy line38) (live line38)
      ∧ Ready (hdr 0 [2]) (busy line38) (live line38)
      ∧ getTag (live line38).line 2 = 0
      ∧ (drained (busy line38) (live line38) = true ∧ dirHeld (busy line38) (live line38) = false ∧ (live line38).req = none ∧ (live line38).replies = [])
      ∧ (drained (busy line39) (live line39) = true ∧ dirHeld (busy line39) (live line39) = false ∧ (live line39).req = none ∧ (live line39).replies = [])
      ∧ (drained (busy line40) (live line40) = true ∧ dirHeld (busy line40) (live line40) = false ∧ (live line40).req = none ∧ (live line40).replies = [])
      ∧ (drained (busy line41) (live line41) = true ∧ dirHeld (busy line41) (live line41) = false ∧ (live line41).req = none ∧ (live line41).replies = [])
      ∧ Ready (hdr 0 [2]) (busy line39) (live line39)
      ∧ getTag (live line39).line 2 = 0
      ∧ getTag (live line40).line 2 = 0
      ∧ (2 ^ 11 ≤ (getG (live line41).line 2).toNat ∧ (getG (live line40).line 2).toNat < 2 ^ 11)
      ∧ ((live line38).line.root = false ∧ (live line38).derr = [] ∧ heldLines (busy line38) 0 0x10000 = [])
      ∧ counterLoc (busy line38) (issueCtx (hdr 0 [2]) (live line38)) 0x20000 = .ok (.cell 0x20000)
      ∧ (locHeld (busy line38) (.cell 0x20000) = false ∧ poisoned (busy line38).memory 0x20000 8 = false ∧ readHeld (busy line38) (.cell 0x20000) 8 = false)
      ∧ Canonical (busy line38)
      ∧ goTarget (busy line38) (whoOf (live line38)) 0x20000 = .ok (.die 0)
      ∧ goTarget (busy line39) (whoOf (live line39)) 0xFF000003000000 = .ok (.cluster 3)
      ∧ ((getDie (busy line38) 0).state < 2 ∧ (getDie (busy line40) (2047 / 256)).state < 2)
      ∧ Ready (hdr 0 [2]) (busy line40) (live line40)
      ∧ Ready (hdr 0 [2]) (busy line41) (live line41) := by
  and_intros
  all_goals decide +kernel

def line42 : Line := regs [(2, 0x20008, 0), (3, 0, 0)]

def line43 : Line := regs [(2, 0x20000, 0), (3, 0, 0)]

/-- A word that is zero and one that is not; a slot with no candidate and one with a candidate. -/
theorem witness_thread_waits :
    Ready (hdr 0 [2]) (busy line42) (live line42)
      ∧ Ready (hdr 0 [1, 2, 3]) (busy line42) (live line42)
      ∧ locate (busy line42) (whoOf (live line42)) .load 0x20008 0 = .ok (.cell 0x20008)
      ∧ (locHeld (busy line42) (.cell 0x20008) = false ∧ readHeld (busy line42) (.cell 0x20008) 8 = false ∧ poisoned (busy line42).memory 0x20008 8 = false)
      ∧ Ready (hdr 0 [2]) (busy line43) (live line43)
      ∧ Ready (hdr 0 [1, 2, 3]) (busy line43) (live line43)
      ∧ locate (busy line43) (whoOf (live line43)) .load 0x20000 0 = .ok (.cell 0x20000)
      ∧ (locHeld (busy line43) (.cell 0x20000) = false ∧ readHeld (busy line43) (.cell 0x20000) 8 = false ∧ poisoned (busy line43).memory 0x20000 8 = false)
      ∧ getTag (live line42).line 2 = 0
      ∧ getTag (live line42).line 3 = 0
      ∧ (memRead (busy line42).memory 0x20008 8 = 0 ∧ memRead (busy line43).memory 0x20000 8 ≠ 0)
      ∧ Ready (hdr 0 []) (busy line42) (live line42)
      ∧ Ready (hdr 0 [1]) (busy line42) (live line42)
      ∧ hasCandidate (busy line42) 0 = false
      ∧ hasCandidate { busy line42 with lines := [LiveLine.new 0 0x40080 (.cl1 0) Line.zero] } 0 = true := by
  and_intros
  all_goals decide +kernel

/-- A queue table at 0x20000 whose entry 1 has this head, tail and state, and its image at 0x20100. -/
def queued (h t : BitVec 32) (st : BitVec 2) (l : Line) : State :=
  let s := { busy l with
    tenants := [(0, { tenantA with qtabBase := 0x20000, qtabLen := 8 })]
    memory := memWrite Memory.zero (0x20100 + 8 * (h.toNat % 16)) 8 0xFEED }
  writeEntry s (0x20000 + 32) ⟨5, st, 0, 4, false, 0, 0, 0x20100, h, t⟩

def line44 : Line := regs [(2, 0x500001, 0), (3, 9, 0)]

def line45 : Line := regs [(2, 0x400001, 0), (3, 0x20200, 0)]

/-- A queue whose counts have wrapped, an empty one, and a free entry with the least capacity. -/
theorem witness_queue_words :
    Ready (hdrRel 0 [2, 3] true) (queued 0xFFFFFFFF 0 1 line44) (live line44)
      ∧ Ready (hdr 0 [1, 2]) (queued 0xFFFFFFFF 0 1 line44) (live line44)
      ∧ Ready (hdr 0 [2]) (queued 0xFFFFFFFF 0 1 line44) (live line44)
      ∧ getTag (live line44).line 2 = 0
      ∧ ackOf (issueCtx (hdrRel 0 [2, 3] true) (live line44)) = false
      ∧ Canonical (queued 0xFFFFFFFF 0 1 line44)
      ∧ entryLoc (queued 0xFFFFFFFF 0 1 line44) 0 0 (.core 0) 1 = .ok 0x20020
      ∧ (poisoned (queued 0xFFFFFFFF 0 1 line44).memory 0x20020 32 = false ∧ namesLive (queued 0xFFFFFFFF 0 1 line44) 0 0x500001 (readEntry (queued 0xFFFFFFFF 0 1 line44).memory 0x20020) = true ∧ (readEntry (queued 0xFFFFFFFF 0 1 line44).memory 0x20020).state = 1)
      ∧ Canonical (queued 3 3 1 line44)
      ∧ entryLoc (queued 3 3 1 line44) 0 0 (.core 0) 1 = .ok 0x20020
      ∧ (poisoned (queued 3 3 1 line44).memory 0x20020 32 = false ∧ namesLive (queued 3 3 1 line44) 0 0x500001 (readEntry (queued 3 3 1 line44).memory 0x20020) = true ∧ (readEntry (queued 3 3 1 line44).memory 0x20020).state = 1)
      ∧ imageSwapped (queued 0xFFFFFFFF 0 1 line44) (whoOf (live line44)) (readEntry (queued 0xFFFFFFFF 0 1 line44).memory 0x20020).image.toNat (imagePages (readEntry (queued 0xFFFFFFFF 0 1 line44).memory 0x20020).log2cap.toNat) = none
      ∧ tableLoc (queued 0xFFFFFFFF 0 1 line44) (whoOf (live line44)) (elemVa (readEntry (queued 0xFFFFFFFF 0 1 line44).memory 0x20020) 0xFFFFFFFF) = .ok 0x20178
      ∧ poisoned (queued 0xFFFFFFFF 0 1 line44).memory 0x20178 8 = false
      ∧ Ready (hdr 0 [1, 2, 3]) (queued 3 3 0 line45) (live line45)
      ∧ getTag (live line45).line 2 = 0
      ∧ getTag (live line45).line 3 = 0
      ∧ (0x400001 / 2 ^ 20 % 2 ^ 5 = 4 ∧ 1 < (getTenant (queued 3 3 0 line45) 0).qtabLen ∧ 0x20200 % (8 * 2 ^ 4) = 0)
      ∧ imageStop (queued 3 3 0 line45) (whoOf (live line45)) 0x20200 ((8 * 2 ^ 4 + 65535) / 65536) = none
      ∧ (entryLoc (queued 3 3 0 line45) 0 0 (.core 0) 1 = .ok 0x20020 ∧ poisoned (queued 3 3 0 line45).memory 0x20020 32 = false ∧ (readEntry (queued 3 3 0 line45).memory 0x20020).state = 0) := by
  and_intros
  all_goals decide +kernel

/-- A valid tile of tenant 0 at granule `k` of the vault. -/
def tile (k rows cols : Nat) (fmt : BitVec 4) : TdtEntry :=
  { TdtEntry.zero with
    base := BitVec.ofNat 24 (65536 * k), rowsm1 := BitVec.ofNat 12 (rows - 1), colsm1 := BitVec.ofNat 12 (cols - 1), fmt := fmt
    stride := 1024, gen := 3, state := 2 }

/-- Cluster 0 with tiles 1 to 3 and 6 to 9, an active plane of 64 rows, and the 64-byte block `b` at 0x20000. -/
def engines (b : Nat) (l : Line) : State :=
  let s := { busy l with memory := memWrite Memory.zero 0x20000 64 b, owner := (List.range 64).map fun i => (i, 0) }
  setCluster s 0 { getCluster s 0 with
    tdt := [(1, tile 1 16 64 1), (2, tile 2 16 32 0), (3, tile 3 16 32 0), (6, tile 6 16 64 0), (7, tile 7 16 64 0), (8, tile 8 16 64 0),
      (9, tile 9 1 64 0)]
    active := { Plane.zero with fmt := 1, k := 64, n := 32 } }

/-- Guard slot 9 of cluster 0, with GEN 7. -/
def guarded (st b : Nat) (l : Line) : State := setGuard (engines b l) 0 9 ⟨st, 0, 0, 7⟩

/-- The template of a tile at 0x20000. -/
def templated (e : TdtEntry) (l : Line) : State :=
  { engines 0 l with memory := memWrite Memory.zero 0x20000 32 (tdtNat { e with gen := 0, state := 0, tenant := 0 }) }

def line46 : Line := regs [(2, 0x20000, 0), (3, 2103296, 0)]

def line47 : Line := regs [(2, 0x20000, 0), (3, 2103552, 0)]

def line48 : Line := regs [(2, 0x1003, 8), (3, 0x20000, 0)]

/-- A talloc whose entry is allocated and whose clearing is next. -/
def clearer : LiveLine := { live line47 with req := some (scrubMark 0 12) }
def clearing : State := setTdt { templated (tile 12 16 64 1) line47 with thr := some clearer } 0 12 { tile 12 16 64 1 with state := 1 }

/-- A template, a placement at index 12 without and with a clearing, one without an index, a clearing under way, and a valid tile. -/
theorem witness_tile_words :
    Ready (hdr 0 [1, 2, 3]) (templated (tile 12 16 64 1) line43) (live line43)
      ∧ Ready (hdr 0 [1, 2, 3]) (templated (tile 12 16 64 1) line46) (live line46)
      ∧ Ready (hdr 0 [1, 2, 3]) (templated (tile 12 16 64 1) line47) (live line47)
      ∧ getTag (live line47).line 2 = 0
      ∧ getTag (live line47).line 3 = 0
      ∧ (2103552 / 2 ^ 8 % 2 = 1 ∧ 2103552 < 2 ^ 22)
      ∧ (getTdt (templated (tile 12 16 64 1) line47) 0 12).state = 0
      ∧ Ready (hdr 0 [1, 2, 3]) clearing clearer
      ∧ ((getDie clearing 0).state < 3 ∧ dieHeld clearing 0 = false ∧ clearer.req = some (scrubMark 0 12))
      ∧ ((tile 12 16 64 1).base.toNat % 64 = 0 ∧ (tile 12 16 64 1).bexp.toNat % 64 = 0 ∧ (tile 12 16 64 1).stride.toNat % 64 = 0 ∧ (tile 12 16 64 1).ranges ≠ [] ∧ (getTdt clearing 0 12).state = 1 ∧ (getTdt clearing 0 12).ranges = (tile 12 16 64 1).ranges)
      ∧ Canonical clearing
      ∧ getTag (live line43).line 2 = 0
      ∧ getTag (live line43).line 3 = 0
      ∧ getTag (live line46).line 2 = 0
      ∧ getTag (live line46).line 3 = 0
      ∧ ((live line43).req = none ∧ (live line43).replies = [])
      ∧ locate (templated (tile 12 16 64 1) line43) (whoOf (live line43)) .load 0x20000 0 = .ok (.cell 0x20000)
      ∧ (∀ i, i < 4 → readHeld (templated (tile 12 16 64 1) line43) (.cell (0x20000 + 8 * i)) 8 = false ∧ poisoned (templated (tile 12 16 64 1) line43).memory (0x20000 + 8 * i) 8 = false ∧ locHeld (templated (tile 12 16 64 1) line43) (.cell (0x20000 + 8 * i)) = false)
      ∧ ((getDie (templated (tile 12 16 64 1) line43) 0).state < 3 ∧ dieHeld (templated (tile 12 16 64 1) line43) (dieOfCluster 0) = false)
      ∧ (templateOk (templated (tile 12 16 64 1) line43) 0 (memRead (templated (tile 12 16 64 1) line43).memory 0x20000 32) = true ∧ tileNotOwned (templated (tile 12 16 64 1) line43) 0 0 (tdtOf (memRead (templated (tile 12 16 64 1) line43).memory 0x20000 32)) = none)
      ∧ (0 / 2 ^ 8 % 2 = 0 ∧ 2103296 / 2 ^ 8 % 2 = 0 ∧ 2103296 / 2 ^ 21 = 1 ∧ 2103296 / 2 ^ 9 % 2 ^ 12 = 12)
      ∧ ((getTdt (templated (tile 12 16 64 1) line46) 0 12).state = 0 ∧ (getTdt (templated (tile 12 16 64 1) line43) 0 0).state = 0)
      ∧ Ready (hdr 0 [2]) (templated (tile 12 16 64 1) line48) (live line48)
      ∧ Ready (hdr 0 [1, 2]) (templated (tile 12 16 64 1) line48) (live line48)
      ∧ Ready (hdr 0 [1, 2, 3]) (templated (tile 12 16 64 1) line48) (live line48)
      ∧ getTag (live line48).line 3 = 0
      ∧ tileOperand (templated (tile 12 16 64 1) line48) (issueCtx (hdr 0 [2]) (live line48)) 2 = .ok ⟨0, 0x1003, tile 1 16 64 1⟩
      ∧ tileOperand (templated (tile 12 16 64 1) line48) (issueCtx (hdr 0 [1, 2]) (live line48)) 2 = .ok ⟨0, 0x1003, tile 1 16 64 1⟩
      ∧ tileOperand (templated (tile 12 16 64 1) line48) (issueCtx (hdr 0 [1, 2, 3]) (live line48)) 2 = .ok ⟨0, 0x1003, tile 1 16 64 1⟩
      ∧ (getTdt (templated (tile 12 16 64 1) line48) 0 (handleIndex 0x1003) = tile 1 16 64 1 ∧ (tile 1 16 64 1).gen ≠ 0xFFF ∧ (tile 1 16 64 1).state ≠ 0)
      ∧ locate (templated (tile 12 16 64 1) line48) (whoOf (live line48)) .load 0x20000 0 = .ok (.cell 0x20000)
      ∧ (∀ i, i < 4 → readHeld (templated (tile 12 16 64 1) line48) (.cell (0x20000 + 8 * i)) 8 = false ∧ poisoned (templated (tile 12 16 64 1) line48).memory (0x20000 + 8 * i) 8 = false ∧ locHeld (templated (tile 12 16 64 1) line48) (.cell (0x20000 + 8 * i)) = false)
      ∧ ((getDie (templated (tile 12 16 64 1) line48) 0).state < 3 ∧ dieHeld (templated (tile 12 16 64 1) line48) (dieOfCluster 0) = false)
      ∧ (templateOk (templated (tile 12 16 64 1) line48) 0 (memRead (templated (tile 12 16 64 1) line48).memory 0x20000 32) = true ∧ tileNotOwned (templated (tile 12 16 64 1) line48) 0 0 (tdtOf (memRead (templated (tile 12 16 64 1) line48).memory 0x20000 32)) = none)
      ∧ locateWrite (templated (tile 12 16 64 1) line48) (whoOf (live line48)) 0x20000 0 = .ok (.cell 0x20000)
      ∧ (∀ i, i < 4 → locHeld (templated (tile 12 16 64 1) line48) (.cell (0x20000 + 8 * i)) = false)
      ∧ Canonical (templated (tile 12 16 64 1) line48) := by
  and_intros
  all_goals decide +kernel

/-- The tile that handle `k` names. -/
def named (k : Nat) (e : TdtEntry) : Tile := ⟨0, BitVec.ofNat 32 (k * 4096 + 3), e⟩
def weights : Tile := named 1 (tile 1 16 64 1)
def target : Tile := named 2 (tile 2 16 32 0)
def staged : Tile := named 3 (tile 3 16 32 0)

/-- A stream block with staging and a completion counter, and one with a reserved bit. -/
def streamBlock : Nat := (1 * 4096 + 3) * 2 ^ 0 + (2 * 4096 + 3) * 2 ^ 32 + (3 * 4096 + 3) * 2 ^ 64 + 0x100 * 2 ^ 128 + 1 * 2 ^ 176 + 77 * 2 ^ 192 + (1 + 4 * 2 + 9 * 128) * 2 ^ 256
def badStream : Nat := (1 * 4096 + 3) * 2 ^ 0 + (2 * 4096 + 3) * 2 ^ 32 + 0x101 * 2 ^ 448

/-- Tread blocks: three tiles; a reduction to a register; a reserved bit. -/
def addBlock : Nat := (6 * 4096 + 3) * 2 ^ 0 + (7 * 4096 + 3) * 2 ^ 32 + (8 * 4096 + 3) * 2 ^ 64 + (1 + 5 * 2 + 3 * 128) * 2 ^ 132
def sumBlock : Nat := (9 * 4096 + 3) * 2 ^ 32 + 8 * 2 ^ 128 + (1 + 5 * 2 + 3 * 128) * 2 ^ 132
def badAdd : Nat := (6 * 4096 + 3) * 2 ^ 0 + (7 * 4096 + 3) * 2 ^ 32 + (8 * 4096 + 3) * 2 ^ 64 + 1 * 2 ^ 128 + 1 * 2 ^ 160

/-- A guarded form, and one without a guard. -/
def formG : EForm := ⟨1, 9, 0, 1, 2⟩
def formN : EForm := ⟨0, 0, 0, 1, 2⟩

/-- A capture at the Last of cluster 0. -/
def atLast (op : CmdOp) : Capture := ⟨lastOf 0, formG, 0, 1, none, none, op, false⟩

def line49 : Line := regs [(2, 3, 0)]

def line50 : Line := regs [(2, 0x2003, 8)]

def line51 : Line := regs [(2, 0x1003, 8)]

/-- A guarded command that enters, a slot that is free, a weight tile and one that is none, a legal lcfg. -/
theorem witness_last_words :
    Ready (hdr 0 [1]) (guarded 1 streamBlock line38) (live line38)
      ∧ Ready (hdr 0 [1, 2]) (guarded 1 streamBlock line38) (live line38)
      ∧ Enters (guarded 1 streamBlock line38) (live line38) 0 (atLast .lswap)
      ∧ Ready (hdr 0 [1]) (guarded 1 streamBlock line49) (live line49)
      ∧ Ready (hdr 0 [1, 2]) (guarded 1 streamBlock line49) (live line49)
      ∧ Enters (guarded 1 streamBlock line49) (live line49) 0 (atLast .lswap)
      ∧ Ready (hdr 0 [1]) (guarded 1 streamBlock line51) (live line51)
      ∧ Ready (hdr 0 [1, 2]) (guarded 1 streamBlock line51) (live line51)
      ∧ Enters (guarded 1 streamBlock line51) (live line51) 0 (atLast .lswap)
      ∧ Ready (hdr 0 [1]) (guarded 1 streamBlock line50) (live line50)
      ∧ Ready (hdr 0 [1, 2]) (guarded 1 streamBlock line50) (live line50)
      ∧ Enters (guarded 1 streamBlock line50) (live line50) 0 (atLast .lswap)
      ∧ Serves (guarded 0 streamBlock line38) 0
      ∧ guardFree (guarded 0 streamBlock line38) 0 0 formG = true
      ∧ Ready (hdr 0 [1]) (guarded 0 streamBlock line38) (live line38)
      ∧ (tileOperand (guarded 1 streamBlock line51) (issueCtx (hdr 0 [1, 2]) (live line51)) 2 = .ok weights ∧ weightOk 0 weights = true)
      ∧ (tileOperand (guarded 1 streamBlock line50) (issueCtx (hdr 0 [1, 2]) (live line50)) 2 = .ok target ∧ weightOk 0 target = false)
      ∧ getTag (live line49).line 2 = 0
      ∧ getTag (live line38).line 2 = 0
      ∧ ((live line38).req = none ∧ (live line38).replies = []) := by
  and_intros
  all_goals first | decide +kernel | (unfold AccessesDone; decide +kernel)

/-- A good stream block, and one with a reserved bit set. -/
theorem witness_last_words_stream :
    Ready (hdr 0 [1, 2]) (guarded 1 streamBlock line38) (live line38)
      ∧ Enters (guarded 1 streamBlock line38) (live line38) 0 (atLast .lswap)
      ∧ Readable (guarded 1 streamBlock line38) (live line38) 0x20000 64 0x20000
      ∧ memRead (guarded 1 streamBlock line38).memory 0x20000 64 = streamBlock
      ∧ blockTiles (guarded 1 streamBlock line38) (issueCtx (hdr 0 [1, 2]) (live line38)) (streamHandles streamBlock) = .ok [weights, target, staged]
      ∧ firstBad (streamChecks (guarded 1 streamBlock line38) 0 (planeAhead (guarded 1 streamBlock line38) 0) streamBlock weights target (some staged)) = none
      ∧ Ready (hdr 0 [1, 2]) (guarded 1 badStream line38) (live line38)
      ∧ Enters (guarded 1 badStream line38) (live line38) 0 (atLast .lswap)
      ∧ Readable (guarded 1 badStream line38) (live line38) 0x20000 64 0x20000
      ∧ memRead (guarded 1 badStream line38).memory 0x20000 64 = badStream
      ∧ blockTiles (guarded 1 badStream line38) (issueCtx (hdr 0 [1, 2]) (live line38)) (streamHandles badStream) = .ok [weights, target]
      ∧ (firstBad (streamChecks (guarded 1 badStream line38) 0 (planeAhead (guarded 1 badStream line38) 0) badStream weights target none)).isSome = true := by
  and_intros
  all_goals first | decide +kernel | (unfold AccessesDone; decide +kernel) | exact within (by decide +kernel)

def tiles3 : TreadTiles := ⟨some (named 6 (tile 6 16 64 0)), named 7 (tile 7 16 64 0), some (named 8 (tile 8 16 64 0)), none⟩
def tiles1 : TreadTiles := ⟨none, named 9 (tile 9 1 64 0), none, none⟩

/-- The capture of a tread block. -/
def atTread (fn n : Nat) (res : Option (Reg × Byte)) (u : TreadTiles) : Capture :=
  ⟨treadOf 0, formN, 0, 1, res, postOf n 132, .tread fn u.dst (some u.src1) u.src2 u.src3 (bfield n 128 2) (bfield n 130 1 == 1), false⟩

/-- A block of three tiles, a reduction to a register, and a block with a reserved bit set. -/
theorem witness_tread_words :
    Ready (hdr 0 [1, 2]) (engines addBlock line38) (live line38)
      ∧ Readable (engines addBlock line38) (live line38) 0x20000 64 0x20000
      ∧ memRead (engines addBlock line38).memory 0x20000 64 = addBlock
      ∧ (match treadTiles (engines addBlock line38) (issueCtx (hdr 0 [1, 2]) (live line38)) 0 addBlock with
        | .ok u => u.dst == tiles3.dst && u.src1 == tiles3.src1 && u.src2 == tiles3.src2 && u.src3 == tiles3.src3
        | .error _ => false) = true
      ∧ Enters (engines addBlock line38) (live line38) 0 (atTread 0 addBlock none tiles3)
      ∧ Ready (hdr 0 [1, 2, 3]) (engines sumBlock line38) (live line38)
      ∧ Readable (engines sumBlock line38) (live line38) 0x20000 64 0x20000
      ∧ memRead (engines sumBlock line38).memory 0x20000 64 = sumBlock
      ∧ (match treadTiles (engines sumBlock line38) (issueCtx (hdr 0 [1, 2, 3]) (live line38)) 9 sumBlock with
        | .ok u => u.dst == tiles1.dst && u.src1 == tiles1.src1 && u.src2 == tiles1.src2 && u.src3 == tiles1.src3
        | .error _ => false) = true
      ∧ Enters (engines sumBlock line38) (live line38) 0 (atTread 9 sumBlock (some (3, tredTag tiles1)) tiles1)
      ∧ Ready (hdr 0 [1, 2]) (engines badAdd line38) (live line38)
      ∧ Readable (engines badAdd line38) (live line38) 0x20000 64 0x20000
      ∧ memRead (engines badAdd line38).memory 0x20000 64 = badAdd
      ∧ (match treadTiles (engines badAdd line38) (issueCtx (hdr 0 [1, 2]) (live line38)) 0 badAdd with
        | .ok u => u.dst == tiles3.dst && u.src1 == tiles3.src1 && u.src2 == tiles3.src2 && u.src3 == tiles3.src3
        | .error _ => false) = true
      ∧ Enters (engines badAdd line38) (live line38) 0 (atTread 0 badAdd none tiles3)
      ∧ firstBad (treadChecks 0 0 addBlock 0 1 tiles3) = none
      ∧ firstBad (treadChecks 0 9 sumBlock 3 1 tiles1) = none
      ∧ (firstBad (treadChecks 0 0 badAdd 0 1 tiles3)).isSome = true
      ∧ getTag (live line38).line 2 = 0 := by
  and_intros
  all_goals first | decide +kernel | (unfold AccessesDone; decide +kernel) | exact within (by decide +kernel)

/-- The block of a remote lswap at core 0, and the capture it makes. -/
def remoteBlock : Nat := 1 * 2 ^ 12 + 1 * 2 ^ 22 + 2 * 2 ^ 23
def remoteDrain : Nat := 3 * 2 ^ 12 + 1 * 2 ^ 22 + 2 * 2 ^ 23

/-- Copies: memory to memory, and memory to a local store. -/
def copyBlock : Nat := 0xFF000000000000 * 2 ^ 0 + 0x20400 * 2 ^ 64 + 63 * 2 ^ 128 + 3 * 2 ^ 160
def pushBlock : Nat := 0xFF000000000000 * 2 ^ 0 + 0xFF000100000000 * 2 ^ 64 + 63 * 2 ^ 128 + 3 * 2 ^ 160
def farBlock : Nat := 0xFF000000000000 * 2 ^ 0 + 0xFF000001000000 * 2 ^ 64 + 63 * 2 ^ 128 + 3 * 2 ^ 160

/-- A plain capture of cluster 0. -/
def plain (eng : Nat) (res : Option (Reg × Byte)) (post : Option (Nat × Nat)) (op : CmdOp) (answered : Bool) : Capture :=
  ⟨eng, formN, 0, 1, res, post, op, answered⟩

def line52 : Line := regs [(2, 562949953487104, 11), (3, 0x20000, 0)]

def line53 : Line := regs [(2, 562949953487105, 11), (3, 0x20000, 0)]

def line54 : Line := regs [(2, 562949953552640, 11), (3, 0x20000, 0)]

def line55 : Line := regs [(2, 281474976776448, 11), (3, 0x20000, 0)]

def line56 : Line := regs [(2, 5066549580857600, 11), (3, 0x20000, 0)]

/-- A capability that fits, one of another tenant, one of another cluster, one without the right, one of an old generation. -/
theorem witness_remote_last_word :
    firstBad (remoteChecks remoteBlock) = none
      ∧ (bfield remoteBlock 0 11 = 0 ∧ bfield remoteBlock 12 4 = 1)
      ∧ Ready (hdr 0 [1, 2, 3]) (engines remoteBlock line52) (live line52)
      ∧ getTag (live line52).line 2 = 11
      ∧ getTag (live line52).line 3 = 0
      ∧ Readable (engines remoteBlock line52) (live line52) 0x20000 64 0x20000
      ∧ memRead (engines remoteBlock line52).memory 0x20000 64 = remoteBlock
      ∧ Ready (hdr 0 [1, 2, 3]) (engines remoteBlock line53) (live line53)
      ∧ getTag (live line53).line 2 = 11
      ∧ getTag (live line53).line 3 = 0
      ∧ Readable (engines remoteBlock line53) (live line53) 0x20000 64 0x20000
      ∧ memRead (engines remoteBlock line53).memory 0x20000 64 = remoteBlock
      ∧ Ready (hdr 0 [1, 2, 3]) (engines remoteBlock line54) (live line54)
      ∧ getTag (live line54).line 2 = 11
      ∧ getTag (live line54).line 3 = 0
      ∧ Readable (engines remoteBlock line54) (live line54) 0x20000 64 0x20000
      ∧ memRead (engines remoteBlock line54).memory 0x20000 64 = remoteBlock
      ∧ Ready (hdr 0 [1, 2, 3]) (engines remoteBlock line55) (live line55)
      ∧ getTag (live line55).line 2 = 11
      ∧ getTag (live line55).line 3 = 0
      ∧ Readable (engines remoteBlock line55) (live line55) 0x20000 64 0x20000
      ∧ memRead (engines remoteBlock line55).memory 0x20000 64 = remoteBlock
      ∧ Ready (hdr 0 [1, 2, 3]) (engines remoteBlock line56) (live line56)
      ∧ getTag (live line56).line 2 = 11
      ∧ getTag (live line56).line 3 = 0
      ∧ Readable (engines remoteBlock line56) (live line56) 0x20000 64 0x20000
      ∧ memRead (engines remoteBlock line56).memory 0x20000 64 = remoteBlock
      ∧ ((BitVec.ofNat 64 562949953487104).extractLsb' 0 8 = (0 : BitVec 8) ∧ (BitVec.ofNat 64 562949953487104).getLsbD 8 = true ∧ (BitVec.ofNat 64 562949953487104).getLsbD 16 = true ∧ (BitVec.ofNat 64 562949953487104).getLsbD 49 = true ∧ (BitVec.ofNat 64 562949953487104).extractLsb' 52 12 = (0 : BitVec 12) ∧ (BitVec.ofNat 64 562949953487104).getLsbD 51 = false)
      ∧ (BitVec.ofNat 64 562949953487105).extractLsb' 0 8 ≠ (0 : BitVec 8)
      ∧ (BitVec.ofNat 64 562949953552640).getLsbD 16 = false
      ∧ ((BitVec.ofNat 64 281474976776448).getLsbD 49 = false ∧ (BitVec.ofNat 64 281474976776448).getLsbD 16 = true)
      ∧ (BitVec.ofNat 64 5066549580857600).extractLsb' 52 12 ≠ (0 : BitVec 12)
      ∧ Enters (engines remoteBlock line52) (live line52) 0 ⟨lastOf 0, ⟨0, 0, 0, 1, 2⟩, 0, 1, none, none, .lswap, true⟩
      ∧ (firstBad (remoteChecks remoteDrain) = none ∧ bfield remoteDrain 12 4 = 3)
      ∧ Ready (hdr 0 [1, 2, 3]) (engines remoteDrain line55) (live line55)
      ∧ Readable (engines remoteDrain line55) (live line55) 0x20000 64 0x20000
      ∧ memRead (engines remoteDrain line55).memory 0x20000 64 = remoteDrain
      ∧ (BitVec.ofNat 64 281474976776448).getLsbD 48 = true
      ∧ Enters (engines remoteDrain line55) (live line55) 0 ⟨lastOf 0, ⟨0, 0, 0, 1, 2⟩, 0, 1, none, none, .lswap, true⟩ := by
  and_intros
  all_goals first | decide +kernel | (unfold AccessesDone; decide +kernel) | exact within (by decide +kernel)

def line57 : Line := regs [(2, 5, 0)]

def line58 : Line := regs [(2, 16383, 0), (3, 0x3F800000, 5)]

/-- The tenant may push to cluster 1, and its cluster 0 not. -/
def noPush (l : Line) : State := { engines farBlock l with tenants := [(0, { tenantA with push := [(1, 0)] })] }

/-- A copy to memory and one to a local store. -/
theorem witness_copy_and_scale_words :
    Ready (hdr 0 [1, 2]) (engines copyBlock line38) (live line38)
      ∧ Readable (engines copyBlock line38) (live line38) 0x20000 64 0x20000
      ∧ memRead (engines copyBlock line38).memory 0x20000 64 = copyBlock
      ∧ (firstBad (copyChecks copyBlock false) = none ∧ copyDstBad (bfield copyBlock 64 56) = false)
      ∧ locate (engines copyBlock line38) (whoOf (live line38)) .load (bfield copyBlock 0 56) 0 = .ok (.cell windowBase)
      ∧ unitOwns (engines copyBlock line38) 0 (.cell windowBase) = true
      ∧ Enters (engines copyBlock line38) (live line38) 0 (plain (copyOf 0) none (postOf copyBlock 165) (copyOpOf copyBlock) true)
      ∧ pushAllowed (engines copyBlock line38) 0 0 (bfield copyBlock 64 56) = true
      ∧ Ready (hdr 0 [1, 2]) (engines pushBlock line38) (live line38)
      ∧ Readable (engines pushBlock line38) (live line38) 0x20000 64 0x20000
      ∧ memRead (engines pushBlock line38).memory 0x20000 64 = pushBlock
      ∧ (firstBad (copyChecks pushBlock false) = none ∧ copyDstBad (bfield pushBlock 64 56) = false)
      ∧ locate (engines pushBlock line38) (whoOf (live line38)) .load (bfield pushBlock 0 56) 0 = .ok (.cell windowBase)
      ∧ unitOwns (engines pushBlock line38) 0 (.cell windowBase) = true
      ∧ Enters (engines pushBlock line38) (live line38) 0 (plain (copyOf 0) none (postOf pushBlock 165) (copyOpOf pushBlock) true)
      ∧ pushAllowed (engines pushBlock line38) 0 0 (bfield pushBlock 64 56) = true
      ∧ Ready (hdr 0 [1, 2]) (noPush line38) (live line38)
      ∧ Readable (noPush line38) (live line38) 0x20000 64 0x20000
      ∧ memRead (noPush line38).memory 0x20000 64 = farBlock
      ∧ (firstBad (copyChecks farBlock false) = none ∧ copyDstBad (bfield farBlock 64 56) = false)
      ∧ locate (noPush line38) (whoOf (live line38)) .load (bfield farBlock 0 56) 0 = .ok (.cell windowBase)
      ∧ unitOwns (noPush line38) 0 (.cell windowBase) = true
      ∧ Enters (noPush line38) (live line38) 0 (plain (copyOf 0) none (postOf farBlock 165) (copyOpOf farBlock) true)
      ∧ pushAllowed (noPush line38) 0 0 (bfield farBlock 64 56) = false
      ∧ bfield copyBlock 256 11 = 0
      ∧ getTag (live line38).line 2 = 0
      ∧ windowCluster (bfield farBlock 64 56) = some 1 := by
  and_intros
  all_goals first | decide +kernel | (unfold AccessesDone; decide +kernel) | exact within (by decide +kernel)

/-- A channel of cluster 0. -/
theorem witness_channel_words :
    (5 < 2 ^ 14 ∧ 5 / 8 % 8 = 0)
      ∧ Ready (hdr 0 [1, 2]) (engines 0 line57) (live line57)
      ∧ Ready (hdr 0 [1, 2, 3]) (engines 0 line57) (live line57)
      ∧ getTag (live line57).line 2 = 0
      ∧ Enters (engines 0 line57) (live line57) 0 (plain (copyOf 0) none none (.chan 5) false) := by
  and_intros
  all_goals first | decide +kernel | (unfold AccessesDone; decide +kernel)

/-- The tenant owns the scale table of cluster 0 as well. -/
def scaled (l : Line) : State := { engines 0 l with owner := (List.range 64).map (fun i => (i, 0)) ++ (List.range 32).map fun i => (2 ^ 20 + i, 0) }

/-- The last scale of cluster 0. -/
theorem witness_scale_words :
    (16383 < 2 ^ 35 ∧ 16383 / 2 ^ 14 % 8 = 0 ∧ 16383 / 2 ^ 17 % 2 ^ 8 = 0)
      ∧ Ready (hdr 0 [1, 2, 3]) (scaled line58) (live line58)
      ∧ getTag (live line58).line 2 = 0
      ∧ getTag (live line58).line 3 = 5
      ∧ Enters (scaled line58) (live line58) 0 (plain (scaleOf 0) none none (.sld 16383) true)
      ∧ owns (scaled line58) 0 (localGranule (helioCore (scaled line58) 0) (65536 + 4 * 16383)) = true := by
  and_intros
  all_goals first | decide +kernel | (unfold AccessesDone; decide +kernel)

/-- The tenant with a resident swappable page at 0x20000 and a swapped one at 0x50000, whose image lies on die 7. -/
def swapping (l : Line) : State :=
  { busy l with tenants := [(0, { tenantA with ptab := [(0, 0x17), (2, 0x2004F), (5, 0x70000000CF)] })] }

def line59 : Line := regs [(2, 0x50000, 0)]

def line60 : Line := regs [(2, 0xFF000000000000, 0)]

def line61 : Line := regs [(2, 0x60000, 0)]

/-- The same with guard slot 9 of cluster 0 in state `n`. -/
def guardSwap (n : Nat) (l : Line) : State := setGuard (swapping l) 0 9 ⟨n, 0, 0, 7⟩

/-- A resident page, a swapped one, a window address, an unmapped address, with and without a guard that is open. -/
theorem witness_swap_words :
    Ready (hdr 0 [1, 2]) (guardSwap 1 line38) (live line38)
      ∧ Ready (hdr 0 [1, 2, 3]) (guardSwap 1 line38) (live line38)
      ∧ getTag (live line38).line 2 = 0
      ∧ (guardFree (guardSwap 1 line38) 0 0 formG = false ∧ guardFree (guardSwap 1 line38) 0 0 formN = false)
      ∧ Ready (hdr 0 [1, 2]) (guardSwap 1 line59) (live line59)
      ∧ Ready (hdr 0 [1, 2, 3]) (guardSwap 1 line59) (live line59)
      ∧ getTag (live line59).line 2 = 0
      ∧ (guardFree (guardSwap 1 line59) 0 0 formG = false ∧ guardFree (guardSwap 1 line59) 0 0 formN = false)
      ∧ Ready (hdr 0 [1, 2]) (guardSwap 1 line60) (live line60)
      ∧ Ready (hdr 0 [1, 2, 3]) (guardSwap 1 line60) (live line60)
      ∧ getTag (live line60).line 2 = 0
      ∧ (guardFree (guardSwap 1 line60) 0 0 formG = false ∧ guardFree (guardSwap 1 line60) 0 0 formN = false)
      ∧ Ready (hdr 0 [1, 2]) (guardSwap 1 line61) (live line61)
      ∧ Ready (hdr 0 [1, 2, 3]) (guardSwap 1 line61) (live line61)
      ∧ getTag (live line61).line 2 = 0
      ∧ (guardFree (guardSwap 1 line61) 0 0 formG = false ∧ guardFree (guardSwap 1 line61) 0 0 formN = false)
      ∧ (findLeaf (guardSwap 1 line38) (whoOf (live line38)) 0x20000 = some (0, 0x2004F) ∧ checkLeaf (guardSwap 1 line38) (whoOf (live line38)) .load 0x20000 (some (0, 0x2004F)) = .ok (0, 0x2004F) ∧ leafRemote 0x2004F = false ∧ homeDie (guardSwap 1 line38) (leafAddr 0x2004F * 65536) = some 0)
      ∧ findLeaf (guardSwap 1 line59) (whoOf (live line59)) 0x50000 = some (0, 0x70000000CF)
      ∧ checkLeaf (guardSwap 1 line59) (whoOf (live line59)) .load 0x50000 (some (0, 0x70000000CF)) = .error (.page 0x50000)
      ∧ Enters (guardSwap 1 line38) (live line38) 0 ⟨swapOf 0, formN, 0, 1, none, none, (.swpin 0x20000), false⟩
      ∧ Enters (guardSwap 1 line38) (live line38) 0 ⟨swapOf 0, formN, 0, 1, none, none, (.swpout 0x20000), false⟩
      ∧ Enters (guardSwap 1 line38) (live line38) 0 ⟨swapOf 0, formN, 0, 1, (some (3, 0)), none, (.swpq 0x20000), false⟩
      ∧ Enters (guardSwap 1 line59) (live line59) (leafAddr 0x70000000CF / 2 ^ 37 % 8) ⟨swapOf (leafAddr 0x70000000CF / 2 ^ 37 % 8), formN, 0, 1, none, none, (.swpin 0x50000), false⟩
      ∧ Enters (guardSwap 1 line59) (live line59) (leafAddr 0x70000000CF / 2 ^ 37 % 8) ⟨swapOf (leafAddr 0x70000000CF / 2 ^ 37 % 8), formN, 0, 1, none, none, (.swpout 0x50000), false⟩
      ∧ Enters (guardSwap 1 line59) (live line59) (leafAddr 0x70000000CF / 2 ^ 37 % 8) ⟨swapOf (leafAddr 0x70000000CF / 2 ^ 37 % 8), formN, 0, 1, (some (3, 0)), none, (.swpq 0x50000), false⟩
      ∧ Enters (guardSwap 1 line38) (live line38) 0 ⟨swapOf 0, formG, 0, 1, none, none, (.swpin 0x20000), false⟩
      ∧ Enters (guardSwap 1 line38) (live line38) 0 ⟨swapOf 0, formG, 0, 1, none, none, (.swpout 0x20000), false⟩
      ∧ Enters (guardSwap 1 line38) (live line38) 0 ⟨swapOf 0, formG, 0, 1, (some (3, 0)), none, (.swpq 0x20000), false⟩
      ∧ Enters (guardSwap 1 line59) (live line59) (leafAddr 0x70000000CF / 2 ^ 37 % 8) ⟨swapOf (leafAddr 0x70000000CF / 2 ^ 37 % 8), formG, 0, 1, none, none, (.swpin 0x50000), false⟩
      ∧ Enters (guardSwap 1 line59) (live line59) (leafAddr 0x70000000CF / 2 ^ 37 % 8) ⟨swapOf (leafAddr 0x70000000CF / 2 ^ 37 % 8), formG, 0, 1, none, none, (.swpout 0x50000), false⟩
      ∧ Enters (guardSwap 1 line59) (live line59) (leafAddr 0x70000000CF / 2 ^ 37 % 8) ⟨swapOf (leafAddr 0x70000000CF / 2 ^ 37 % 8), formG, 0, 1, (some (3, 0)), none, (.swpq 0x50000), false⟩
      ∧ (getGuard (guardSwap 1 line38) 0 9).state = 1
      ∧ (windowBase ≤ 0xFF000000000000 ∧ 0xFF000000000000 < 2 ^ 56)
      ∧ findLeaf (guardSwap 1 line61) (whoOf (live line61)) 0x60000 = none := by
  and_intros
  all_goals first | decide +kernel | (unfold AccessesDone; decide +kernel)

def line62 : Line := regs [(2, 15, 0), (3, 1, 0)]

def line63 : Line := regs [(2, 8617993, 0), (3, 1, 0)]

def line64 : Line := regs [(2, 8585225, 0), (3, 1, 0)]

def line65 : Line := regs [(2, 1125899906908416, 0)]

/-- A free slot, an open one, a resolved one, a stale name, and a legal capability. -/
theorem witness_guard_words :
    Ready (hdr 0 [1, 2]) (guarded 1 0 line62) (live line62)
      ∧ Serves (guarded 1 0 line62) 0
      ∧ ((getGuard (guarded 1 0 line62) 0 15).state = 0 ∧ (getGuard (guarded 1 0 line62) 0 9).state ≠ 0)
      ∧ getTag (live line62).line 2 = 0
      ∧ Ready (hdr 0 [2]) (guarded 1 0 line63) (live line63)
      ∧ Ready (hdr 0 [1, 2, 3]) (guarded 1 0 line63) (live line63)
      ∧ Ready (hdr 0 [2]) (guarded 2 0 line63) (live line63)
      ∧ Ready (hdr 0 [1, 2, 3]) (guarded 2 0 line63) (live line63)
      ∧ Ready (hdr 0 [2]) (guarded 1 0 line64) (live line64)
      ∧ Ready (hdr 0 [1, 2, 3]) (guarded 1 0 line64) (live line64)
      ∧ (8617993 % 16 = 9 ∧ 8617993 / 128 % 256 = 0 ∧ 8617993 < 2 ^ 24 ∧ 2 ^ 23 ≤ 8617993 ∧ 8617993 / 16 % 8 = 0 ∧ 8617993 / 2 ^ 15 % 2 ^ 8 = 7)
      ∧ (getGuard (guarded 1 0 line63) 0 9 = ⟨1, 0, 0, 7⟩ ∧ getGuard (guarded 2 0 line63) 0 9 = ⟨2, 0, 0, 7⟩)
      ∧ getTag (live line63).line 2 = 0
      ∧ getTag (live line63).line 3 = 0
      ∧ (getG (live line63).line 3).toNat < 2
      ∧ 8585225 / 2 ^ 15 % 2 ^ 8 ≠ 7
      ∧ Ready (hdr 0 [1, 2]) (busy line65) (live line65)
      ∧ (1125899906908416 % 2 ^ 8 = 0 ∧ 1125899906908416 < 2 ^ 51) := by
  and_intros
  all_goals decide +kernel

/-- Entry 4 of the job table of the tread unit of cluster 0, in state `n`. -/
def jobbing (n : Nat) (l : Line) : State :=
  setEngine (busy l) 1 { getEngine (busy l) 1 with jobs := [(4, ⟨5, 0, 0, n, 3, false, false, 0, 0, false⟩)] }

/-- A finishing line that holds staging row 2 of the Last of cluster 0. -/
def finisher (stores : Nat) : LiveLine := { live { Line.zero with fin := true } with staging := some (0, 2), stores := stores }
def finishing (stores : Nat) : State :=
  setEngine { busy Line.zero with thr := some (finisher stores) } 0
    { Engine.zero with
      running := [⟨4, 0, 0, 0, 0, 0x10000, none, false, false, 0, .lswap, none, none, 0, [⟨2, 2, 1, 0x10000⟩, ⟨3, 3, 1, 0x10080⟩], 0, none⟩] }

def line66 : Line := regs [(2, 84017153, 10)]

def line67 : Line := regs [(2, 84049921, 10)]

def line68 : Line := { regs [] with tlvl := 1 }

/-- A running job, a final one, an expired one, a level-1 line, and finishing lines, drained and not. -/
theorem witness_guard_job_and_capability_words :
    Ready (hdr 0 [2]) (jobbing 2 line66) (live line66)
      ∧ Ready (hdr 0 [1, 2]) (jobbing 2 line66) (live line66)
      ∧ getTag (live line66).line 2 = 10
      ∧ Ready (hdr 0 [2]) (jobbing 4 line66) (live line66)
      ∧ Ready (hdr 0 [1, 2]) (jobbing 4 line66) (live line66)
      ∧ getTag (live line66).line 2 = 10
      ∧ Ready (hdr 0 [2]) (jobbing 2 line67) (live line67)
      ∧ Ready (hdr 0 [1, 2]) (jobbing 2 line67) (live line67)
      ∧ getTag (live line67).line 2 = 10
      ∧ (jobBad (BitVec.ofNat 64 84017153) 0 = false ∧ jobBad (BitVec.ofNat 64 84049921) 0 = false)
      ∧ dieHeld (jobbing 2 line66) (engDie (jobEngine (BitVec.ofNat 64 84017153))) = false
      ∧ (jobEntryOf (jobbing 2 line66) (BitVec.ofNat 64 84017153)).map (·.state) = some 2
      ∧ (jobEntryOf (jobbing 4 line66) (BitVec.ofNat 64 84017153)).map (·.state) = some 4
      ∧ jobEntryOf (jobbing 2 line67) (BitVec.ofNat 64 84049921) = none
      ∧ Ready (hdrPriv 0 [] 1 (.caprev 0)) (busy line68) (live line68)
      ∧ (getTenant (busy line68) 0).capGen ≠ 0xFFF
      ∧ (Ready (hdr 0 []) (finishing 0) (finisher 0) ∧ Ready (hdr 0 []) (finishing 1) (finisher 1))
      ∧ ((finisher 0).staging = some (0, 2) ∧ dieHeld (finishing 0) 0 = false ∧ drained (finishing 0) (finisher 0) = true ∧ drained (finishing 1) (finisher 1) = false)
      ∧ (Ready (hdr 0 []) (busy Line.zero) (live Line.zero) ∧ (live Line.zero).line.fin = false) := by
  and_intros
  all_goals decide +kernel

/-- The tenant with a fault queue whose counts have passed 9, and these context lines in use. -/
def registers (pool : List Nat) (l : Line) : State :=
  { busy l with tenants := [(0, { tenantA with fqHead := 3, fqTail := 9, pool := pool, poolNote := true, ctxLines := 5 })] }

def line69 : Line := { regs [(2, 0x800, 0)] with tlvl := 1, rmode := 2, fen := 9, fflg := 3, hwin := 77 }

def line70 : Line := { regs [(2, 0x100000000, 0)] with tlvl := 1, rmode := 2, fen := 9, fflg := 3, hwin := 77 }

def line71 : Line := { regs [(2, 0x400, 0)] with tlvl := 1, rmode := 2, fen := 9, fflg := 3, hwin := 77 }

def line72 : Line := { regs [(2, 6, 0)] with tlvl := 1, rmode := 2, fen := 9, fflg := 3, hwin := 77 }

def line73 : Line := { regs [(2, 10, 0)] with tlvl := 1, rmode := 2, fen := 9, fflg := 3, hwin := 77 }

/-- Levels 0 and 1; the last legal values and the first that are not. -/
theorem witness_status_register_words :
    Ready (hdrPriv 0 [1] 0 (.csrr 0 1 0x000)) (registers [] line69) (live line69)
      ∧ Ready (hdrPriv 0 [1] 1 (.csrr 0 1 0x02C)) (registers [] line69) (live line69)
      ∧ Ready (hdrPriv 0 [2] 0 (.csrw 0 2 8)) (registers [] line69) (live line69)
      ∧ Ready (hdrPriv 0 [2] 0 (.csrw 0 2 9)) (registers [] line69) (live line69)
      ∧ Ready (hdrPriv 0 [2] 0 (.csrw 0 2 0xA)) (registers [] line69) (live line69)
      ∧ Ready (hdrPriv 0 [2] 1 (.csrw 0 2 0x020)) (registers [] line69) (live line69)
      ∧ Ready (hdrPriv 0 [2] 0 (.csrw 0 2 0xA)) (registers [] line70) (live line70)
      ∧ Ready (hdrPriv 0 [2] 1 (.csrw 0 2 0x02C)) (registers [] line71) (live line71)
      ∧ Ready (hdrPriv 0 [2] 1 (.csrw 0 2 0x023)) (registers [] line72) (live line72)
      ∧ Ready (hdrPriv 0 [2] 1 (.csrw 0 2 0x023)) (registers [] line73) (live line73)
      ∧ Ready (hdrPriv 0 [2] 1 (.csrw 0 2 0x028)) (registers [] line69) (live line69)
      ∧ Ready (hdrPriv 0 [2] 1 (.csrw 0 2 0x029)) (registers [] line69) (live line69)
      ∧ getTag (live line69).line 2 = 0
      ∧ (0x800 % 2048 = 0 ∧ 1 ≤ 0x400 ∧ 0x400 ≤ 1024 ∧ ¬ 0x800 ≤ 1024)
      ∧ (((6 : BitVec 32) - 3).toNat ≤ ((9 : BitVec 32) - 3).toNat ∧ ¬ ((10 : BitVec 32) - 3).toNat ≤ ((9 : BitVec 32) - 3).toNat)
      ∧ ((getTenant (registers [] line69) 0).pool = [] ∧ (getTenant (registers [] line69) 0).ctxLines - 0 = (getTenant (registers [] line69) 0).ctxLines)
      ∧ Ready (hdrPriv 0 [2] 1 (.csrw 0 2 0x021)) (busy line69) (live line69)
      ∧ Ready (hdrPriv 0 [2] 1 (.csrw 0 2 0x026)) (busy line69) (live line69)
      ∧ Ready (hdrPriv 0 [2] 1 (.csrw 0 2 0x02A)) (busy line69) (live line69)
      ∧ Ready (hdrPriv 0 [2] 1 (.csrw 0 2 0x02B)) (busy line69) (live line69)
      ∧ Ready (hdrPriv 0 [2] 1 (.csrw 0 2 0x022)) (busy line72) (live line72)
      ∧ ((getTenant (busy line69) 0).fqHead = (getTenant (busy line69) 0).fqTail ∧ 0x800 % (32 * 2 ^ (getTenant (busy line69) 0).fqLog2) = 0 ∧ (getTenant (busy line69) 0).fqBase.toNat % (32 * 2 ^ 6) = 0 ∧ 0x800 < 2 ^ 18 ∧ 0x800 % 32 = 0)
      ∧ Ready (hdrPriv 0 [2] 1 (.csrw 0 2 0x02A)) (queued 3 5 1 line69) (live line69)
      ∧ Ready (hdrPriv 0 [2] 1 (.csrw 0 2 0x02B)) (queued 3 5 1 line69) (live line69)
      ∧ (∀ q, q < (getTenant (queued 3 5 1 line69) 0).qtabLen → entryLoc (queued 3 5 1 line69) 0 0 .walk q = .ok (0x20000 + 32 * q))
      ∧ Ready (hdrPriv 0 [2] 1 (.csrw 0 2 0x02A)) (queued 3 5 0 line69) (live line69)
      ∧ Ready (hdrPriv 0 [2] 1 (.csrw 0 2 0x02B)) (queued 3 5 0 line69) (live line69)
      ∧ (∀ q, q < (getTenant (queued 3 5 0 line69) 0).qtabLen → entryLoc (queued 3 5 0 line69) 0 0 .walk q = .ok (0x20000 + 32 * q))
      ∧ (readEntry (queued 3 5 1 line69).memory 0x20020).state ≠ 0
      ∧ (∀ q, q < 8 → (readEntry (queued 3 5 0 line69).memory (0x20000 + 32 * q)).state = 0)
      ∧ 0x20 ≤ (0x021 : BitVec 16).toNat
      ∧ ((busy Line.zero).thr = some (live Line.zero) ∧ (live Line.zero).line.tlvl = 0) := by
  and_intros
  all_goals decide +kernel

/-- A line at 0x40080 that is claimed by 0x10000 or not, and its image. -/
def victim (clm : Bool) (p : Place) : LiveLine :=
  { LiveLine.new 0 0x40080 p { Line.zero with pc := 0x200, wait := 0xA000000000000000 } with clm := clm, holder := 0x10000 }
def image : Line := { Line.zero with pc := 0x200, hcnt := 1, hpay := 7, wait := 0x1000000000000001 }
def claiming (t : LiveLine) (ys : List LiveLine) : State :=
  { busy Line.zero with thr := some t, lines := ys, memory := memPut Memory.zero 0x40080 (lineBytes image) }

/-- The supervisor's line, before and after its claim, with `g3 = b`. -/
def claimer (b : Word) (rep : List Word) : LiveLine := { live { regs [(2, 0x40080, 0), (3, b, 0)] with tlvl := 1 } with replies := rep }

/-- The same with a claimed line whose image waits with a tag of no kind. -/
def spoiled : State :=
  { claiming (claimer 0 []) [victim true .dram] with memory := memPut Memory.zero 0x40080 (lineBytes { image with wait := 0xC000000000000000 }) }

/-- A line that is free, claimed, in a cache, and none; every park mode and the first that is not. -/
theorem witness_line_control_words :
    Ready (hdr 0 []) (claiming (claimer 0 []) [victim false .dram]) (claimer 0 [])
      ∧ Ready (hdrPriv 0 [2] 1 (.cevict 0 2)) (claiming (claimer 0 []) [victim false .dram]) (claimer 0 [])
      ∧ Ready (hdrPriv 0 [2] 1 (.cevict 0 2)) (claiming (claimer 0 []) [victim true .dram]) (claimer 0 [])
      ∧ Ready (hdrPriv 0 [2] 1 (.cevict 0 2)) (claiming (claimer 0 []) [victim false (.cl1 3)]) (claimer 0 [])
      ∧ Ready (hdrPriv 0 [2] 1 (.cevict 0 2)) (claiming (claimer 0 []) []) (claimer 0 [])
      ∧ Ready (hdrPriv 0 [1, 2] 1 (.cclaim 0 1 2)) (claiming (claimer 0 []) [victim false .dram]) (claimer 0 [])
      ∧ Ready (hdrPriv 0 [1, 2] 1 (.cclaim 0 1 2)) (claiming (claimer 0 []) [victim true .dram]) (claimer 0 [])
      ∧ Ready (hdrPriv 0 [1, 2] 1 (.cclaim 0 1 2)) (claiming (claimer 0 []) []) (claimer 0 [])
      ∧ Ready (hdrPriv 0 [1, 2] 1 (.cclaim 0 1 2)) (claiming (claimer 0 [0]) [victim true .dram]) (claimer 0 [0])
      ∧ Ready (hdrPriv 0 [2] 1 (.rft 0 2 7)) (claiming (claimer 0 []) [victim true .dram]) (claimer 0 [])
      ∧ Ready (hdrPriv 0 [2] 1 (.rft 0 2 7)) (claiming (claimer 0 []) [victim false .dram]) (claimer 0 [])
      ∧ Ready (hdrPriv 0 [2, 3] 1 (.cpark 0 2 3)) (claiming (claimer 0 []) [victim true .dram]) (claimer 0 [])
      ∧ Ready (hdrPriv 0 [2, 3] 1 (.cpark 0 2 3)) (claiming (claimer 1 []) [victim true .dram]) (claimer 1 [])
      ∧ Ready (hdrPriv 0 [2, 3] 1 (.cpark 0 2 3)) (claiming (claimer 2 []) [victim true .dram]) (claimer 2 [])
      ∧ Ready (hdrPriv 0 [2, 3] 1 (.cpark 0 2 3)) (claiming (claimer 3 []) [victim true .dram]) (claimer 3 [])
      ∧ Ready (hdrPriv 0 [2, 3] 1 (.cpark 0 2 3)) (claiming (claimer 0 []) [victim false .dram]) (claimer 0 [])
      ∧ (getTag (claimer 0 []).line 2 = 0 ∧ getTag (claimer 0 []).line 3 = 0 ∧ (claimer 0 []).req = none)
      ∧ AccessesDone (claiming (claimer 0 []) [victim false .dram]) (claimer 0 [])
      ∧ AccessesDone (claiming (claimer 0 []) [victim true .dram]) (claimer 0 [])
      ∧ Ready (hdrPriv 0 [2] 1 (.rft 0 2 7)) (claiming { claimer 0 [] with stores := 1 } [victim true .dram]) { claimer 0 [] with stores := 1 }
      ∧ ({ claimer 0 [] with stores := 1 }).stores ≠ 0
      ∧ (Ready (hdrPriv 0 [2] 1 (.rft 0 2 7)) spoiled (claimer 0 []) ∧ waitKind (memLine spoiled.memory 0x40080).wait ≠ 10 ∧ tagCorrupt (memLine spoiled.memory 0x40080).wait = true)
      ∧ (hmodAt (claiming (claimer 0 []) [victim true .dram]) 0 0x200 = .ok false ∧ tagCorrupt (memLine (claiming (claimer 0 []) [victim true .dram]).memory 0x40080).wait = false)
      ∧ (msgAhead (claiming (claimer 0 []) [victim false .dram]) 0 0x40080 = false ∧ msgAhead (claiming (claimer 0 []) [victim true .dram]) 0 0x40080 = false ∧ msgAhead (claiming (claimer 0 []) [victim false (.cl1 3)]) 0 0x40080 = false)
      ∧ ((victim true .dram).clm = true ∧ (victim true .dram).holder = (claimer 0 []).addr ∧ (victim true .dram).stores = 0 ∧ cellOf (claiming (claimer 0 []) [victim true .dram]) 0 0x40080 = some 0x40080)
      ∧ (locate (claiming (claimer 0 []) [victim true .dram]) (whoOf (claimer 0 [])) .store 0x40080 0 = .ok (.cell 0x40080) ∧ ctxPage (claiming (claimer 0 []) [victim true .dram]) (whoOf (claimer 0 [])) 0x40080 = true)
      ∧ (findLine (claiming (claimer 0 []) [victim false .dram]) 0 0x40080 = some (victim false .dram) ∧ findLine (claiming (claimer 0 []) [victim true .dram]) 0 0x40080 = some (victim true .dram) ∧ findLine (claiming (claimer 0 []) [victim false (.cl1 3)]) 0 0x40080 = some (victim false (.cl1 3)) ∧ findLine (claiming (claimer 0 []) []) 0 0x40080 = none)
      ∧ (0x40080 % 128 = 0 ∧ 0x40080 ≠ (claimer 0 []).addr)
      ∧ locate (claiming (claimer 0 []) [victim false .dram]) (whoOf (claimer 0 [])) .store 0x40080 0 = .ok (.cell 0x40080)
      ∧ (ctxPage (claiming (claimer 0 []) [victim false .dram]) (whoOf (claimer 0 [])) 0x40080 = true ∧ cellOf (claiming (claimer 0 []) [victim false .dram]) 0 0x40080 = some 0x40080 ∧ jobFrozen (claiming (claimer 0 []) [victim false .dram]) 0 (jobOf (claiming (claimer 0 []) [victim false .dram]) (victim false .dram)) = false)
      ∧ Canonical (claiming (claimer 0 []) [victim false .dram])
      ∧ Canonical (claiming (claimer 0 []) [victim true .dram])
      ∧ waitKind (memLine (claiming (claimer 0 []) [victim true .dram]).memory 0x40080).wait ≠ 10 := by
  and_intros
  all_goals decide +kernel

/-- The module with switches, invalidations and a snapshot, and tenant A with pages to seal. -/
def machine (sw : List Switch) (inv : List Inval) (tr : Option Transit) (t : LiveLine) : State :=
  { busy Line.zero with
    thr := some t, switches := sw, invals := inv, transit := tr, nextId := 5
    tenants := [(0, { tenantA with ptab := tenantA.ptab ++ [(2 ^ 56 + 4, 0x60000F), (6, 0x40017)] })] }

/-- A switch of job 7 in phase `p`. -/
def switchAt (p : Nat) (resume : Bool) : Switch := 
  { newSwitch State.reset 0 7 p with resume := resume }

/-- A line at level `lv` with these operands. -/
def ruler (lv : BitVec 2) (a b : Word) (rep : List Word) : LiveLine :=
  { live { regs [(2, a, 0), (3, b, 0)] with tlvl := lv } with replies := rep }

/-- Each level; a page to seal and one that is sealed; legal and reserved operands at their limits; a job with no switch, one in phase 1 and one in phase 7. -/
theorem witness_machine_control_words :
    Ready (hdr 0 []) (machine [] [] none (ruler 0 7 0 [])) (ruler 0 7 0 [])
      ∧ Ready (hdr 0 []) (machine [] [] none (ruler 2 7 0 [])) (ruler 2 7 0 [])
      ∧ Ready (hdr 0 [0, 1, 2, 3]) (machine [] [] none (ruler 1 7 0 [])) (ruler 1 7 0 [])
      ∧ (match service (machine [] [] none (ruler 1 7 0 [])) 0 8 (getG (ruler 1 7 0 []).line 1).toNat (getG (ruler 1 7 0 []).line 2).toNat (getG (ruler 1 7 0 []).line 3).toNat with
        | .done _ v => v == 7
        | .notYet _ => false) = true
      ∧ Ready (hdrPriv 0 [2, 3] 2 (.halt 0 2 3)) (machine [] [] none (ruler 2 255 1 [])) (ruler 2 255 1 [])
      ∧ Ready (hdrPriv 0 [2] 1 (.seal 0 2)) (machine [] [] none (ruler 1 0x20000 0 [])) (ruler 1 0x20000 0 [])
      ∧ Ready (hdrPriv 0 [2] 1 (.seal 0 2)) (machine [] [] none (ruler 1 0x60000 0 [])) (ruler 1 0x60000 0 [])
      ∧ Ready (hdrPriv 0 [2] 1 (.seal 0 2)) (machine [] [] none (ruler 1 0x30000 0 [4])) (ruler 1 0x30000 0 [4])
      ∧ sealCheck (machine [] [] none (ruler 1 0x20000 0 [])) 0 0x20000 = .page 0 0x2000F
      ∧ sealCheck (machine [] [] none (ruler 1 0x60000 0 [])) 0 0x60000 = .done
      ∧ (walkTable (getTenant (machine [] [] none (ruler 1 0x30000 0 [4])) 0) 0x30000 = some (0, 0x30007) ∧ leafV 0x30007 = true ∧ leafR 0x30007 = true ∧ leafW 0x30007 = false ∧ leafCtx 0x30007 = false)
      ∧ (∀ v ∈ (machine [] [] none (ruler 1 0x30000 0 [4])).invals, v.id ≠ (4 : Word).toNat)
      ∧ Ready (hdrPriv 0 [2, 3] 2 (.tlbinv 0 2 3)) (machine [] [] none (ruler 2 0x20000 0 [])) (ruler 2 0x20000 0 [])
      ∧ Ready (hdrPriv 0 [2, 3] 2 (.tlbinv 0 2 3)) (machine [] [] none (ruler 2 0x20000 0x300 [])) (ruler 2 0x20000 0x300 [])
      ∧ Ready (hdrPriv 0 [2, 3] 2 (.tlbinv 0 2 3)) (machine [] [] none (ruler 2 0x20000 0x200 [])) (ruler 2 0x20000 0x200 [])
      ∧ Ready (hdrPriv 0 [2, 3] 2 (.tlbinv 0 2 3)) (machine [] [] none (ruler 2 0x20001 0 [])) (ruler 2 0x20001 0 [])
      ∧ Ready (hdrPriv 0 [2, 3] 2 (.tlbinv 0 2 3)) (machine [] [] none (ruler 2 0x20000 0 [4])) (ruler 2 0x20000 0 [4])
      ∧ ((0x300 : Word).getLsbD 8 = true ∧ (0x300 : Word).getLsbD 9 = true ∧ (0x200 : Word).getLsbD 8 = false ∧ 0x20001 % 65536 ≠ 0 ∧ 0x20000 % 65536 = 0 ∧ 0x20000 < windowBase)
      ∧ Ready (hdrPriv 0 [2] 2 (.transit 0 2)) (machine [] [] none (ruler 2 0xFFFF 0 [])) (ruler 2 0xFFFF 0 [])
      ∧ Ready (hdrPriv 0 [2] 2 (.transit 0 2)) (machine [] [] none (ruler 2 0x10000 0 [])) (ruler 2 0x10000 0 [])
      ∧ Ready (hdrPriv 0 [2] 2 (.transit 0 2)) (machine [] [] (some ⟨7, [], []⟩) (ruler 2 7 0 [])) (ruler 2 7 0 [])
      ∧ Ready (hdrPriv 0 [1, 2, 3] 2 (.gsw 0 1 2 3)) (machine [] [] none (ruler 2 7 0 [])) (ruler 2 7 0 [])
      ∧ Ready (hdrPriv 0 [1, 2, 3] 2 (.gsw 0 1 2 3)) (machine [switchAt 1 false] [] none (ruler 2 7 0 [])) (ruler 2 7 0 [])
      ∧ Ready (hdrPriv 0 [1, 2, 3] 2 (.gsw 0 1 2 3)) (machine [] [] none (ruler 2 7 1 [])) (ruler 2 7 1 [])
      ∧ Ready (hdrPriv 0 [1, 2, 3] 2 (.gsw 0 1 2 3)) (machine [switchAt 7 false] [] none (ruler 2 7 1 [])) (ruler 2 7 1 [])
      ∧ (findSwitch (machine [] [] none (ruler 2 7 0 [])) 0 7 = none ∧ (machine [] [] none (ruler 2 7 0 [])).accepted.getLsbD 4 = true ∧ (machine [] [] none (ruler 2 7 0 [])).switches.length < 9 ∧ (machine [] [] none (ruler 2 7 0 [])).remap = none ∧ checkpointing (machine [] [] none (ruler 2 7 0 [])) 0 = false)
      ∧ (findSwitch (machine [switchAt 7 false] [] none (ruler 2 7 1 [])) 0 7 = some (switchAt 7 false) ∧ (switchAt 7 false).ldrop = 0 ∧ (switchAt 7 false).phase = 7 ∧ (switchAt 7 false).resume = false ∧ checkpointing (machine [switchAt 7 false] [] none (ruler 2 7 1 [])) 0 = false)
      ∧ ((findSwitch (machine [switchAt 1 false] [] none (ruler 2 7 0 [])) 0 7).isSome = true ∧ findSwitch (machine [] [] none (ruler 2 7 1 [])) 0 7 = none)
      ∧ ((machine [] [] none (ruler 1 7 0 [])).thr = some (ruler 1 7 0 []) ∧ (ruler 1 7 0 []).line.tlvl.toNat < 2 ∧ (ruler 0 7 0 []).line.tlvl = 0)
      ∧ (getTag (ruler 2 7 0 []).line 2 = 0 ∧ getTag (ruler 2 7 0 []).line 3 = 0 ∧ (ruler 2 7 0 []).req = none) := by
  and_intros
  all_goals decide +kernel

/-- The module with a host bound to it. -/
def hosted (s : State) : State := { s with thr := none, host := { State.reset.host with phase := 1, bound := some 5, hostKey := 3 } }
def idle : State := hosted (busy Line.zero)

/-- The same with a vault granule and the local store of core 0 owned by the tenant. -/
def owned : State := hosted (vaulted false Line.zero)

/-- A page to map, one that is mapped, a data page and a code page. -/
theorem witness_firmware_services_pages :
    (getTenant idle 0).live = true
      ∧ (0xC % 4 = 0 ∧ 0xC < 2 ^ 12 ∧ 0x50000 < windowBase ∧ 0x50000 % 2 ^ levelShift 0 = 0)
      ∧ (attrRefused idle 0xC 0 (3 + 0xC) = false ∧ attrRefused idle 4 0 7 = false)
      ∧ (mappedIn idle 0 0x50000 (2 ^ levelShift 0) = false ∧ mappedIn idle 0 0x20000 (2 ^ levelShift 0) = true)
      ∧ (match takeFrame idle 0 0 with
        | some (b, _) => !(frameHeld idle b)
        | none => false) = true
      ∧ svcPage idle 0 0x50000 = .error 4
      ∧ (svcPage idle 0 0x20000 = .ok (0, 0x2000F) ∧ svcPage idle 0 0 = .ok (0, 0x17))
      ∧ (leafX 0x2000F = false ∧ leafX 0x17 = true ∧ leafSwd 0x2000F = false ∧ leafRemote 0x2000F = false)
      ∧ (tabFind (pteKey 0 0x20000) (getTenant idle 0).moves = none ∧ pktInto idle (leafAddr 0x2000F * 65536) (2 ^ levelShift 0) = false ∧ sweptInto idle 0 0x20000 (2 ^ levelShift 0) = false)
      ∧ attrRefused idle 4 0 (protectedLeaf 0x2000F 4) = false := by
  and_intros
  all_goals decide +kernel

/-- An owned granule and a free one, a push mask of the last cluster, a counter that is taken and one that is free. -/
theorem witness_firmware_services_grants :
    (granuleAt owned 0xFF000000000000).map (fun x => (x.1, x.2.2.2.2)) = some (0, true)
      ∧ (granuleAt owned 0xFF000001000000).map (fun x => (x.1, x.2.2.2.2)) = some (256, true)
      ∧ ((tabFind 0 owned.owner).isSome = true ∧ tabFind 256 owned.owner = none ∧ owns owned 0 0 = true ∧ owns owned 0 256 = false)
      ∧ ((getDie owned 0).state < 2 ∧ dieHeld owned 0 = false ∧ pktInto owned windowBase 65536 = false ∧ scrubIn owned 0 = false)
      ∧ (2040 < 2048 ∧ 2040 % 8 = 0 ∧ locate idle ⟨0, 0, 1, .walk⟩ .load 0x20000 0 = .ok (.cell 0x20000) ∧ poisoned idle.memory 0x20000 32 = false)
      ∧ ((getCounter (hosted (counting ⟨5, 5, 0, true, false⟩ Line.zero)) (counterCore 66) (counterIndex 66)).valid = true ∧ (getCounter idle (counterCore 66) (counterIndex 66)).valid = false)
      ∧ ((getDie idle (dieOf (counterCore 66))).state < 2 ∧ dieHeld idle (dieOf (counterCore 66)) = false) := by
  and_intros
  all_goals decide +kernel

/-- A launch record: entry, shape, context base, job. -/
def launchRec (entry gx gy gz ctx job : Nat) : BitVec 512 :=
  BitVec.ofNat 512 (entry + gx * 2 ^ 64 + gy * 2 ^ 84 + gz * 2 ^ 104 + 2 ^ 124 + 0x1234 * 2 ^ 128 + 0x5678 * 2 ^ 192 + ctx * 2 ^ 256
    + job * 2 ^ 328 + 3 * 2 ^ 344 + 2 ^ 348 + 2 ^ 402 + 2 ^ 448)

/-- The module with a queue and with a counter, a host bound. -/
def queueing : State := hosted (queued 3 5 1 Line.zero)
def posting : State := hosted (counting ⟨5, 5, 0, true, false⟩ Line.zero)

/-- Unbound and bound; a legal set and one with a bit that is not offered; bytes over the end of a page, refused bytes; a push that is taken and one that is dropped; a launch that is good and one that is bad. -/
theorem witness_host_port_messages :
    (({ idle with host := { idle.host with bound := none } }).host.bound = none ∧ idle.host.bound.isSome = true ∧ idle.host.hostKey = 3)
      ∧ (({ idle with tenants := [], accepted := 0 } : State).accepted = 0 ∧ anyTenant { idle with tenants := [] } = false ∧ (0x3F : BitVec 256) &&& ~~~idle.offered = 0 ∧ (0x40 : BitVec 256) &&& ~~~idle.offered ≠ 0)
      ∧ ((getTenant idle 0).live = true ∧ idle.host.waiting = [])
      ∧ (firstOf { idle with host := { idle.host with waiting := [.push 0 1 2 3] } } (.push 0 4 5 6) = some (.push 0 1 2 3) ∧ (Instr.push 0 1 2 3) ≠ .push 0 4 5 6 ∧ idle.host.bound ≠ none)
      ∧ ((getDie idle 0).state < 2 ∧ 0 < 2 * 1 * 1)
      ∧ (hostBytes idle 0 .store 0x2FFFE 2 = .keys [0x2FFFE, 0x2FFFF] ∧ [0x2FFFE, 0x2FFFF].Nodup)
      ∧ hostBytes idle 0 .store 0x50000 8 = .refused
      ∧ (hostBytes idle 0 .load 0x20000 1 = .keys [0x20000] ∧ poisoned idle.memory 0x20000 1 = false)
      ∧ Canonical idle
      ∧ (match pushQueue queueing 0 0 0x500001 77 with
        | .done _ => true
        | _ => false) = true
      ∧ (match pushQueue queueing 0 0 0x400001 77 with
        | .dropped => true
        | _ => false) = true
      ∧ (counterOk posting 0 66 = true ∧ counterOk posting 0 67 = false ∧ dieHeld posting (dieOf (counterCore 66)) = false)
      ∧ (launchBad idle 0 (launchOf (launchRec 0x100 2 1 1 0x40000 9)) 2 = false ∧ launchBad idle 0 (launchOf (launchRec 0x102 2 1 1 0x40000 9)) 2 = true)
      ∧ (∀ x ∈ idle.launched, x.tenant ≠ 0 ∨ x.job ≠ 9) := by
  and_intros
  all_goals decide +kernel

/-- The words of a supervisor start. -/
def startBlock (entry len : Nat) : BitVec 384 := BitVec.ofNat 384 (len * 2 ^ 64 + entry * 2 ^ 128 + 0x40000 * 2 ^ 192 + 99 * 2 ^ 256)

/-- A line parked by firmware, and one that is not; a job switched out. -/
def parked : State :=
  { posting with
    lines := [{ LiveLine.new 0 0x40080 (.cl1 3) { Line.zero with job := 7, wait := 0xA000000000000000 } with fw := true },
      LiveLine.new 0 0x40100 (.slot 4 3) { Line.zero with job := 7 }]
    switches := [switchAt 7 false] }

/-- A live tenant and a free one; the last tenant number; a service; a gang; a supervisor to start; lines that firmware parked and did not. -/
theorem witness_host_tenant_messages :
    (parked.host.bound.isSome = true ∧ (getTenant parked 0).live = true ∧ (getTenant parked 1).live = false)
      ∧ (63 < 64 ∧ ¬ 64 < 64)
      ∧ (match service parked 0 8 66 1 0 with
        | .done _ v => v == 8
        | .notYet _ => false) = true
      ∧ (gangOk ⟨0, [(1, 1), (1022, 2)]⟩ = true ∧ gangOk ⟨0, [(0, 1)]⟩ = false ∧ parked.accepted.getLsbD 4 = true ∧ parked.remap = none ∧ parked.switches.length < 9)
      ∧ (findSwitch parked 0 9 = none ∧ findSwitch parked 0 7 = some (switchAt 7 false) ∧ (switchAt 7 false).vmod = vmodOf parked 0 7 ∧ (switchAt 7 false).ldrop = 0 ∧ (switchAt 7 false).phase = 7)
      ∧ (nbits (startBlock 0x100 65536).toNat 64 64 = 65536 ∧ nbits (startBlock 0x100 65536).toNat 192 56 = 0x40000 ∧ nbits (startBlock 0x100 65536).toNat 128 48 = 0x100)
      ∧ (match sealPages 0 1 0 idle with
        | .ok s1 => rootPage s1 0 0 0x40000 && (findLine s1 0 0x40000).isNone && cellOf s1 0 0x40000 == some 0x40000
        | _ => false) = true
      ∧ (findLine parked 0 0x40200 = none ∧ (findLine parked 0 0x40080).map (·.fw) = some true ∧ (findLine parked 0 0x40100).map (·.fw) = some false) := by
  and_intros
  all_goals decide +kernel

/-- Dies offline, lost and still held, lost and empty, moving. -/
def dying : State :=
  { idle with dies := [(1, ⟨1, 2, Engine.zero, []⟩), (3, ⟨3, 3, Engine.zero, [5]⟩), (5, ⟨5, 3, Engine.zero, []⟩), (7, ⟨7, 1, Engine.zero, []⟩)] }

/-- An empty module, halted, and checkpoints of it. -/
def quiet : State := { idle with tenants := [(0, { tenantA with halted := true })] }
def moduleImage : ModuleImage := ⟨Memory.zero, [], [], [], [], [], [], [], [], [], [], [], [], 0x3F⟩
def tenantImage : TenantImage := ⟨0, tenantA, [], [], [], [], [], [], [], [], [], [], [], 0x3F⟩
def restorable : State := { idle with moduleCkpt := some moduleImage, tenantCkpts := [tenantImage], tenants := [(0, { Tenant.zero with live := true })] }

/-- Dies in each state; a module to save, images to restore, and none. -/
theorem witness_host_device_messages :
    (dying.host.bound.isSome = true ∧ dying.remap = none)
      ∧ (pairFree dying 1 = true ∧ pairFree dying 0 = false)
      ∧ ((getDie dying 0).state = 0 ∧ (getDie dying 7).state = 1 ∧ 2 ≤ (getDie dying 1).state ∧ (getDie dying 1).holders = [] ∧ (getDie dying 3).holders ≠ [])
      ∧ (dieEmpty dying 6 = true ∧ dieEmpty parked 0 = false)
      ∧ (quiet.lines = [] ∧ quiet.clusters = [] ∧ quiet.dies = [] ∧ quiet.net = [] ∧ quiet.msgs = [] ∧ quiet.pending = [] ∧ quiet.invals = [] ∧ quiet.remap = none ∧ quiet.switches = [])
      ∧ (∀ e ∈ quiet.tenants, e.2.moves = [] ∧ (e.2.live = true → e.2.halted = true))
      ∧ (idle.moduleCkpt = none ∧ restorable.moduleCkpt = some moduleImage ∧ sameMap restorable moduleImage = true ∧ moduleImage.accepted = restorable.accepted)
      ∧ ((getTenant idle 0).live = true ∧ tenantSaved { idle with lines := [LiveLine.new 0 0x40080 .dram Line.zero] } 0 = false ∧ tenantSaved quiet 0 = true ∧ (getTenant quiet 0).moves = [])
      ∧ ((idle.tenantCkpts.find? fun i => i.tenant == 0) = none ∧ (restorable.tenantCkpts.find? fun i => i.tenant == 0) = some tenantImage)
      ∧ ((getTenant restorable 0).live = true ∧ tenantFresh restorable 0 = true ∧ placesFree restorable tenantImage = true ∧ (restoreTenant restorable tenantImage).isSome = true)
      ∧ tenantFresh { restorable with tenants := [(0, tenantA)] } 0 = false := by
  and_intros
  all_goals decide +kernel

/-- Lines in each place. -/
def lineCl1 : LiveLine := { LiveLine.new 0 0x40080 (.cl1 3) { Line.zero with job := 7, pc := 0x100 } with passed := 1 }
def lineSlot : LiveLine := LiveLine.new 0 0x40100 (.slot 4 3) { Line.zero with job := 7, wait := 0x1000000000000001 }
def lineCl2 : LiveLine := { LiveLine.new 0 0x40180 (.cl2 0) { Line.zero with job := 7 } with passedCl := 64 }
def lineFlight : LiveLine := LiveLine.new 0 0x40200 (.flight 9) { Line.zero with job := 8 }
def lineDram : LiveLine := LiveLine.new 0 0x40280 .dram { Line.zero with job := 8 }
def lineTrap : LiveLine := LiveLine.new 0 0x40300 (.cl1 8) { Line.zero with job := 7, wait := 0xA000000000000000, fcode := 5 }

/-- The handler that the trap of the last one waits for. -/
def trapEntry : PendHandler := ⟨0, 0x40300, 8, ⟨0x40300, 0, 5, 0, 8, false, 0x123, 8, 7⟩, 77, 0x900, false⟩

/-- The module with these lines, a record in the ring and the deque of core 5, and a handler to create. -/
def placing (ls : List LiveLine) : State :=
  let s := { idle with
    lines := ls, tenants := [(0, { tenantA with ctxBase := 0x10000, ctxLines := 64 })]
    memory := memPut Memory.zero 0x40280 (lineBytes { Line.zero with pc := 0x44, lver := 3 })
    pending := [trapEntry], launched := [⟨0, 9, 1, none, true, 5⟩] }
  setCore (setCluster s 0 { getCluster s 0 with ready := [(0, 0x40280)], headPassed := 64, headLine := some (0, 0x40280) }) 5
    { Core.zero with deque := [record 0 4], ring := [record 1 3] }
/-- The same after core 9 has looked at core 5 for a record to steal. -/
def refusedFrom (s : State) : State :=
  noticeRefused s (fun r => admits r 9) ((getCore s 5).ring ++ (getCore s 5).deque)
def everywhere : State := placing [lineCl1, lineSlot, lineCl2, lineFlight, lineDram, lineTrap]

/-- Lines that are wanted in their images. -/
def pulled (x : LiveLine) : LiveLine := { x with pull := true }
def wanted : State := placing [pulled lineCl1, pulled lineSlot, pulled lineCl2]

/-- A line in every place, a record to pop and to steal, an old completion, and a handler to create. -/
theorem witness_line_events :
    (slotFree everywhere 3 0 = true ∧ slotFree everywhere 5 1 = true ∧ slotFree everywhere 9 0 = true)
      ∧ (match fillChoice (noticePool everywhere 3) 3 with
        | .line x => x == lineCl1 && x.place == .cl1 3
        | _ => false) = true
      ∧ (match fillChoice (noticePool everywhere 5) 5 with
        | .record r k => (cl1Room (noticePool everywhere 5) 5) && (poolTake (setCore (noticePool everywhere 5) 5 k) r.tenant).isSome
        | _ => false) = true
      ∧ (coreIdle everywhere 9 = true ∧ dieRuns everywhere (dieOf 5) = true ∧ cl1Room everywhere 9 = true)
      ∧ (match dequeSteal (fun r => poppable (refusedFrom everywhere) r && admits r 9) (getCore (refusedFrom everywhere) 5) with
        | Option.some (r, k) => (poolTake (setCore (refusedFrom everywhere) 5 k) r.tenant).isSome
        | _ => false) = true
      ∧ (slotLine wanted 4 3 = some (pulled lineSlot) ∧ mustLeave wanted 4 (pulled lineSlot) = true ∧ mustLeave everywhere 4 lineSlot = false)
      ∧ (victimOf wanted 0 (!(cl1Room wanted 3)) (wanted.lines.filter fun x => x.place == .cl1 3 && storesDone wanted x) = some (pulled lineCl1) ∧ cl2Room wanted (clusterOf 3) = true)
      ∧ (victimOf wanted (dieOfCluster 0) (!(cl2Room wanted 0)) (wanted.lines.filter fun x => x.place == .cl2 0) = some (pulled lineCl2) ∧ cellOf wanted 0 0x40180 = some 0x40180 ∧ dirHeld wanted (pulled lineCl2) = false ∧ ¬ (4095 ≤ (headCounts wanted 0).1 ∧ mayTakeFrom wanted 0 0 = true))
      ∧ Canonical wanted
      ∧ Canonical everywhere
      ∧ (passedFirst (·.passedCl) (readyCl2 everywhere 0) = some lineCl2 ∧ clusterOf 3 = 0)
      ∧ (mayTakeFrom everywhere 0 0 = true ∧ readyHead everywhere 0 = some lineDram ∧ cellOf everywhere 0 0x40280 = some 0x40280 ∧ (memLine everywhere.memory 0x40280).wait = 0 ∧ dirHeld everywhere lineDram = false ∧ cl2Room everywhere 0 = true)
      ∧ 64 ≤ (headCounts everywhere 0).2
      ∧ ((List.range 256).find? fun n => (getCluster everywhere n).ready.contains (0, 0x40280)) = some 0
      ∧ (findLine everywhere 0 0x40200 = some lineFlight ∧ cl1Room everywhere 9 = true)
      ∧ (jobLive everywhere 0 9 = false ∧ jobFrozen everywhere 0 9 = false ∧ endOwed everywhere 0 9 = true)
      ∧ (∀ p ∈ everywhere.net, pktIs 0 9 p = false)
      ∧ (everywhere.pending[0]? = some trapEntry ∧ trapEntry.unread = false ∧ lineTrap.clm = false ∧ lineTrap.stores = 0 ∧ readsDone everywhere 0 0x40300 = true ∧ dirHeld everywhere lineTrap = false ∧ cl1Room everywhere 8 = true ∧ findLine everywhere 0 0x40300 = some lineTrap ∧ contentOf everywhere lineTrap = some lineTrap.line)
      ∧ (waitKind lineTrap.line.wait = 10 ∧ cellOf everywhere 0 0x40300 = some 0x40300 ∧ (poolTake everywhere 0).isSome = true ∧ jobFrozen everywhere 0 7 = false) := by
  and_intros
  all_goals decide +kernel

/-- A packet with its own id, body, place, sender, receiver and line, of job 7. -/
def parcel (id : Nat) (b : PktBody) (l : Loc) (src dst line : Nat) : Pkt :=
  { packet b 0x20000 with id := id, name := id, loc := l, src := src, dst := dst, line := line, job := 7 }

/-- A module with messages, packets, a ticket fetch and an invalidation under way. -/
def messaging : State :=
  let s := setCounter queueing 1 2 ⟨5, 5, 0, true, false⟩
  let s := setTicket (setSlice s 5 ⟨[], [⟨0, 0, 16, 16⟩]⟩) 5 2 { TicketEntry.zero with state := 1, gen := 3, key := 0x20000 }
  let s := setCore s 5 { Core.zero with tlb := [⟨0, 0, 2, 0x2000F⟩], mail := [(3, ⟨1, 1, 0, true, false⟩)] }
  { s with
    lines := [lineCl1, { lineSlot with stores := 2 }, lineCl2, lineDram]
    msgs := [⟨0, 0x40100, .wake 0x1000000000000001, none, 0⟩, ⟨0, 0x99980, .wake 5, none, 0⟩, ⟨0, 0x40080, .wake 5, some (0, 0), 0⟩,
      ⟨0, 0x40180, .wake 5, some (1, 3), 0⟩, ⟨0, 0x40280, .wake 5, none, 0⟩]
    net := [parcel 3 (.post 66 9) (.mbox 1 32) 0 0 0x99980, parcel 5 (.push 0x500001 77) pushLoc 0 0 0x40100,
      parcel 7 .nack pushLoc 0 0 0x40100, parcel 8 (.write 8 0xFEED none) (.cell 0x20008) 0 0 0x40100,
      parcel 9 (.push 0x400001 77) pushLoc 0 0 0x40100, parcel 10 (.write 8 5 none) (.cell 0x20010) 0 0 0x40180]
    invals := [⟨3, false, false, 0, 0x20000, []⟩], nextId := 32 }

/-- A wake, a message to no line, a post, pushes that are taken and dropped, a nack and a store. -/
theorem witness_message_events_packets :
    ((nextMsg messaging 0).isSome = true ∧ (nextMsg messaging 1).isSome = true)
      ∧ (findLine messaging 0 0x99980 = none ∧ findLine messaging 0 0x40100 = some { lineSlot with stores := 2 })
      ∧ (msgHeld messaging { lineSlot with stores := 2 } = false ∧ holderOf { lineSlot with stores := 2 } = some (0, 0))
      ∧ ((nextMsg messaging 2).map (·.fwd) = some (some (0, 0)) ∧ findLine messaging 0 0x40080 = some lineCl1 ∧ holderOf lineCl1 = some (0, 0) ∧ msgHeld messaging lineCl1 = false)
      ∧ ((nextMsg messaging 3).map (·.fwd) = some (some (1, 3)) ∧ findLine messaging 0 0x40180 = some lineCl2 ∧ holderOf lineCl2 = some (0, 0) ∧ msgHeld messaging lineCl2 = false)
      ∧ ((nextMsg messaging 4).map (·.fwd) = some none ∧ findLine messaging 0 0x40280 = some lineDram ∧ msgHeld messaging lineDram = false ∧ lineDram.place = .dram)
      ∧ (findPkt messaging 3 = some (parcel 3 (.post 66 9) (.mbox 1 32) 0 0 0x99980) ∧ isOurs messaging (parcel 3 (.post 66 9) (.mbox 1 32) 0 0 0x99980) = true)
      ∧ (findPkt messaging 5 = some (parcel 5 (.push 0x500001 77) pushLoc 0 0 0x40100) ∧ isOurs messaging (parcel 5 (.push 0x500001 77) pushLoc 0 0 0x40100) = true)
      ∧ (findPkt messaging 7 = some (parcel 7 .nack pushLoc 0 0 0x40100) ∧ isOurs messaging (parcel 7 .nack pushLoc 0 0 0x40100) = true)
      ∧ (findPkt messaging 8 = some (parcel 8 (.write 8 0xFEED none) (.cell 0x20008) 0 0 0x40100) ∧ isOurs messaging (parcel 8 (.write 8 0xFEED none) (.cell 0x20008) 0 0 0x40100) = true)
      ∧ (findPkt messaging 9 = some (parcel 9 (.push 0x400001 77) pushLoc 0 0 0x40100) ∧ isOurs messaging (parcel 9 (.push 0x400001 77) pushLoc 0 0 0x40100) = true)
      ∧ (findPkt messaging 10 = some (parcel 10 (.write 8 5 none) (.cell 0x20010) 0 0 0x40180) ∧ isOurs messaging (parcel 10 (.write 8 5 none) (.cell 0x20010) 0 0 0x40180) = true)
      ∧ (counterServes messaging (parcel 3 (.post 66 9) (.mbox 1 32) 0 0 0x99980) 66 = true ∧ postAhead messaging 0 0x99980 66 3 = false ∧ counterOk messaging 0 66 = true ∧ 0x99980 < 2 ^ 61)
      ∧ (served messaging (parcel 5 (.push 0x500001 77) pushLoc 0 0 0x40100) = true ∧ pushAhead messaging 0 0x40100 0x500001 5 = false ∧ vmodOf messaging 0 7 = 0)
      ∧ (match pushQueue messaging 0 7 0x500001 77 with
        | .done _ => true
        | _ => false) = true
      ∧ (served messaging (parcel 9 (.push 0x400001 77) pushLoc 0 0 0x40100) = true ∧ pushAhead messaging 0 0x40100 0x400001 9 = false)
      ∧ (match pushQueue messaging 0 7 0x400001 77 with
        | .dropped => true
        | _ => false) = true
      ∧ (served messaging (parcel 7 .nack pushLoc 0 0 0x40100) = true ∧ (getTenant messaging 0).qbounce ≠ 0xFFFFFFFF)
      ∧ (performable messaging (parcel 10 (.write 8 5 none) (.cell 0x20010) 0 0 0x40180) = true ∧ countAtCore messaging (parcel 10 (.write 8 5 none) (.cell 0x20010) 0 0 0x40180) = false)
      ∧ (lostDie messaging (parcel 8 (.write 8 0xFEED none) (.cell 0x20008) 0 0 0x40100).loc = none ∧ served messaging (parcel 8 (.write 8 0xFEED none) (.cell 0x20008) 0 0 0x40100) = true ∧ lineSlot.place ≠ .dram) := by
  and_intros
  all_goals decide +kernel

/-- The queue at 0x20020 under way: moving in, resident, and moving out. -/
def shifting (st : BitVec 2) (qs : List ResQueue) : State :=
  let s := hosted (queued 3 5 st Line.zero)
  let s := { s with memory := memWrite s.memory (0x20100 + 32) 8 0xBEEF }
  setCore (writeEntry s 0x20020 { readEntry s.memory 0x20020 with owner := 9 }) 9 { Core.zero with queues := qs }

/-- An expectation, a queue image, a pending ticket, a page to walk to and an invalidation. -/
theorem witness_message_events_units :
    (66 < 2 ^ 17 ∧ dieHeld messaging (dieOf (counterCore 66)) = false ∧ counterOk messaging 0 66 = true ∧ counterOk messaging 0 67 = false)
      ∧ ((5 : BitVec 32) + 9 - 5).toNat < 2 ^ 31
      ∧ (1 < (getTenant messaging 0).qtabLen ∧ entryLoc messaging 0 0 .walk 1 = .ok 0x20020 ∧ (readEntry messaging.memory 0x20020).state = 1)
      ∧ Canonical messaging
      ∧ (bufferRoom messaging 9 2 = true ∧ imageSwapped messaging ⟨0, 0, 0, .walk⟩ (readEntry messaging.memory 0x20020).image.toNat (imagePages (readEntry messaging.memory 0x20020).log2cap.toNat) = none)
      ∧ ((readEntry (shifting 2 [⟨0, 1, [5, 6], 3⟩]).memory 0x20020).state = 2 ∧ (readEntry (shifting 2 [⟨0, 1, [5, 6], 3⟩]).memory 0x20020).owner.toNat = 9 ∧ entryLoc (shifting 2 [⟨0, 1, [5, 6], 3⟩]) 0 0 .walk 1 = .ok 0x20020 ∧ 1 < (getTenant (shifting 2 [⟨0, 1, [5, 6], 3⟩]) 0).qtabLen)
      ∧ (imageSwapped (shifting 2 [⟨0, 1, [5, 6], 3⟩]) ⟨0, 0, 0, .walk⟩ (readEntry (shifting 2 [⟨0, 1, [5, 6], 3⟩]).memory 0x20020).image.toNat (imagePages (readEntry (shifting 2 [⟨0, 1, [5, 6], 3⟩]).memory 0x20020).log2cap.toNat) = none ∧ Canonical (shifting 2 [⟨0, 1, [5, 6], 3⟩]))
      ∧ ((readEntry (shifting 3 []).memory 0x20020).state = 3 ∧ (readEntry (shifting 3 []).memory 0x20020).owner.toNat = 9 ∧ entryLoc (shifting 3 []) 0 0 .walk 1 = .ok 0x20020 ∧ 1 < (getTenant (shifting 3 []) 0).qtabLen)
      ∧ (imageSwapped (shifting 3 []) ⟨0, 0, 0, .walk⟩ (readEntry (shifting 3 []).memory 0x20020).image.toNat (imagePages (readEntry (shifting 3 []).memory 0x20020).log2cap.toNat) = none ∧ Canonical (shifting 3 []))
      ∧ residentQueue (shifting 3 []) 0 1 9 = none
      ∧ ((imageElems (shifting 3 []) ⟨0, 0, 0, .walk⟩ (readEntry (shifting 3 []).memory 0x20020) 2 3).isSome = true ∧ bufferRoom (shifting 3 []) 9 2 = true)
      ∧ ((readEntry (shifting 3 [⟨0, 1, [5, 6], 3⟩]).memory 0x20020).state = 3 ∧ (readEntry (shifting 3 [⟨0, 1, [5, 6], 3⟩]).memory 0x20020).owner.toNat = 9 ∧ entryLoc (shifting 3 [⟨0, 1, [5, 6], 3⟩]) 0 0 .walk 1 = .ok 0x20020 ∧ 1 < (getTenant (shifting 3 [⟨0, 1, [5, 6], 3⟩]) 0).qtabLen)
      ∧ (imageSwapped (shifting 3 [⟨0, 1, [5, 6], 3⟩]) ⟨0, 0, 0, .walk⟩ (readEntry (shifting 3 [⟨0, 1, [5, 6], 3⟩]).memory 0x20020).image.toNat (imagePages (readEntry (shifting 3 [⟨0, 1, [5, 6], 3⟩]).memory 0x20020).log2cap.toNat) = none ∧ Canonical (shifting 3 [⟨0, 1, [5, 6], 3⟩]))
      ∧ residentQueue (shifting 3 [⟨0, 1, [5, 6], 3⟩]) 0 1 9 = some ⟨0, 1, [5, 6], 3⟩
      ∧ (imageWrite ⟨0, 0, 0, .walk⟩ (readEntry (shifting 3 [⟨0, 1, [5, 6], 3⟩]).memory 0x20020) [5, 6] 3 (shifting 3 [⟨0, 1, [5, 6], 3⟩])).isSome = true
      ∧ (imageElems messaging ⟨0, 0, 0, .walk⟩ (readEntry messaging.memory 0x20020) 2 3).isSome = true
      ∧ ((getTicket messaging 5 2).state = 1 ∧ (getTicket messaging 5 2).drop = false ∧ dieHeld messaging (dieOfSlice 5) = false)
      ∧ ((match (getTicket messaging 5 2).got.or (fetchNow messaging 0x20000 8) with
        | some (_ :: _) => true
        | _ => false) = true ∧ (getTicket messaging 5 2).key = 0x20000 ∧ (getTicket messaging 5 2).size = 0)
      ∧ ((getTenant messaging 0).live = true ∧ walkTable (getTenant messaging 0) 0x20000 = some (0, 0x2000F) ∧ leafV 0x2000F = true ∧ leafSwd 0x2000F = false ∧ leafShapeBad 0 0x2000F = false ∧ 0x20000 < windowBase)
      ∧ ((messaging.invals.find? fun i => i.id == 3) = some ⟨3, false, false, 0, 0x20000, []⟩ ∧ underWay messaging ⟨3, false, false, 0, 0x20000, []⟩ 5 = false ∧ (getCore messaging 5).mail ≠ []) := by
  and_intros
  all_goals decide +kernel

/-- A command of the line at 0x40100 in entry 4, queued or running at engine `e` of cluster 0. -/
def command (op : CmdOp) : Cmd := ⟨4, 0, 0, 0, 0, 0x40100, none, false, false, 0, op, none, none, 0, [], 0, none⟩
def job (n : Nat) : JobEntry := ⟨5, 0, 0, n, 0, false, false, 0, 0, false⟩
def working : State :=
  let s := hosted (engines 0 Line.zero)
  { s with
    tenants := [(0, { tenantA with ctxBase := 0x40000, ctxLines := 64 })], lines := [lineSlot]
    owner := s.owner ++ (List.range 40).map fun i => (2 ^ 20 + i, 0) }
def queuedAt (e : Nat) (c : Cmd) : State := setEngine working e { getEngine working e with queue := [c], jobs := [(4, job 0)] }
def runningAt (e : Nat) (c : Cmd) : State := setEngine working e { getEngine working e with running := [c], jobs := [(4, job 2)] }

/-- A stream with staging at row 3, one row held and one released; a weight load from a granule that is not owned; a scale store and
load. -/
def stream : Cmd :=
  { command (.lstream weights target (some staged) 0x800 false false false 77) with
    at_ := 3, stg := [⟨1, 1, 1, 0x40100⟩, ⟨2, 2, 2, 0x40100⟩] }
def badLoad : Cmd := command (.lw (named 70 (tile 70 16 64 1)))
def scaleLoad : Cmd := { command (.sld 9) with res := some 2 }

/-- A copy of 5000 bytes on channel 3. -/
def copying : Cmd := command (.copy 0x20000 0x20100 5000 3 false false 0)
def channelled : State :=
  setCluster working 0 { getCluster working 0 with chans := [(3, ⟨0, 1, 9, 0, some copying, []⟩)], copy := { Engine.zero with jobs := [(4, job 2)] } }

def parkedAt (e : Nat) (c : Cmd) : State := setEngine working e { getEngine working e with parked := [c], jobs := [(4, job 1)] }

/-- The same copy next on its channel. -/
def waitingCopy : State :=
  setCluster working 0 { getCluster working 0 with chans := [(3, ⟨0, 0, 9, 0, none, [copying]⟩)], copy := { Engine.zero with jobs := [(4, job 0)] } }

/-- The stream with a row that waits for a line. -/
def shortStream : Cmd := { stream with at_ := 4, stg := [⟨1, 1, 1, 0x40100⟩, ⟨2, 2, 0, 0⟩] }

/-- A command to start, one that fails, three that end, a stream with a row to deliver and one to write, a copy. -/
theorem witness_engine_events_commands :
    (parkedNext (parkedAt 0 (command .lswap)) 0 = some (command .lswap) ∧ tabFind 4 (getEngine (parkedAt 0 (command .lswap)) 0).jobs = some (job 1))
      ∧ (parkedNext waitingCopy (copyOf 0) = none ∧ tabFind 4 (getEngine waitingCopy (copyOf 0)).jobs = some (job 0) ∧ ((List.range 8).findSome? fun ch => (channelNext waitingCopy 0 ch).map fun c => (ch, c)) = some (3, copying))
      ∧ (deliveringCmd (runningAt 0 shortStream) 0 = some shortStream ∧ mayWork (runningAt 0 shortStream) 0 shortStream = true ∧ cmdFault (runningAt 0 shortStream) 0 shortStream = none ∧ (poolTake (runningAt 0 shortStream) 0).isSome = true ∧ shortStream.stg.find? rowWaiting = some ⟨2, 2, 0, 0⟩ ∧ cl1Room (runningAt 0 shortStream) 5 = true)
      ∧ (stream.stg.find? rowWaiting = none ∧ cl1Room (runningAt 0 stream) 5 = true ∧ clusterOf 5 = 0)
      ∧ (∀ x, findLine (runningAt 3 (command (.scmc 5 77))) 0 0x40100 = some x → x.place ≠ .dram)
      ∧ (parkedNext (queuedAt 0 (command .lswap)) 0 = none ∧ headCmd (queuedAt 0 (command .lswap)) 0 = some (command .lswap) ∧ mayStart (queuedAt 0 (command .lswap)) 0 (command .lswap) = true)
      ∧ (tabFind 4 (getEngine (queuedAt 0 (command .lswap)) 0).jobs = some (job 0) ∧ (command .lswap).guard = none)
      ∧ (runningCmd (runningAt 0 badLoad) 0 4 = some badLoad ∧ mayWork (runningAt 0 badLoad) 0 badLoad = true ∧ (cmdFault (runningAt 0 badLoad) 0 badLoad).isSome = true ∧ tabFind 4 (getEngine (runningAt 0 badLoad) 0).jobs = some (job 2))
      ∧ (runningCmd (runningAt 0 (command .lswap)) 0 4 = some (command .lswap) ∧ mayWork (runningAt 0 (command .lswap)) 0 (command .lswap) = true ∧ cmdFault (runningAt 0 (command .lswap)) 0 (command .lswap) = none ∧ (command .lswap).post = none)
      ∧ (runningCmd (runningAt 3 (command (.scmc 5 77))) 3 4 = some (command (.scmc 5 77)) ∧ mayWork (runningAt 3 (command (.scmc 5 77))) 3 (command (.scmc 5 77)) = true ∧ cmdFault (runningAt 3 (command (.scmc 5 77))) 3 (command (.scmc 5 77)) = none ∧ (command (.scmc 5 77)).post = none)
      ∧ (runningCmd (runningAt 3 scaleLoad) 3 4 = some scaleLoad ∧ mayWork (runningAt 3 scaleLoad) 3 scaleLoad = true ∧ cmdFault (runningAt 3 scaleLoad) 3 scaleLoad = none ∧ scaleLoad.post = none)
      ∧ (deliveringCmd (runningAt 0 stream) 0 = some stream ∧ mayWork (runningAt 0 stream) 0 stream = true ∧ cmdFault (runningAt 0 stream) 0 stream = none ∧ (poolTake (runningAt 0 stream) 0).isSome = true)
      ∧ (∀ r ∈ stream.stg, r.srow ≠ stream.at_ % min staged.desc.rows 8)
      ∧ (((getEngine (runningAt 0 stream) 0).running.find? fun c => c.stg.any fun r => r.srow == 2 && r.state == 2) = some stream ∧ (stream.stg.find? fun r => r.srow == 2 && r.state == 2) = some ⟨2, 2, 2, 0x40100⟩)
      ∧ ((getChan channelled 0 3).cur = some copying ∧ (getChan channelled 0 3).cst = 1 ∧ copying.sent = none ∧ mayWork channelled 2 copying = true)
      ∧ (segmentLen 0x20000 0x20100 5000 false 0 0 = 3840 ∧ checkSegment channelled 0 copying 0x20000 0x20100 3840 = .go 0x20000 (.cell 0x20100))
      ∧ Canonical channelled
      ∧ Canonical (runningAt 3 (command (.scmc 5 77))) := by
  and_intros
  all_goals decide +kernel

/-- Tenant 0 with page 0x20000 between states, and what flash holds. -/
def moving (m : PageMove) (fl : Tab FlashImage) (swapped : Bool) : State :=
  { working with
    tenants := [(0, { tenantA with
      ptab := [(0, 0x17), (2, if swapped then 0x200CF else 0x2004F)], moves := [(2, m)], frames := [0x60000 * 4, 0x50000 * 4] })]
    flash := fl }
def outbound : PageMove := ⟨0, true, some 0x20000, 2, none⟩
def inbound (f : Option Nat) : PageMove := ⟨0, false, f, 2, none⟩
def flashed : FlashImage := ⟨0, 1, [List.replicate 64 3]⟩

/-- The last one in a module in which nothing runs. -/
def still : State := { moving (inbound (Option.some 0x60000)) [] true with lines := [], clusters := [] }

/-- A page on its way out, one that wants a frame, and one that lands. -/
theorem witness_engine_events_pages :
    ((pageMove (moving outbound [] false) 0 0x20000) = some (0, 0x2004F, outbound) ∧ markersBack (moving outbound [] false) outbound = true ∧ framePoisoned (moving outbound [] false) 0x20000 0 = false ∧ swapOutJob (moving outbound [] false) 0 0 0x20000 = none ∧ (getDie (moving outbound [] false) (2 / 2 ^ 37)).state = 0)
      ∧ ((pageMove (moving (inbound none) [] true) 0 0x20000) = some (0, 0x200CF, inbound none) ∧ ((getTenant (moving (inbound none) [] true) 0).frames.find? fun f => f % 4 == 0) = some (0x60000 * 4))
      ∧ ((pageMove (moving (inbound (some 0x60000)) [(2, flashed)] true) 0 0x20000) = some (0, 0x200CF, inbound (some 0x60000)) ∧ tabFind 2 (moving (inbound (some 0x60000)) [(2, flashed)] true).flash = some flashed ∧ flashed.tenant = 0)
      ∧ (dieHeld (moving (inbound (some 0x60000)) [(2, flashed)] true) ((homeDie working 0x60000).getD 0) = false ∧ (getTenant (moving (inbound (some 0x60000)) [(2, flashed)] true) 0).heldRecs = [] ∧ (getTenant (moving (inbound (some 0x60000)) [(2, flashed)] true) 0).heldRoots = [] ∧ (getTenant (moving (inbound (some 0x60000)) [(2, flashed)] true) 0).lostQueues = [])
      ∧ (pageMove still 0 0x20000 = some (0, 0x200CF, inbound (some 0x60000)) ∧ still.lines = [] ∧ still.clusters = [] ∧ still.dies = []) := by
  and_intros
  all_goals decide +kernel

/-- What boot finds and chooses: a good image, a bad key, a die map that names a pair twice. -/
def bootWith (key : Bool) (d : List (Nat × Nat × Nat)) : BootInput :=
  ⟨true, true, if key then 0 else 1, 7, 5, 7, 9, 11, 0x88B6, d, [(3, 14)], [(2, 4)], [(5, 3)], true⟩

/-- A remap of die 0 to pair 4 in phase `p`. -/
def remapping0 (p : Nat) (i : Option Nat) : State :=
  { idle with remap := some ⟨0, 0, 4, p, i⟩, dies := [(0, ⟨0, 1, Engine.zero, []⟩), (4, ⟨4, 2, Engine.zero, []⟩)] }

/-- Reset and after; a good boot and a bad one; the phases of a remap; a die to lose. -/
theorem witness_boot_and_die_events :
    (State.reset.host.phase = 0 ∧ idle.host.phase ≠ 0 ∧ idle.host.faultCkpt = false ∧ idle.remap = none)
      ∧ ((bootFailure State.reset.host (bootWith false [])).isSome = true ∧ bootFailure State.reset.host (bootWith true []) = none ∧ bootChoicesOk (bootWith true []) = true)
      ∧ (dieStopped (remapping0 1 none) 0 = true ∧ cachesEmpty (remapping0 2 none) 0 = true)
      ∧ ((remapping0 4 none).remap = some ⟨0, 0, 4, 4, none⟩ ∧ (getDie (remapping0 4 none) 0).state = 1)
      ∧ Canonical (remapping0 4 none)
      ∧ remapMarked (remapping0 5 (some 99)) ⟨0, 0, 4, 5, some 99⟩ = true
      ∧ findPkt messaging 3 = some (parcel 3 (.post 66 9) (.mbox 1 32) 0 0 0x99980)
      ∧ (7 < 8 ∧ (getDie messaging 7).state ≠ 3) := by
  and_intros
  all_goals decide +kernel

/-- A gang of three members, its flows, and the frames that member 1 sends. -/
def gang : GangMap := ⟨0, [(1, 0x111), (2, 0x222)]⟩
def flowId (s d c : Nat) : FlowId := ⟨s, d, 0, 7, c⟩
def frame (ty : Nat) (f : FlowId) (q : BitVec 32) (ps : List Pkt) : Frame := ⟨1, ty, f, q, 0, 0, ps⟩
def receiving : Flow := ⟨flowId 1 0 0, 3, 0, 5, [], false⟩
def lapsed : Flow :=
  ⟨flowId 0 1 0, 3, 9, 0, [(frame 0 (flowId 0 1 0) 7 [], 2000, 2), (frame 0 (flowId 0 1 0) 8 [], 2000, 64)], false⟩
def ganged : State :=
  { messaging with
    gangs := [(7, gang)], flows := [receiving, lapsed, ⟨flowId 2 0 0, 4, 0, 0, [], true⟩], used := [(0x20000, 0, 0)]
    net := messaging.net ++ [parcel 31 (.write 8 1 none) (.remote 1 0x20000) 0 1 0x40100] }

/-- The wire form of a frame, and that form with an EtherType of another device and cut short. -/
def wire (f : Frame) : List Byte := frameBytes 0x100 0x111 0x88B5 f
def sent : Frame := frame 0 (flowId 1 0 0) 5 [parcel 12 (.write 8 0xFEED none) (.remote 0 0x20008) 1 0 0x40100]
def alien : List Byte := frameBytes 0x100 0x111 0x1234 sent
def cutShort : List Byte := (wire sent).dropLast

/-- What a port reads of it. -/
def read (f : Frame) : RawFrame :=
  match readFrame 0x88B5 (wire f) with
  | .frame r => r
  | _ => ⟨0, 0, f.flow, 0, 0, 0, []⟩
def raw : RawPkt := (read sent).pkts.headD ⟨0, []⟩
def there : Pkt := (pktOfRaw 0 7 raw).getD (parcel 0 .ack (.cell 0) 0 0 0)

/-- Every marker of phase 3. -/
def allMarkers : List (Nat × Nat) := [(1, 0), (1, 1), (1, 2), (2, 0), (2, 1), (2, 2)]
def switching (p : Nat) (resume : Bool) (ls : List LiveLine) : State :=
  { ganged with lines := ls, switches := [{ switchAt p resume with markers := allMarkers }] }
def snapping : State := { ganged with transit := some ⟨7, [⟨7, 0, 0, 0, 0, 0, 0⟩, ⟨7, 3, 0, 0, 0, 0, 0⟩], []⟩ }

/-- Damaged, strange, old, expected and unknown frames; frames to resend and to give up; each phase of a switch and of a resume. -/
theorem witness_fabric_and_gang_events :
    (3 ≤ hostPort ∧ dieRuns ganged (portDie 3) = true ∧ dieRuns ganged 0 = true)
      ∧ readFrame ganged.etherType cutShort = .discarded
      ∧ readFrame ganged.etherType alien = .strange
      ∧ fromBound ganged hostPort (read sent) = false
      ∧ readFrame ganged.etherType (wire sent) = .frame (read sent)
      ∧ (readFrame ganged.etherType (wire (frame 1 (flowId 1 0 0) 3 [])) = .frame (read (frame 1 (flowId 1 0 0) 3 [])) ∧ (read (frame 1 (flowId 1 0 0) 3 [])).ty = 1)
      ∧ (readFrame ganged.etherType (wire (frame 2 (flowId 1 0 0) 3 [])) = .frame (read (frame 2 (flowId 1 0 0) 3 [])) ∧ (read (frame 2 (flowId 1 0 0) 3 [])).ty = 2)
      ∧ (readFrame ganged.etherType (wire (frame 4 (flowId 1 0 0) 3 [])) = .frame (read (frame 4 (flowId 1 0 0) 3 [])) ∧ (read (frame 4 (flowId 1 0 0) 3 [])).ty = 4)
      ∧ (readFrame ganged.etherType (wire (frame 6 (flowId 1 0 0) 3 [])) = .frame (read (frame 6 (flowId 1 0 0) 3 [])) ∧ (read (frame 6 (flowId 1 0 0) 3 [])).ty = 6)
      ∧ readFrame ganged.etherType (wire (frame 0 (flowId 1 0 0) 4 [])) = .frame (read (frame 0 (flowId 1 0 0) 4 []))
      ∧ readFrame ganged.etherType (wire (frame 3 (flowId 1 0 0) 6 [])) = .frame (read (frame 3 (flowId 1 0 0) 6 []))
      ∧ (findFlow ganged (flowId 1 0 0) = some receiving ∧ flowDead ganged (flowId 1 0 0) = false ∧ flowDead ganged (flowId 2 0 0) = true)
      ∧ (seqBefore 4 receiving.expect = true ∧ seqBefore 6 receiving.expect = false ∧ (read sent).seq = receiving.expect ∧ (read sent).ty = 0 ∧ (read sent).flow = flowId 1 0 0)
      ∧ (frameKnown { ganged with gangs := [] } 3 (read sent) = false ∧ frameKnown ganged 3 (read sent) = true ∧ frameKnown (switching 2 true []) 3 (read sent) = true)
      ∧ (isReinjecting ganged 0 7 = false ∧ isReinjecting (switching 2 true []) 0 (rawJob (read sent)) = true)
      ∧ (ganged.net.any fun p => !(isOurs ganged p) && pktClass p.body == 0) = false
      ∧ ((read sent).pkts = [raw] ∧ pktOfRaw 0 7 raw = some there ∧ there.body = .write 8 0xFEED none ∧ usable ganged there = true ∧ isLate ganged there = false)
      ∧ (findFlow ganged (flowId 0 1 0) = some lapsed ∧ lapsed.failed = false)
      ∧ (lapsed.unacked.find? fun u => decide (1024 ≤ u.2.1) && decide (u.2.2 < 64)) = some (frame 0 (flowId 0 1 0) 7 [], 2000, 2)
      ∧ ((lapsed.unacked.any fun u => decide (64 ≤ u.2.2)) = true ∧ receiving.unacked = [] ∧ receiving.expect ≠ 0 ∧ receiving.failed = false)
      ∧ ((ganged.net.find? (outgoing ganged 3)).map (·.id) = some 31 ∧ flowDead ganged (flowOf ganged (parcel 31 (.write 8 1 none) (.remote 1 0x20000) 0 1 0x40100)) = false)
      ∧ (isMember ganged 0 7 1 = true ∧ findSwitch ganged 0 7 = none ∧ ganged.accepted.getLsbD 4 = true ∧ ganged.switches.length < 9)
      ∧ (findSwitch { ganged with switches := [switchAt 3 false] } 0 7 = some (switchAt 3 false) ∧ (switchAt 3 false).markers.contains (1, 2) = false)
      ∧ (findSwitch (switching 0 false []) 0 7 = some { switchAt 0 false with markers := allMarkers } ∧ remapWaits (switching 0 false []) = false)
      ∧ (frozenNow (switching 1 false []) 0 7 = true ∧ allMarked (switching 3 false []) { switchAt 3 false with markers := allMarkers } = true)
      ∧ (ticketsStill (switching 4 false []) 0 7 = true ∧ evictedNow (switching 6 false [lineDram]) 0 7 = true ∧ (switchAt 6 false).keep = false)
      ∧ (reopenAll 0 7 (savedWindows (switchAt 1 true)) (switching 1 true [])).isSome = true
      ∧ (findSwitch (switching 2 true []) 0 7 = some { switchAt 2 true with markers := allMarkers } ∧ findSwitch (switching 3 true []) 0 7 = some { switchAt 3 true with markers := allMarkers }) := by
  and_intros
  all_goals decide +kernel

/-- A link whose peer has latched. -/
theorem witness_transit_events :
    ((List.range 4).any fun kind => (List.range 4).any fun block => (List.range 8).any fun link => isLink snapping kind block link && hasLatched ⟨7, [⟨7, 0, 0, 0, 0, 0, 0⟩, ⟨7, 3, 0, 0, 0, 0, 0⟩], []⟩ (linkPeer kind block link).1 (linkPeer kind block link).2.1) = true := by
  decide +kernel

/-- A nop at the fetch address of a module just reset, and a turn that is an event. -/
def fetching : State := State.reset.withFetchWord 32 0xD8000000
def keeping : State := { fetching with lines := fetching.lines.map fun x => { x with word := some 0xD8000000 } }
def timed : State := { fetching with agenda := [.event .clockReduction] }

/-- What the scan of core 0 finds. -/
def found : State × Option LiveLine := scan 0 (scanOrder (getCore fetching 0).lastSlot) { fetching with agenda := [], tick := fetching.tick + 1 }
def picked : LiveLine := found.2.getD (live Line.zero)
def started : State := { dropLine (passCycle found.1 0) picked.tenant picked.addr with thr := some picked }

/-- A core that finds a line, one that finds none, an event, and lines that end their cycle ready and waiting. -/
theorem witness_step_runs_the_turn :
    (fetching.host.phase = 1 ∧ fetching.agenda = [.cycle 0] ∧ timed.agenda = [.event .clockReduction])
      ∧ (found.2.isSome = true ∧ picked.derr = [] ∧ picked.word = none)
      ∧ ((scan 0 (scanOrder (getCore keeping 0).lastSlot) { keeping with agenda := [], tick := keeping.tick + 1 }).2.bind (·.word) = some 0xD8000000 ∧ featureOk keeping 0xD8000000 = true ∧ decodeNat 0xD8000000 = .ok (.nop 0) ∧ keeping.agenda = [.cycle 0])
      ∧ (scan 9 (scanOrder (getCore fetching 9).lastSlot) fetching).2 = none
      ∧ locate started ⟨picked.line.tenant.toNat, picked.line.job.toNat, picked.line.tlvl.toNat, .core 0⟩ .fetch (wordPc picked).toNat 0 = .ok (.cell 0)
      ∧ (poisoned started.memory 0 4 = false ∧ featureOk started (memRead started.memory 0 4) = true ∧ decodeNat (memRead started.memory 0 4) = .ok (.nop 0))
      ∧ scanOrder (getCore fetching 0).lastSlot = [] ++ 0 :: (scanOrder (getCore fetching 0).lastSlot).tail
      ∧ (fetching.lines.find? (inSlot 0 0)).map (fun x => eligible fetching 0 x && x.forfeit == 0) = some true
      ∧ ((busy Line.zero).thr = some (live Line.zero) ∧ (live Line.zero).place = .slot 0 0 ∧ (live Line.zero).line.wait = 0 ∧ waiter1.line.wait ≠ 0 ∧ waiter1.place = .slot 0 0) := by
  and_intros
  all_goals decide +kernel

/-- An instruction and a word. -/
theorem witness_encoding_round_trip :
    ((Instr.add 0 3 1 2 2 1).wf = true ∧ encodeNat (.add 0 3 1 2 2 1) = some 0x00194081)
      ∧ (0x00194081 < 2 ^ 32 ∧ decodeNat 0x00194081 = .ok (.add 0 3 1 2 2 1)) := by
  and_intros
  all_goals decide +kernel

/-- A canonical memory with a word in it, and a step from it. -/
theorem witness_steps_keep_memory_canonical :
    Canonical fetching
      ∧ (match step fetching with
        | .next _ => true
        | _ => false) = true := by
  and_intros
  all_goals decide +kernel

/-- A memory that is not canonical: an entry that an unlisted byte already reads as. -/
theorem witness_canonical_memory_is_not_all_memory :
    (memWf { Memory.zero with bytes := [(5, 0)] } = false ∧ memWf { Memory.zero with bytes := [(5, 1), (5, 2)] } = false) := by
  and_intros
  all_goals decide +kernel

/-- Lines with a register pending: in an ended window, and not. -/
def closed : Line := { regs [] with laopen := true, lacnt := 0, pend := 0b100000 }
def holding : Line := { regs [] with pend := 0b110 }

/-- A privileged word at level 0, a false guard, an ended window, a pending source below another. -/
theorem witness_words_wait_their_turn :
    encodeNat (.rft 0 0 1) = some 0xCC000001
      ∧ (live Line.zero).line.tlvl.toNat < wordLevel (.rft 0 0 1)
      ∧ ((encodeNat (.br 1 5)) = some 0x40400005 ∧ guardTrue Line.zero (BitVec.ofNat 4 (0x40400005 / 2 ^ 22)) = false)
      ∧ ((busy closed).thr = some (live closed) ∧ closed.laopen = true ∧ closed.lacnt = 0 ∧ closed.pend ≠ 0 ∧ guardTrue closed 0 = true)
      ∧ ((busy holding).thr = some (live holding) ∧ isPending holding 1 = true ∧ isPending holding 0 = false ∧ (1 : Reg) ∈ [(3 : Reg), 1, 2] ∧ guardTrue holding 0 = true)
      ∧ (∀ q ∈ [(3 : Reg), 1, 2], q.toNat < (1 : Reg).toNat → isPending holding q = false)
      ∧ ((encodeNat (.and 0 3 1 2 0)).isSome = true ∧ (encodeNat (.addi 0 3 1 5)).isSome = true) := by
  and_intros
  all_goals decide +kernel

/-- The tenant with a vector table at 0x20000, whose entry 5 names a handler and entry 6 none, and a fault queue at 0x10000. -/
def vectored (fq : Word) (l : Line) : State :=
  { busy l with
    tenants := [(0, { tenantA with trapvec := 0x20000, fqBase := fq, fqLog2 := 4, fqHead := 0xFFFFFFF0, fqTail := 0xFFFFFFFF })]
    memory := memWrite Memory.zero 0x20028 8 0x8000000000000900 }

def line74 : Line := { regs [] with tlvl := 2 }

/-- The same with the table on a page that is swapped out. -/
def tableAway : State := { swapping Line.zero with tenants := [(0, { getTenant (swapping Line.zero) 0 with trapvec := 0x50000 })] }

/-- An entry that names a handler and one that does not; a fault queue with one record of room, and none; levels 0, 1 and 2. -/
theorem witness_trap_entry :
    locate tableAway ⟨0, 0, 1, .walk⟩ .load (0x50000 + 8 * 5) 0 = .error (.page (0x50000 + 8 * 5))
      ∧ ((live Line.zero).line.tlvl = 0 ∧ (5 : Byte) ≠ 9)
      ∧ (locate (vectored 0x10000 Line.zero) ⟨0, 0, 1, .walk⟩ .load (0x20000 + 8 * 5) 0 = .ok (.cell 0x20028) ∧ locate (vectored 0x10000 Line.zero) ⟨0, 0, 1, .walk⟩ .load (0x20000 + 8 * 6) 0 = .ok (.cell 0x20030))
      ∧ ((memWord (vectored 0x10000 Line.zero).memory 0x20028).getLsbD 63 = true ∧ nbits (memWord (vectored 0x10000 Line.zero).memory 0x20028).toNat 48 15 = 0 ∧ (memWord (vectored 0x10000 Line.zero).memory 0x20030).getLsbD 63 = false)
      ∧ ((getTenant (vectored 0x10000 Line.zero) 0).heldRecs = [] ∧ (getTenant (vectored 0x10000 Line.zero) 0).fqBase ≠ 0 ∧ ((0xFFFFFFFF : BitVec 32) - 0xFFFFFFF0).toNat ≠ 2 ^ 4)
      ∧ Canonical (vectored 0x10000 Line.zero)
      ∧ locate (vectored 0x10000 Line.zero) ⟨0, 0, 1, .walk⟩ .store (0x10000 + 32 * ((0xFFFFFFFF : BitVec 32).toNat % 2 ^ 4)) 0 = .ok (.cell 0x101E0)
      ∧ ((getTenant (vectored 0 Line.zero) 0).fqBase = 0 ∧ (getTenant (vectored 0 Line.zero) 0).fqLost ≠ 0xFFFFFFFF)
      ∧ ((live line68).line.tlvl.toNat ≤ 1 ∧ (live line68).line.hnd = false ∧ ¬ (live line68).line.tlvl = 0 ∧ 2 ≤ (live line74).line.tlvl.toNat) := by
  and_intros
  all_goals decide +kernel

def line75 : Line := regs [(2, 0x3F800000, 5), (3, 0x33800000, 5)]

/-- A word of each group completes. -/
theorem witness_word_frames :
    ((after (.add 0 1 2 3 0 0) (busy line15)).map fun t => t.line.wait) = some 0
      ∧ ((after (.cmp 0 1 2 3 0 0 0) (busy line15)).map fun t => t.line.wait) = some 0
      ∧ ((after (.fadd 0 1 2 3 1 0) (busy line75)).map fun t => t.line.wait) = some 0
      ∧ ((after (.ld 0 1 2 0 0 0 0) (busy line15)).map fun t => t.line.wait) = some 0
      ∧ ((after (.st 0 3 2 0 0 0 0) (busy line15)).map fun t => t.line.wait) = some 0
      ∧ ((busy Line.zero).thr = some (live Line.zero) ∧ (live Line.zero).line.wait = 0) := by
  and_intros
  all_goals decide +kernel

/-- A write read by a second thread, which releases what a third acquires; the third reads the write. -/
def causal : Exec :=
  execution [wordEv 0 0 0 (.st 0 1 2 0 0 0 0) [] [(locX, [1])], wordEv 1 0 32 (.ld 0 4 2 0 0 0 0) [(locX, [1])] [],
    wordEv 1 1 32 (.st 0 1 3 0 2 0 0) [] [(locY, [1])], wordEv 2 0 64 (.ld 0 1 3 0 2 0 0) [(locY, [1])] [],
    wordEv 2 1 64 (.ld 0 4 2 0 0 0 0) [(locX, [1])] []]
    [(2, 3, locX), (4, 5, locY), (2, 6, locX)] [2] [4] []

/-- Two and two writes that do not cross. -/
def uncrossed : Exec := { crossed 2 with co := [(locX, [0, 2, 5]), (locY, [1, 3, 4])] }

/-- An allowed execution of each shape. -/
theorem witness_litmus_outcomes :
    (causal.allowed = true ∧ causal.rfAt 2 3 = true ∧ causal.po 3 4 = true ∧ causal.rfAt 4 5 = true ∧ causal.po 5 6 = true ∧ causal.inWindow true 5 6 = false)
      ∧ ((causal.ev 4).isWrite = true ∧ (causal.con 4).rel = true ∧ (causal.con 4).act = .write ∧ (causal.con 5).acq = true ∧ (causal.con 5).act = .read ∧ causal.mutual 4 5 = true)
      ∧ ((causal.ev 2).agent ≠ (causal.ev 3).agent ∧ (causal.ev 4).agent ≠ (causal.ev 5).agent)
      ∧ (uncrossed.allowed = true ∧ uncrossed.po 2 3 = true ∧ uncrossed.po 4 5 = true ∧ uncrossed.releases 3 = true ∧ uncrossed.releases 5 = true) := by
  and_intros
  all_goals decide +kernel

/-! ### Clauses about completion: what engines, queues and the machine around them then hold -/

/-- A weight load, the reset of both planes, and a stream without staging at row 14 of 16. -/
def loading : Cmd := command (.lw weights)
def clearing2 : Cmd := command (.lcfg true true)
def streaming : Cmd := { command (.lstream weights target none 0 false false false 77) with at_ := 14 }

/-- The same module in which the active plane belongs to another job. -/
def otherJob (c : Cmd) : State :=
  let s := runningAt 0 c
  setCluster s 0 { getCluster s 0 with active := { (getCluster s 0).active with job := 9 } }

/-- A plane of 16 BF16 ones and one of a BFP block, and activations of one. -/
def ones : Plane := { Plane.zero with fmt := 1, k := 16, n := 1, elems := List.replicate 16 [0x3F80] }
def blockOnes : Plane := { Plane.zero with fmt := 8, k := 16, n := 1, elems := List.replicate 16 [3], exps := [[127]] }

/-- A weight load, a reset of planes that are the job's and of one that is not, and a stream near its end. -/
theorem witness_last_words_completion :
    (runningCmd (runningAt 0 loading) 0 4 = some loading ∧ mayWork (runningAt 0 loading) 0 loading = true ∧ cmdFault (runningAt 0 loading) 0 loading = none ∧ (tabFind 4 (getEngine (runningAt 0 loading) 0).jobs).isSome = true ∧ loading.entry = 4)
      ∧ (runningCmd (runningAt 0 clearing2) 0 4 = some clearing2 ∧ mayWork (runningAt 0 clearing2) 0 clearing2 = true ∧ cmdFault (runningAt 0 clearing2) 0 clearing2 = none ∧ (tabFind 4 (getEngine (runningAt 0 clearing2) 0).jobs).isSome = true ∧ clearing2.entry = 4)
      ∧ (runningCmd (runningAt 0 streaming) 0 4 = some streaming ∧ mayWork (runningAt 0 streaming) 0 streaming = true ∧ cmdFault (runningAt 0 streaming) 0 streaming = none ∧ (tabFind 4 (getEngine (runningAt 0 streaming) 0).jobs).isSome = true ∧ streaming.entry = 4)
      ∧ (runningCmd (otherJob clearing2) 0 4 = some clearing2 ∧ mayWork (otherJob clearing2) 0 clearing2 = true ∧ cmdFault (otherJob clearing2) 0 clearing2 = none ∧ (tabFind 4 (getEngine (otherJob clearing2) 0).jobs).isSome = true ∧ clearing2.entry = 4)
      ∧ (loading.op = .lw weights ∧ clearing2.op = .lcfg true true ∧ streaming.op = .lstream weights target none 0 false false false 77 ∧ streaming.at_ < weights.desc.rows)
      ∧ ((getCluster (runningAt 0 clearing2) 0).active.tenant = clearing2.tenant ∧ (getCluster (runningAt 0 clearing2) 0).active.job = clearing2.job ∧ (getCluster (otherJob clearing2) 0).active.job ≠ clearing2.job)
      ∧ (lastOf 0 = 0 ∧ streaming.at_ + (choose (runningAt 0 streaming) (weights.desc.rows - streaming.at_)).1 + 1 ≤ weights.desc.rows) := by
  and_intros
  all_goals decide +kernel

/-- Sixteen products of a plane of each kind with a word to start from. -/
theorem witness_engine_sums :
    (isBfp ones.fmt = false ∧ isBfp blockOnes.fmt = true ∧ (0 : Nat) < 16 ∧ 16 ≤ 32)
      ∧ (∀ x, x < 16 → (List.replicate 16 (Fv.fin false 1 0)).getD (0 + x) (.zero false) = .fin false 1 0 ∧ elemValue ones.fmt (ones.elem (0 + x) 0) 0 = .fin false 128 (-7))
      ∧ ((blockOnes.exps.getD 0 []).getD 0 0 ≠ 255 ∧ (blockOnes.exps.getD 0 []).getD 0 0 ≠ 0 ∧ ones.scale 0 = none ∧ blockOnes.scale 0 = none) := by
  and_intros
  all_goals decide +kernel

/-- Tread command `fn` on FP32 tiles, to a tile or to a register. -/
def treading (fn : Nat) : Cmd :=
  command (.tread fn (some (named 6 (tile 6 16 64 0))) (some (named 7 (tile 7 16 64 0))) (some (named 8 (tile 8 16 64 0))) none 0 false)
def summing : Cmd := { command (.tread 9 none (some (named 9 (tile 9 1 64 0))) none none 0 false) with res := some 3 }

/-- Each function on three tiles, and a reduction to a register. -/
theorem witness_tread_words_completion :
    (∀ n, n < 12 → runningCmd (runningAt 1 (treading n)) 1 4 = some (treading n) ∧ mayWork (runningAt 1 (treading n)) 1 (treading n) = true ∧ cmdFault (runningAt 1 (treading n)) 1 (treading n) = none ∧ (tabFind 4 (getEngine (runningAt 1 (treading n)) 1).jobs).isSome = true ∧ (treading n).entry = 4)
      ∧ (runningCmd (runningAt 1 summing) 1 4 = some summing ∧ mayWork (runningAt 1 summing) 1 summing = true ∧ cmdFault (runningAt 1 summing) 1 summing = none ∧ (tabFind 4 (getEngine (runningAt 1 summing) 1).jobs).isSome = true ∧ summing.entry = 4)
      ∧ (treadOf 0 = 1 ∧ summing.res = some 3)
      ∧ (isBfp (tile 6 16 64 0).fmt.toNat = false ∧ fmtValid (tile 6 16 64 0).fmt.toNat = true ∧ (tile 6 16 64 0).base.toNat % 8 = 0 ∧ (tile 6 16 64 0).stride.toNat % 8 = 0 ∧ (tile 6 16 64 0).rowBytes ≤ (tile 6 16 64 0).stride.toNat ∧ (List.replicate 64 (Fv.fin false 1 0)).length = (tile 6 16 64 0).cols)
      ∧ Canonical (runningAt 1 (treading 0)) := by
  and_intros
  all_goals decide +kernel

/-- Finite values with their numbers. -/
theorem witness_engine_arithmetic :
    ratOf (.fin false 3 (-1)) = some (3 / 2) ∧ ratOf (.fin true 1 3) = some (-8) ∧ ratOf (.zero true) = some 0 := by
  norm_num [ratOf]

/-- Blocks of remote commands: weight loads, plane resets, and streams whose own block stands at 0x20040. -/
def remoteLoad : Nat := 0 * 2 ^ 12 + 1 * 2 ^ 22 + 2 * 2 ^ 23 + (1 * 4096 + 3) * 2 ^ 64
def remoteBadLoad : Nat := 0 * 2 ^ 12 + 1 * 2 ^ 22 + 2 * 2 ^ 23 + (2 * 4096 + 3) * 2 ^ 64
def remoteCfg : Nat := 4 * 2 ^ 12 + 1 * 2 ^ 22 + 2 * 2 ^ 23 + 3 * 2 ^ 64
def remoteBadCfg : Nat := 4 * 2 ^ 12 + 1 * 2 ^ 22 + 2 * 2 ^ 23 + 4 * 2 ^ 64
def remoteStream : Nat := 2 * 2 ^ 12 + 1 * 2 ^ 22 + 2 * 2 ^ 23 + 0x20040 * 2 ^ 64
def remoteOddStream : Nat := 2 * 2 ^ 12 + 1 * 2 ^ 22 + 2 * 2 ^ 23 + 0x20041 * 2 ^ 64

/-- The module with such a block and a stream block. -/
def farStream (n b : Nat) (l : Line) : State := let s := engines n l; { s with memory := memWrite s.memory 0x20040 64 b }

def line76 : Line := regs [(2, 1125899906908416, 11), (3, 0x20000, 0)]

/-- A remote weight load and one of a tile that is none, a remote reset and one with a reserved bit, a remote stream, one that is refused, and one that is not aligned. -/
theorem witness_remote_blocks :
    (firstBad (remoteChecks remoteLoad) = none ∧ bfield remoteLoad 12 4 = 0 ∧ bfield remoteLoad 64 64 = (1 * 4096 + 3))
      ∧ Ready (hdr 0 [1, 2, 3]) (farStream remoteLoad streamBlock line52) (live line52)
      ∧ Readable (farStream remoteLoad streamBlock line52) (live line52) 0x20000 64 0x20000
      ∧ memRead (farStream remoteLoad streamBlock line52).memory 0x20000 64 = remoteLoad
      ∧ ((BitVec.ofNat 64 562949953487104).getLsbD 49 = true ∧ (BitVec.ofNat 64 562949953487104).getLsbD 51 = false)
      ∧ Enters (farStream remoteLoad streamBlock line52) (live line52) 0 ⟨lastOf 0, ⟨0, 0, 0, 1, 2⟩, 0, 1, none, none, .lswap, true⟩
      ∧ (resolveHandle (farStream remoteLoad streamBlock line52) 0 (live line52).line.hwin false (BitVec.ofNat 64 (1 * 4096 + 3)) = .ok weights ∧ weightOk 0 weights = true)
      ∧ (firstBad (remoteChecks remoteBadLoad) = none ∧ bfield remoteBadLoad 12 4 = 0 ∧ bfield remoteBadLoad 64 64 = (2 * 4096 + 3))
      ∧ Ready (hdr 0 [1, 2, 3]) (farStream remoteBadLoad streamBlock line52) (live line52)
      ∧ Readable (farStream remoteBadLoad streamBlock line52) (live line52) 0x20000 64 0x20000
      ∧ memRead (farStream remoteBadLoad streamBlock line52).memory 0x20000 64 = remoteBadLoad
      ∧ ((BitVec.ofNat 64 562949953487104).getLsbD 49 = true ∧ (BitVec.ofNat 64 562949953487104).getLsbD 51 = false)
      ∧ Enters (farStream remoteBadLoad streamBlock line52) (live line52) 0 ⟨lastOf 0, ⟨0, 0, 0, 1, 2⟩, 0, 1, none, none, .lswap, true⟩
      ∧ (resolveHandle (farStream remoteBadLoad streamBlock line52) 0 (live line52).line.hwin false (BitVec.ofNat 64 (2 * 4096 + 3)) = .ok target ∧ weightOk 0 target = false)
      ∧ (firstBad (remoteChecks remoteCfg) = none ∧ bfield remoteCfg 12 4 = 4 ∧ bfield remoteCfg 64 64 = 3)
      ∧ Ready (hdr 0 [1, 2, 3]) (farStream remoteCfg streamBlock line76) (live line76)
      ∧ Readable (farStream remoteCfg streamBlock line76) (live line76) 0x20000 64 0x20000
      ∧ memRead (farStream remoteCfg streamBlock line76).memory 0x20000 64 = remoteCfg
      ∧ ((BitVec.ofNat 64 1125899906908416).getLsbD 50 = true ∧ (BitVec.ofNat 64 1125899906908416).getLsbD 51 = false)
      ∧ Enters (farStream remoteCfg streamBlock line76) (live line76) 0 ⟨lastOf 0, ⟨0, 0, 0, 1, 2⟩, 0, 1, none, none, .lswap, true⟩
      ∧ (firstBad (remoteChecks remoteBadCfg) = none ∧ bfield remoteBadCfg 12 4 = 4 ∧ bfield remoteBadCfg 64 64 = 4)
      ∧ Ready (hdr 0 [1, 2, 3]) (farStream remoteBadCfg streamBlock line76) (live line76)
      ∧ Readable (farStream remoteBadCfg streamBlock line76) (live line76) 0x20000 64 0x20000
      ∧ memRead (farStream remoteBadCfg streamBlock line76).memory 0x20000 64 = remoteBadCfg
      ∧ ((BitVec.ofNat 64 1125899906908416).getLsbD 50 = true ∧ (BitVec.ofNat 64 1125899906908416).getLsbD 51 = false)
      ∧ Enters (farStream remoteBadCfg streamBlock line76) (live line76) 0 ⟨lastOf 0, ⟨0, 0, 0, 1, 2⟩, 0, 1, none, none, .lswap, true⟩
      ∧ (firstBad (remoteChecks remoteStream) = none ∧ bfield remoteStream 12 4 = 2 ∧ bfield remoteStream 64 64 = 0x20040)
      ∧ Ready (hdr 0 [1, 2, 3]) (farStream remoteStream streamBlock line55) (live line55)
      ∧ Readable (farStream remoteStream streamBlock line55) (live line55) 0x20000 64 0x20000
      ∧ memRead (farStream remoteStream streamBlock line55).memory 0x20000 64 = remoteStream
      ∧ ((BitVec.ofNat 64 281474976776448).getLsbD 48 = true ∧ (BitVec.ofNat 64 281474976776448).getLsbD 51 = false)
      ∧ Enters (farStream remoteStream streamBlock line55) (live line55) 0 ⟨lastOf 0, ⟨0, 0, 0, 1, 2⟩, 0, 1, none, none, .lswap, true⟩
      ∧ Readable (farStream remoteStream streamBlock line55) (live line55) 0x20040 64 0x20040
      ∧ memRead (farStream remoteStream streamBlock line55).memory 0x20040 64 = streamBlock
      ∧ blockTiles (farStream remoteStream streamBlock line55) (issueCtx (hdr 0 [1, 2, 3]) (live line55)) (streamHandles streamBlock) = .ok [weights, target, staged]
      ∧ firstBad (streamChecks (farStream remoteStream streamBlock line55) 0 (planeAhead (farStream remoteStream streamBlock line55) 0) streamBlock weights target (some staged)) = none
      ∧ (firstBad (remoteChecks remoteStream) = none ∧ bfield remoteStream 12 4 = 2 ∧ bfield remoteStream 64 64 = 0x20040)
      ∧ Ready (hdr 0 [1, 2, 3]) (farStream remoteStream badStream line55) (live line55)
      ∧ Readable (farStream remoteStream badStream line55) (live line55) 0x20000 64 0x20000
      ∧ memRead (farStream remoteStream badStream line55).memory 0x20000 64 = remoteStream
      ∧ ((BitVec.ofNat 64 281474976776448).getLsbD 48 = true ∧ (BitVec.ofNat 64 281474976776448).getLsbD 51 = false)
      ∧ Enters (farStream remoteStream badStream line55) (live line55) 0 ⟨lastOf 0, ⟨0, 0, 0, 1, 2⟩, 0, 1, none, none, .lswap, true⟩
      ∧ Readable (farStream remoteStream badStream line55) (live line55) 0x20040 64 0x20040
      ∧ memRead (farStream remoteStream badStream line55).memory 0x20040 64 = badStream
      ∧ blockTiles (farStream remoteStream badStream line55) (issueCtx (hdr 0 [1, 2, 3]) (live line55)) (streamHandles badStream) = .ok [weights, target]
      ∧ (firstBad (streamChecks (farStream remoteStream badStream line55) 0 (planeAhead (farStream remoteStream badStream line55) 0) badStream weights target none)).isSome = true
      ∧ (firstBad (remoteChecks remoteOddStream) = none ∧ bfield remoteOddStream 12 4 = 2 ∧ bfield remoteOddStream 64 64 = 0x20041)
      ∧ Ready (hdr 0 [1, 2, 3]) (farStream remoteOddStream streamBlock line55) (live line55)
      ∧ Readable (farStream remoteOddStream streamBlock line55) (live line55) 0x20000 64 0x20000
      ∧ memRead (farStream remoteOddStream streamBlock line55).memory 0x20000 64 = remoteOddStream
      ∧ ((BitVec.ofNat 64 281474976776448).getLsbD 48 = true ∧ (BitVec.ofNat 64 281474976776448).getLsbD 51 = false)
      ∧ Enters (farStream remoteOddStream streamBlock line55) (live line55) 0 ⟨lastOf 0, ⟨0, 0, 0, 1, 2⟩, 0, 1, none, none, .lswap, true⟩ := by
  and_intros
  all_goals first | decide +kernel | (unfold AccessesDone; decide +kernel) | exact within (by decide +kernel)

def line77 : Line := regs [(2, 0x70000, 0)]

def line78 : Line := regs [(2, 0xFFFFFFFFFFFF00, 0)]

def line79 : Line := regs [(2, 0x100000000000000, 0)]

/-- The swap module with a page of another member's DRAM at 0x70000. -/
def swappingFar (n : Nat) (l : Line) : State :=
  let s := guardSwap n l
  { s with tenants := [(0, { getTenant s 0 with ptab := (getTenant s 0).ptab ++ [(7, 2 ^ 55 + 2 ^ 45 + 0x2000F)] })], gangs := [(0, ⟨0, [(1, 0x111)]⟩)] }

/-- A remote page, a reserved part of the window, and an address from 2^56 on. -/
theorem witness_swap_words_elsewhere :
    Ready (hdr 0 [1, 2]) (swappingFar 1 line77) (live line77)
      ∧ Ready (hdr 0 [1, 2, 3]) (swappingFar 1 line77) (live line77)
      ∧ getTag (live line77).line 2 = 0
      ∧ guardFree (swappingFar 1 line77) 0 0 formN = false
      ∧ Ready (hdr 0 [1, 2]) (swappingFar 1 line78) (live line78)
      ∧ Ready (hdr 0 [1, 2, 3]) (swappingFar 1 line78) (live line78)
      ∧ getTag (live line78).line 2 = 0
      ∧ guardFree (swappingFar 1 line78) 0 0 formN = false
      ∧ Ready (hdr 0 [1, 2]) (swappingFar 1 line79) (live line79)
      ∧ Ready (hdr 0 [1, 2, 3]) (swappingFar 1 line79) (live line79)
      ∧ getTag (live line79).line 2 = 0
      ∧ guardFree (swappingFar 1 line79) 0 0 formN = false
      ∧ (findLeaf (swappingFar 1 line77) (whoOf (live line77)) 0x70000 = some (0, 2 ^ 55 + 2 ^ 45 + 0x2000F) ∧ checkLeaf (swappingFar 1 line77) (whoOf (live line77)) .load 0x70000 (some (0, 2 ^ 55 + 2 ^ 45 + 0x2000F)) = .ok (0, 2 ^ 55 + 2 ^ 45 + 0x2000F) ∧ leafRemote (2 ^ 55 + 2 ^ 45 + 0x2000F) = true ∧ dieOfCluster 0 = 0)
      ∧ Enters (swappingFar 1 line77) (live line77) 0 ⟨swapOf 0, formN, 0, 1, none, none, (.swpin 0x70000), false⟩
      ∧ Enters (swappingFar 1 line77) (live line77) 0 ⟨swapOf 0, formN, 0, 1, none, none, (.swpout 0x70000), false⟩
      ∧ Enters (swappingFar 1 line77) (live line77) 0 ⟨swapOf 0, formN, 0, 1, (some (3, 0)), none, (.swpq 0x70000), false⟩
      ∧ (regionOf 0xFFFFFFFFFFFF00 = .reserved ∧ regionOf 0xFF000000000000 ≠ .reserved ∧ 2 ^ 56 ≤ 0x100000000000000) := by
  and_intros
  all_goals first | decide +kernel | (unfold AccessesDone; decide +kernel)

/-- Packets and messages routed under an older DMGEN, a read of a line in a slot, and a packet of a save area. -/
def outdated : State := { messaging with dmgen := 1, net := [{ parcel 13 (.read 8 16 2) (.virt 0x20010) 0 0 0x40100 with dmgen := 0 }] }
def reading : State := { messaging with msgs := [], net := [parcel 11 (.read 8 16 2) (.cell 0x20008) 0 0 0x40100] }

/-- A message of an older DMGEN, a load with an error, elements for an image and for a buffer, and a packet of a save area. -/
theorem witness_messages_and_pushes :
    (cutOpen messaging = false ∧ cutOpen reading = false)
      ∧ ((nextMsg outdated 0).map (·.dmgen) = some 0 ∧ outdated.dmgen = 1 ∧ (nextMsg messaging 0).map (·.dmgen) = some messaging.dmgen)
      ∧ (findPkt reading 11 = some (parcel 11 (.read 8 16 2) (.cell 0x20008) 0 0 0x40100) ∧ isOurs reading (parcel 11 (.read 8 16 2) (.cell 0x20008) 0 0 0x40100) = true ∧ served reading (parcel 11 (.read 8 16 2) (.cell 0x20008) 0 0 0x40100) = true ∧ lostDie reading (parcel 11 (.read 8 16 2) (.cell 0x20008) 0 0 0x40100).loc = none)
      ∧ (findLine reading 0 0x40100 = some { lineSlot with stores := 2 } ∧ reachable reading { lineSlot with stores := 2 } = true ∧ msgAhead reading 0 0x40100 = false ∧ lineSlot.place ≠ .dram)
      ∧ (entryLoc queueing 0 0 .walk (queueNum 0x500001) = .ok 0x20020 ∧ poisoned queueing.memory 0x20020 32 = false ∧ namesLive queueing 0 0x500001 (readEntry queueing.memory 0x20020) = true ∧ (readEntry queueing.memory 0x20020).state = 1)
      ∧ Canonical queueing
      ∧ (tableLoc queueing ⟨0, 0, 0, .walk⟩ (elemVa (readEntry queueing.memory 0x20020) 5) = .ok 0x20128 ∧ ((5 : BitVec 32) - 3).toNat ≠ 2 ^ 4)
      ∧ (entryLoc (shifting 2 [⟨0, 1, [5, 6], 3⟩]) 0 0 .walk 1 = .ok 0x20020 ∧ namesLive (shifting 2 [⟨0, 1, [5, 6], 3⟩]) 0 0x500001 (readEntry (shifting 2 [⟨0, 1, [5, 6], 3⟩]).memory 0x20020) = true ∧ (readEntry (shifting 2 [⟨0, 1, [5, 6], 3⟩]).memory 0x20020).state = 2 ∧ residentQueue (shifting 2 [⟨0, 1, [5, 6], 3⟩]) 0 1 9 = some ⟨0, 1, [5, 6], 3⟩ ∧ poisoned (shifting 2 [⟨0, 1, [5, 6], 3⟩]).memory 0x20020 32 = false)
      ∧ (bufferLoad (getCore (shifting 2 [⟨0, 1, [5, 6], 3⟩]) 9) < 2048 ∧ dieHeld (shifting 2 [⟨0, 1, [5, 6], 3⟩]) (dieOf 9) = false)
      ∧ Canonical (shifting 2 [⟨0, 1, [5, 6], 3⟩])
      ∧ (findPkt outdated 13 = some { parcel 13 (.read 8 16 2) (.virt 0x20010) 0 0 0x40100 with dmgen := 0 } ∧ isAccess { parcel 13 (.read 8 16 2) (.virt 0x20010) 0 0 0x40100 with dmgen := 0 } = true ∧ routedLoc outdated 0 0x20010 = some (.cell 0x20010)) := by
  and_intros
  all_goals decide +kernel

/-- A queue that moves in at core 9, whose buffer holds 16 others; a query of a page at its swap engine. -/
def crowded : State :=
  setCore (shifting 3 []) 9 { Core.zero with queues := (List.range 16).map fun i => ⟨0, 20 + i, [], 0⟩ }
def query : Cmd := { command (.swpq 0x20000) with res := some 2 }
def querying : State := { runningAt 1024 query with tenants := [(0, { tenantA with ptab := [(0, 0x17), (2, 0x2004F)] })] }

/-- A queue with no room at its core, a page query, and a page whose read fails. -/
theorem witness_queues_and_pages :
    ((readEntry crowded.memory 0x20020).state = 3 ∧ (readEntry crowded.memory 0x20020).owner.toNat = 9 ∧ residentQueue crowded 0 1 9 = none ∧ bufferRoom crowded 9 2 = false)
      ∧ Canonical crowded
      ∧ (runningCmd querying 1024 4 = some query ∧ mayWork querying 1024 query = true ∧ cmdFault querying 1024 query = none ∧ (tabFind 4 (getEngine querying 1024).jobs).isSome = true ∧ query.entry = 4)
      ∧ (walkTable (getTenant querying 0) 0x20000 = some (0, 0x2004F) ∧ query.op = .swpq 0x20000 ∧ query.res = some 2)
      ∧ (checkpointing still 0 = false ∧ still.switches = [])
      ∧ (match poolTake (runningAt 0 stream) 0 with
        | some (a, _) => !(addrHeld (runningAt 0 stream) 0 a)
        | none => false) = true := by
  and_intros
  all_goals decide +kernel

/-- The pool lines of a fill, a steal and a handler whose directories serve; a line routed under this DMGEN and one under an older. -/
theorem witness_lines_in_reach :
    (match fillChoice (noticePool everywhere 5) 5 with
        | .record r k => (match poolTake (setCore (noticePool everywhere 5) 5 k) r.tenant with
          | some (a, s1) => !(addrHeld s1 r.tenant a)
          | none => false)
        | _ => false) = true
      ∧ (match dequeSteal (fun r => poppable (refusedFrom everywhere) r && admits r 9) (getCore (refusedFrom everywhere) 5) with
        | some (r, k) => (match poolTake (setCore (refusedFrom everywhere) 5 k) r.tenant with
          | some (a, s1) => !(addrHeld s1 r.tenant a)
          | none => false)
        | none => false) = true
      ∧ (match poolTake everywhere 0 with
        | some (h, _) => !(addrHeld everywhere 0 h)
        | none => false) = true
      ∧ (dirHeld everywhere lineFlight = false ∧ lineFlight.route = everywhere.dmgen ∧ lineFlight.route ≠ ({ everywhere with dmgen := 1 }).dmgen) := by
  and_intros
  all_goals decide +kernel

/-- Checkpoints of a tenant that end at once, and one under way. -/
def saving : State := { quiet with tape := [0] }
def restoring : State := { restorable with tape := [0] }
def savingHost : State := { idle with host := { idle.host with waiting := [.checkpointTenantSave 0 3] } }

/-- A message during a checkpoint of its tenant; a save that ends and one that waits; a restore. -/
theorem witness_checkpoints_under_way :
    (duringCkpt savingHost (.push 0 1 2 3) = true ∧ savingHost.host.bound ≠ none ∧ duringCkpt idle (.push 0 1 2 3) = false)
      ∧ ((choose saving 2).1 = 0 ∧ (choose quiet 2).1 ≠ 0 ∧ (getTenant saving 0).live = true ∧ tenantSaved saving 0 = true ∧ (getTenant saving 0).moves = [] ∧ saving.host.waiting = [])
      ∧ ((choose restoring 2).1 = 0 ∧ (restoreTenant (choose restoring 2).2 tenantImage).isSome = true ∧ placesFree restoring tenantImage = true ∧ tenantFresh restoring 0 = true ∧ restoring.tenantCkpts = [tenantImage] ∧ restoring.host.waiting = [])
      ∧ (∀ e ∈ quiet.tenants, ∀ p ∈ e.2.ptab, leafRc p.2 = 0)
      ∧ (∀ i, i < 2 → addrHeld idle 0 (0x40000 + 128 * i) = false)
      ∧ (List.range 8).any (fun v => decide ((getDie idle v).state < 2)) = true
      ∧ (match sealPages 0 1 0 idle with
        | .ok s1 => !(addrHeld s1 0 0x40000) && (getDie s1 0).state == 0
        | _ => false) = true := by
  and_intros
  all_goals decide +kernel

/-- A module whose fused minimum version is 9. -/
def fused : HostPort := { State.reset.host with minVersion := 9 }

/-- An image that fails at each step, and its choices. -/
theorem witness_boot_checks :
    (({ (bootWith true []) with imageOk := false }).imageOk = false ∧ (bootWith true []).imageOk = true ∧ (bootWith true []).keyDigest = fused.vendorKey ∧ (bootWith false []).keyDigest ≠ fused.vendorKey)
      ∧ (({ (bootWith true []) with sigOk := false }).sigOk = false ∧ (bootWith true []).sigOk = true ∧ (bootWith true []).version.toNat < fused.minVersion.toNat ∧ State.reset.host.minVersion.toNat ≤ (bootWith true []).version.toNat)
      ∧ (({ (bootWith true []) with bodySum := 8 }).bodySum ≠ ({ (bootWith true []) with bodySum := 8 }).bodyDigest ∧ (bootWith true []).bodySum = (bootWith true []).bodyDigest)
      ∧ (bootFailure State.reset.host (bootWith true []) = none ∧ ((bootWith true []).cl2.map (·.1)).Nodup ∧ ((bootWith true []).helio.map (·.1)).Nodup ∧ ((bootWith true []).spill.map (·.1)).Nodup)
      ∧ (((bootWith true [(1, 2, 0), (2, 1, 0)]).dies.map (·.1)).Nodup ∧ bootChoicesOk (bootWith true [(1, 2, 0), (2, 1, 0)]) = true) := by
  and_intros
  all_goals decide +kernel

/-- A message for the host, and a remote write on a class of its own. -/
def telling : State := { ganged with host := { ganged.host with out := [.ack 7 0], sent := 0 } }

/-- A message for the host on a flow that is new; the job of a flow. -/
theorem witness_host_frames :
    (telling.host.out[telling.host.sent]? = some (.ack 7 0) ∧ findFlow telling (hostFlow (.ack 7 0)) = none)
      ∧ (flowJobs lapsed = [7] ∧ cutOpen ganged = false ∧ checkpointing ganged 0 = false) := by
  and_intros
  all_goals decide +kernel

/-- A word whose lowest pending register is its first source, and one that awaits nothing. -/
theorem witness_pending_words :
    ((1 : Reg) ∈ (usesOf (.and 0 3 1 2 0)).srcs ++ (usesOf (.and 0 3 1 2 0)).dsts ∧ isPending holding 1 = true ∧ guardTrue holding 0 = true ∧ wordLevel (.and 0 3 1 2 0) = 0)
      ∧ (∀ q ∈ (usesOf (.and 0 3 1 2 0)).srcs ++ (usesOf (.and 0 3 1 2 0)).dsts, q.toNat < (1 : Reg).toNat → isPending holding q = false)
      ∧ awaited picked (.nop 0) = none := by
  and_intros
  all_goals decide +kernel
end Sys2Proof.Tests

end
end

/-! # Every step keeps the memory canonical (O56)

`Canonical` speaks of two fields of the state, the memory and the memory of the module checkpoint.
Each function of the model that makes a state has one lemma here, `Canonical.f`: from a canonical
state, `f` makes a canonical one. A proof then follows the code: the term `h.setLeaf.modTenant.wakePage`
says that the body is `wakePage (modTenant (setLeaf s …) …) …`. Few functions touch the two fields at all
(`Canonical.write`, with the laws `memWf_…` of the memory's operations); the others are frames
(`Canonical.frame`), folds (`Canonical.foldl`) or calls of functions that come before them.

A function that answers more than a state is told about by `Keeps`: the state that the answer carries
is canonical. A function that takes a continuation takes that the continuation keeps. -/

namespace Sys2Proof.Machine

/-! ### The two fields -/

/-- What changes neither the memory nor the checkpoint keeps the form. -/
theorem Canonical.frame {s s' : State} (h : Canonical s) (hm : s'.memory = s.memory)
    (hc : s'.moduleCkpt = s.moduleCkpt) : Canonical s' := by
  unfold Canonical
  rw [hm, hc]
  exact h

/-- What changes the memory by an operation that keeps its form, and no checkpoint, keeps the form. -/
theorem Canonical.write {s s' : State} (h : Canonical s) (hm : memWf s.memory = true → memWf s'.memory = true)
    (hc : s'.moduleCkpt = s.moduleCkpt) : Canonical s' :=
  ⟨hm h.1, fun m e => h.2 m (hc.symm.trans e)⟩

theorem Canonical.foldl {α : Type} {f : State → α → State} {l : List α} {s : State} (h : Canonical s)
    (hf : ∀ s a, Canonical s → Canonical (f s a)) : Canonical (l.foldl f s) := by
  induction l generalizing s with
  | nil => exact h
  | cons a l ih => exact ih (hf s a h)

protected theorem Canonical.getD {o : Option State} {s : State} (h : Canonical s)
    (ho : ∀ s', o = some s' → Canonical s') : Canonical (o.getD s) := by
  cases o with
  | none => exact h
  | some s' => exact ho s' rfl

/-- A fold whose accumulator pairs the state with something collected on the way. -/
theorem foldl_canonical_fst {α β : Type} {f : State × β → α → State × β} {l : List α} {r : State × β}
    (h : Canonical r.1) (hf : ∀ r a, Canonical r.1 → Canonical (f r a).1) : Canonical (l.foldl f r).1 := by
  induction l generalizing r with
  | nil => exact h
  | cons a l ih => exact ih (hf r a h)

/-- The same with the state in the second place. -/
theorem foldl_canonical_snd {α β : Type} {f : β × State → α → β × State} {l : List α} {r : β × State}
    (h : Canonical r.2) (hf : ∀ r a, Canonical r.2 → Canonical (f r a).2) : Canonical (l.foldl f r).2 := by
  induction l generalizing r with
  | nil => exact h
  | cons a l ih => exact ih (hf r a h)

theorem memWf_foldl {α : Type} {f : Memory → α → Memory} {l : List α} {m : Memory} (hm : memWf m = true)
    (hf : ∀ m a, memWf m = true → memWf (f m a) = true) : memWf (l.foldl f m) = true := by
  induction l generalizing m with
  | nil => exact hm
  | cons a l ih => exact ih (hf m a hm)

/-! ### Answers that carry a state -/

/-- The next state of an outcome is canonical. -/
def Keeps : Host.Outcome State Fault Refusal → Prop
  | .next s => Canonical s
  | _ => True

/-- The state that a word's body hands back is canonical, whatever becomes of the word. -/
def Res.Keeps : Res → Prop
  | .ok s _ | .jump s _ _ | .trapIn s _ | .wait s _ | .drain s _ | .retry s _ _ | .bounce s | .leave s => Canonical s
  | .trap _ => True

/-- The same for the start of a core's cycle. -/
def Begun.Keeps : Begun → Prop
  | .quiet s | .issue _ s => Canonical s

/-- The same for one element of a block instruction. -/
def Elem.Keeps : Elem → Prop
  | .moved s _ => Canonical s
  | _ => True

/-- The same for an expectation given to a mailbox counter. -/
def Expect.Keeps : Expect → Prop
  | .applied s | .rejected s => Canonical s
  | .dropped => True

/-- The same for an element pushed to a queue. -/
def Push.Keeps : Push → Prop
  | .done s | .held s => Canonical s
  | _ => True

/-- The same for a service of the module. -/
def Served.Keeps : Served → Prop
  | .done s _ | .notYet s => Canonical s

/-- The same for a message of the host. -/
def HostRes.Keeps : HostRes → Prop
  | .done s | .wait s => Canonical s

/-- The same for the sealing of a supervisor's pages. -/
def Sealed.Keeps : Sealed → Prop
  | .ok s | .failed s => Canonical s
  | .wait => True

/-- The same for the start of a gang switch or resumption. -/
def Start.Keeps : Start → Prop
  | .started s => Canonical s
  | _ => True

/-- The same for a module's checkpoint, taken or not yet possible. -/
def SaveKeeps : Except State State → Prop
  | .ok s | .error s => Canonical s

/-! ### Parts of the module -/

protected theorem Canonical.setCore {s c v} (h : Canonical s) : Canonical (setCore s c v) := h.frame rfl rfl

protected theorem Canonical.setCluster {s k v} (h : Canonical s) : Canonical (setCluster s k v) := h.frame rfl rfl

protected theorem Canonical.setSlice {s n v} (h : Canonical s) : Canonical (setSlice s n v) := h.frame rfl rfl

protected theorem Canonical.setDie {s v d} (h : Canonical s) : Canonical (setDie s v d) := h.frame rfl rfl

protected theorem Canonical.setTenant {s t v} (h : Canonical s) : Canonical (setTenant s t v) := h.frame rfl rfl

protected theorem Canonical.modTenant {s t f} (h : Canonical s) : Canonical (modTenant s t f) := h.setTenant

protected theorem Canonical.setCounter {s c i v} (h : Canonical s) : Canonical (setCounter s c i v) := h.setCore

protected theorem Canonical.setTdt {s cl i e} (h : Canonical s) : Canonical (setTdt s cl i e) := h.setCluster

protected theorem Canonical.setGuard {s cl i v} (h : Canonical s) : Canonical (setGuard s cl i v) := h.setCluster

protected theorem Canonical.setChan {s cl i v} (h : Canonical s) : Canonical (setChan s cl i v) := h.setCluster

protected theorem Canonical.setEngine {s e v} (h : Canonical s) : Canonical (setEngine s e v) := by
  unfold setEngine
  split
  · exact h.setCluster
  · exact h.setDie

protected theorem Canonical.putLine {s x} (h : Canonical s) : Canonical (putLine s x) := by
  unfold putLine
  split <;> exact h.frame rfl rfl

protected theorem Canonical.dropLine {s t a} (h : Canonical s) : Canonical (dropLine s t a) := h.frame rfl rfl

protected theorem Canonical.mapLines {s p f} (h : Canonical s) : Canonical (mapLines s p f) := h.frame rfl rfl

protected theorem Canonical.freshId {s} (h : Canonical s) : Canonical (freshId s).2 := h.frame rfl rfl

protected theorem Canonical.choose {s n} (h : Canonical s) : Canonical (choose s n).2 := by
  unfold choose
  split <;> exact h.frame rfl rfl

protected theorem Canonical.freeValue {s} (h : Canonical s) : Canonical (freeValue s).2 := h.frame rfl rfl

protected theorem Canonical.toHost {s m} (h : Canonical s) : Canonical (toHost s m) := h.frame rfl rfl

/-! ### Storage, wakes and posts -/

protected theorem Canonical.sendPkt {s p} (h : Canonical s) : Canonical (sendPkt s p) := h.frame rfl rfl

protected theorem Canonical.sendBytes {s x bytes v p} (h : Canonical s) :
    Canonical (sendBytes s x bytes v p) := h.foldl fun _ _ h => h.sendPkt

protected theorem Canonical.sendImage {s x l v p} (h : Canonical s) : Canonical (sendImage s x l v p) := h.sendBytes

protected theorem Canonical.intoImage {s s' x l} (h : Canonical s) (e : intoImage s x l = some s') :
    Canonical s' := by
  unfold intoImage at e
  split at e
  · obtain rfl := Option.some.inj e
    exact .putLine (h.write (memWf_memPut _ _ _) rfl)
  · obtain ⟨r, -, rfl⟩ := Option.map_eq_some_iff.mp e
    exact h.sendImage.putLine

protected theorem Canonical.sendWakes {s p} (h : Canonical s) : Canonical (sendWakes s p) := h.frame rfl rfl

protected theorem Canonical.enterReady {s x} (h : Canonical s) : Canonical (enterReady s x) := by
  unfold enterReady
  extract_lets
  split
  · exact h
  · exact h.setCluster

protected theorem Canonical.noteCorrupt {s k n} (h : Canonical s) :
    Canonical (noteCorrupt s k n) := h.foldl fun _ _ h => h.enterReady

protected theorem Canonical.wakeStored {s k} (h : Canonical s) :
    Canonical (wakeStored s k) := .foldl (h.frame rfl rfl) (fun _ _ h => h.sendPkt)

protected theorem Canonical.wakeFullEmpty {s k} (h : Canonical s) : Canonical (wakeFullEmpty s k) := h.sendWakes

protected theorem Canonical.wakeMailbox {s c off} (h : Canonical s) : Canonical (wakeMailbox s c off) := h.sendWakes

protected theorem Canonical.writeLoc {s l n v} (h : Canonical s) : Canonical (writeLoc s l n v) := by
  unfold writeLoc
  split
  · exact .noteCorrupt (.wakeStored (h.write (memWf_memWrite _ _ _ _) rfl))
  · extract_lets
    split
    · exact h.wakeMailbox.setCounter
    · exact h.wakeMailbox
  · exact h
  · exact h
  · exact h

protected theorem Canonical.wakeCounter {s name} (h : Canonical s) : Canonical (wakeCounter s name) := h.sendWakes

protected theorem Canonical.bounce {s t} (h : Canonical s) : Canonical (bounce s t) := h.modTenant

protected theorem Canonical.applyPost {s s' t name inc} (h : Canonical s) (e : applyPost s t name inc = some s') :
    Canonical s' := by
  unfold applyPost at e
  split at e
  · obtain rfl := Option.some.inj e
    exact h.setCounter.wakeCounter
  · cases e

protected theorem Canonical.postOrBounce {s t name inc} (h : Canonical s) :
    Canonical (postOrBounce s t name inc) := by
  unfold postOrBounce
  cases e : applyPost s t name inc with
  | none => exact h.bounce
  | some s' => exact h.applyPost e

protected theorem Canonical.setLeaf {s t level va w} (h : Canonical s) : Canonical (setLeaf s t level va w) :=
  h.modTenant

protected theorem Canonical.wakePage {s t level va} (h : Canonical s) : Canonical (wakePage s t level va) :=
  h.sendWakes

protected theorem Canonical.wakeJob {s eng entry} (h : Canonical s) : Canonical (wakeJob s eng entry) := h.sendWakes

protected theorem Canonical.finishJob {s eng entry f} (h : Canonical s) : Canonical (finishJob s eng entry f) := by
  unfold finishJob
  refine .wakeJob ?_
  split
  · exact h.setEngine
  · exact h

protected theorem Canonical.completionPost {s c} (h : Canonical s) : Canonical (completionPost s c) := by
  unfold completionPost
  split
  · exact h.postOrBounce
  · exact h

protected theorem Canonical.swapAbort {s t level va w m} (h : Canonical s) :
    Canonical (swapAbort s t level va w m) := by
  unfold swapAbort
  refine .wakePage ?_
  split
  · exact h.setLeaf.modTenant.setEngine.completionPost.finishJob
  · exact h.setLeaf.modTenant

protected theorem Canonical.swapInCore {s t va} (h : Canonical s) : Canonical (swapInCore s t va).1 := by
  unfold swapInCore
  split
  · split
    · split
      · split
        · exact h.swapAbort
        · exact h
      extract_lets
      split <;> exact h.setTenant
    · exact h
  · exact h

protected theorem Canonical.recordWrite {s t key r} (h : Canonical s) : Canonical (recordWrite s t key r) := by
  unfold recordWrite
  extract_lets
  split
  · exact h.writeLoc.writeLoc.writeLoc.writeLoc.modTenant.postOrBounce
  · exact h.writeLoc.writeLoc.writeLoc.writeLoc.modTenant.toHost

protected theorem Canonical.holdRecord {s t r} (h : Canonical s) : Canonical (holdRecord s t r) := by
  unfold holdRecord
  split <;> exact h.modTenant

protected theorem Canonical.swapInHeld {s t va} (h : Canonical s) : Canonical (swapInHeld s t va) := by
  unfold swapInHeld
  extract_lets
  split
  · exact h.swapInCore.holdRecord
  · exact h.swapInCore

protected theorem Canonical.flushHeld {s t n} (h : Canonical s) : Canonical (flushHeld s t n) := by
  induction n generalizing s with
  | zero => exact h
  | succ n ih =>
    unfold flushHeld
    split
    · exact h
    · extract_lets
      split
      · exact ih h.modTenant.recordWrite.modTenant
      · exact ih h.swapInHeld
      · exact ih h.modTenant

protected theorem Canonical.putRoot {s t r} (h : Canonical s) : Canonical (putRoot s t r) := by
  unfold putRoot
  split
  · exact h.write (memWf_memPut _ _ _) rfl
  · exact h.modTenant

protected theorem Canonical.flushAll {s t} (h : Canonical s) :
    Canonical (flushAll s t) := (h.modTenant.foldl fun _ _ h => h.putRoot).flushHeld

protected theorem Canonical.writeRecord {s t r} (h : Canonical s) : Canonical (writeRecord s t r).1 := by
  unfold writeRecord
  split
  · exact h.recordWrite
  · exact h.modTenant.swapInHeld.flushAll
  · exact h.modTenant

protected theorem Canonical.report {s t r} (h : Canonical s) : Canonical (report s t r) := h.writeRecord

protected theorem Canonical.startSwapIn {s t va} (h : Canonical s) : Canonical (startSwapIn s t va) := by
  unfold startSwapIn
  refine .flushAll ?_
  split
  · exact h.swapInCore.report
  · exact h.swapInCore

protected theorem Canonical.dispatchTrap {s x t core} (h : Canonical s) : Canonical (dispatchTrap s x t core) := by
  unfold dispatchTrap
  split
  · exact h.report
  · exact h.writeRecord.frame rfl rfl
  · exact h.startSwapIn.frame rfl rfl

protected theorem Canonical.releaseLine {s y w} (h : Canonical s) : Canonical (releaseLine s y w) := by
  unfold releaseLine
  split
  · extract_lets
    split
    · exact .setCluster (.putLine (h.write (memWf_memWrite _ _ _ _) rfl))
    · exact .putLine (h.write (memWf_memWrite _ _ _ _) rfl)
  split
  · extract_lets
    split
    · exact h.sendImage.putLine.setCluster
    · exact h.sendImage.putLine
  extract_lets
  split
  · exact h.putLine.setCluster
  · exact h.putLine

protected theorem Canonical.endClaim {s y keepParked} (h : Canonical s) :
    Canonical (endClaim s y keepParked) := h.releaseLine

protected theorem Canonical.releaseHeld {s t holder keepParked} (h : Canonical s) :
    Canonical (releaseHeld s t holder keepParked) := by
  unfold releaseHeld
  refine h.foldl fun s a h => ?_
  split
  · exact h.frame rfl rfl
  · exact h.endClaim

protected theorem Canonical.takeTrap {s x t core} (h : Canonical s) : Canonical (takeTrap s x t core).1 := by
  unfold takeTrap
  split
  · exact h.dispatchTrap
  refine .toHost (.report ?_)
  split
  · exact h.releaseHeld
  · exact h

/-! ### The issue of a word -/

protected theorem Canonical.countIssue {s p} (h : Canonical s) : Canonical (countIssue s p) := by
  unfold countIssue
  split
  · exact h.setCore
  · exact h

protected theorem Canonical.afterIssue {s t pc} (h : Canonical s) :
    Canonical (afterIssue s t pc) := h.countIssue.frame rfl rfl

protected theorem Canonical.stopRes {s c x} (h : Canonical s) : (stopRes s c x).Keeps := by
  unfold stopRes
  split
  · trivial
  · extract_lets
    split
    · split <;> exact h.startSwapIn
    · exact h.startSwapIn
  · exact h

protected theorem Canonical.lineBody {f c s} (h : Canonical s) : (lineBody f c s).Keeps := by
  unfold lineBody
  split
  · exact h
  · trivial

protected theorem Canonical.finishIssue {s t core r} (hs : Canonical s) (h : r.Keeps) :
    Keeps (finishIssue s t core r) := by
  cases r with
  | ok s' t' => exact h.afterIssue
  | jump s' t' pc => exact h.afterIssue
  | trap e => exact hs.takeTrap.frame rfl rfl
  | trapIn s' e => exact h.takeTrap.frame rfl rfl
  | wait s' tag => exact h.frame rfl rfl
  | drain s' d => exact h.frame rfl rfl
  | retry s' req rs => exact h.frame rfl rfl
  | bounce s' => exact h.frame rfl rfl
  | leave s' => exact h.countIssue.frame rfl rfl

protected theorem Canonical.issueWord {s hd body} (h : Canonical s) (hb : ∀ c, (body c s).Keeps) :
    Keeps (issueWord hd body s) := by
  unfold issueWord
  split
  · trivial
  extract_lets
  split
  · exact h.finishIssue trivial
  split
  · exact h.afterIssue
  split
  · exact h.frame rfl rfl
  split
  · exact h.frame rfl rfl
  · exact h.finishIssue (hb _)

protected theorem Canonical.scan {s c l} (h : Canonical s) : Canonical (scan c l s).1 := by
  induction l generalizing s with
  | nil => exact h
  | cons k ks ih =>
    unfold scan
    split
    · exact ih h
    · split
      · split
        · exact h
        · exact ih h.putLine
      · exact ih h

protected theorem Canonical.passCycle {s c} (h : Canonical s) : Canonical (passCycle s c) := h.mapLines

protected theorem Canonical.settle {s} (h : Canonical s) : Canonical (settle s) := by
  unfold settle
  split
  · exact h
  · exact h.putLine.frame rfl rfl

protected theorem Canonical.fetchStop {s t core x} (h : Canonical s) : Canonical (fetchStop s t core x) := by
  unfold fetchStop
  split
  · exact h.takeTrap.frame rfl rfl
  · exact h.startSwapIn.frame rfl rfl
  · exact h.frame rfl rfl

protected theorem Canonical.nextTurn {s} (h : Canonical s) : Canonical (nextTurn s).2 := by
  unfold nextTurn
  split <;> exact h.frame rfl rfl

protected theorem Canonical.beginCycle {s c} (h : Canonical s) : (beginCycle s c).Keeps := by
  unfold beginCycle
  split
  rename_i s1 pick e
  have h1 : Canonical s1 := (e ▸ h.scan : Canonical (s1, pick).1)
  extract_lets s2
  split
  · exact h1.passCycle
  rename_i t
  extract_lets s3 s4
  have h3 : Canonical s3 := h1.passCycle.dropLine
  have h4 : Canonical s4 := h3.frame rfl rfl
  split
  · exact h4
  · exact h4.fetchStop.settle
  · split
    · split
      · exact .settle (h4.frame rfl rfl)
      · exact h4.frame rfl rfl
    · exact h4.fetchStop.settle

/-! ### Delivery -/

protected theorem Canonical.leaveReady {s t a} (h : Canonical s) : Canonical (leaveReady s t a) := h.frame rfl rfl

protected theorem Canonical.editLine {s x f} (h : Canonical s) : Canonical (editLine s x f) := by
  unfold editLine
  split
  · split
    · extract_lets
      split
      · exact .enterReady (.putLine (h.write (memWf_writeImage _ _ _ _) rfl))
      · exact .putLine (h.write (memWf_writeImage _ _ _ _) rfl)
    split
    · exact h.putLine
    extract_lets
    split
    · refine .enterReady (.putLine ?_)
      split
      · exact h
      · exact h.sendImage
    refine .putLine ?_
    split
    · exact h
    · exact h.sendImage
  · exact h.putLine

protected theorem Canonical.wakeDrained {s t a} (h : Canonical s) : Canonical (wakeDrained s t a) := by
  unfold wakeDrained
  split
  · exact h
  split
  · exact h.editLine
  · exact h.frame rfl rfl

protected theorem Canonical.sendMsg {s t a b} (h : Canonical s) : Canonical (sendMsg s t a b) := h.frame rfl rfl

protected theorem Canonical.deliverResult {s t a r v e} (h : Canonical s) :
    Canonical (deliverResult s t a r v e) := by
  unfold deliverResult
  split
  · exact h
  split
  · exact h.editLine.wakeDrained
  · exact h.sendMsg

protected theorem Canonical.copyAcked {s mark} (h : Canonical s) : Canonical (copyAcked s mark) := by
  unfold copyAcked
  split
  · exact h.frame rfl rfl
  · exact h

protected theorem Canonical.storeDone {s t a} (h : Canonical s) : Canonical (storeDone s t a) := by
  unfold storeDone
  split
  · exact h.copyAcked
  extract_lets
  split
  · exact h.putLine.wakeDrained
  · exact h.putLine

protected theorem Canonical.deliverAnswer {s t a id v} (h : Canonical s) : Canonical (deliverAnswer s t a id v) := by
  unfold deliverAnswer
  split
  · exact h
  split
  · exact h.putLine
  · exact h

protected theorem Canonical.lateError {s t a level job e} (h : Canonical s) :
    Canonical (lateError s t a level job e) := h.freeValue.report

protected theorem Canonical.deferError {s t a job e} (h : Canonical s) : Canonical (deferError s t a job e) := by
  unfold deferError
  split
  · exact h.putLine
  split
  · exact h
  split
  · exact h
  · exact h.lateError

protected theorem Canonical.applyWake {s x tag} (h : Canonical s) : Canonical (applyWake s x tag) := h.editLine

protected theorem Canonical.dropPkt {s id} (h : Canonical s) : Canonical (dropPkt s id) := h.frame rfl rfl

protected theorem Canonical.sendAnswer {s p body} (h : Canonical s) : Canonical (sendAnswer s p body) :=
  h.frame rfl rfl

protected theorem Canonical.performRmw {s t l fn size y c} (h : Canonical s) :
    Canonical (performRmw s t l fn size y c).1 := by
  unfold performRmw
  extract_lets
  split
  · exact h
  · exact h.writeLoc

protected theorem Canonical.performWrite {s l size v fe} (h : Canonical s) :
    Canonical (performWrite s l size v fe) := by
  unfold performWrite
  extract_lets
  split
  · split
    · exact h.writeLoc
    · exact .wakeFullEmpty (h.writeLoc.write (memWf_fePut _ _ _) rfl)
  · exact h.writeLoc

protected theorem Canonical.remoteOp {s c i body va loc k} (h : Canonical s) (hk : ∀ v, (k v).Keeps) :
    (remoteOp s c i body va loc k).Keeps := by
  unfold remoteOp
  split
  · exact hk _
  split
  · exact h
  · exact h.sendPkt

protected theorem Canonical.syncRead {s c i size wait va loc k} (h : Canonical s) (hk : ∀ v bad, (k v bad).Keeps) :
    (syncRead s c i size wait va loc k).Keeps := by
  unfold syncRead
  split
  · exact h.remoteOp fun v => hk _ _
  split
  · exact h
  · split <;> exact hk _ _

protected theorem Canonical.syncWrite {s c i size v va loc k} (h : Canonical s) (hk :
    ∀ s', Canonical s' → (k s').Keeps) :
    (syncWrite s c i size v va loc k).Keeps := by
  unfold syncWrite
  split
  · exact h.remoteOp fun _ => hk s h
  split
  · exact h
  · exact hk _ h.writeLoc

protected theorem Canonical.syncAdd {s c inc va loc k} (h : Canonical s) (hk :
    ∀ s' bad, Canonical s' → (k s' bad).Keeps) :
    (syncAdd s c inc va loc k).Keeps := by
  unfold syncAdd
  split
  · exact h.remoteOp fun _ => hk s _ h
  split
  · exact h
  split
  · exact hk s _ h
  · exact hk _ _ h.performRmw

protected theorem Canonical.remoteOnce {s c done start} (h : Canonical s) (hd : done.Keeps) (hs : start.Keeps) :
    (remoteOnce s c done start).Keeps := by
  unfold remoteOnce
  split
  · exact hd
  split
  · exact h
  · exact hs

/-! ### Lines -/

protected theorem Canonical.clearWords {s cl e n o} (h : Canonical s) : Canonical (clearWords cl e n o s) := by
  induction n generalizing s o with
  | zero => exact h
  | succ n ih =>
    unfold clearWords
    refine ih ?_
    split
    · exact .wakeFullEmpty (h.writeLoc.write (memWf_fePut _ _ _) rfl)
    · exact h.writeLoc

protected theorem Canonical.clearTile {s cl e} (h : Canonical s) :
    Canonical (clearTile s cl e) := h.foldl fun _ _ h => h.clearWords

protected theorem Canonical.scrubbedTile {s cl i} (h : Canonical s) : Canonical (scrubbedTile s cl i) := h.setTdt

protected theorem Canonical.poolTake {s s' t a} (h : Canonical s) (e : poolTake s t = some (a, s')) :
    Canonical s' := by
  unfold poolTake at e
  extract_lets at e
  split at e
  · cases e
  · obtain ⟨i, -, hi⟩ := Option.map_eq_some_iff.mp e
    obtain ⟨-, rfl⟩ := Prod.mk.inj hi
    exact h.choose.modTenant

protected theorem Canonical.poolGive {s x} (h : Canonical s) : Canonical (poolGive s x) := by
  unfold poolGive
  split
  · exact h.modTenant
  · exact h

protected theorem Canonical.poolRefused {s t} (h : Canonical s) : Canonical (poolRefused s t) := by
  unfold poolRefused
  split
  · exact h
  · exact h.modTenant.report

protected theorem Canonical.startRecord {s s' r c k} (h : Canonical s) (e : startRecord s r c k = some s') :
    Canonical s' := by
  unfold startRecord at e
  split at e
  · cases e
  rename_i a s1 e1
  split at e
  · cases e
  · obtain rfl := Option.some.inj e
    exact (h.poolTake e1).putLine

protected theorem Canonical.dropStaging {s x} (h : Canonical s) : Canonical (dropStaging s x) := by
  unfold dropStaging
  split
  · exact h
  extract_lets
  split
  · exact h
  · exact h.setEngine.frame rfl rfl

protected theorem Canonical.mapCmds {f s} (h : Canonical s) : Canonical (mapCmds f s) := h.frame rfl rfl

protected theorem Canonical.orphanAll {s t a level} (h : Canonical s) :
    Canonical (orphanAll s t a level) := .mapCmds (h.frame rfl rfl)

protected theorem Canonical.endScrub {s x} (h : Canonical s) : Canonical (endScrub s x) := by
  unfold endScrub
  split
  · split
    · exact h.clearTile.scrubbedTile
    · exact h
  · exact h

protected theorem Canonical.tellHome {s x} (h : Canonical s) : Canonical (tellHome s x) := by
  unfold tellHome
  split
  · exact h
  · exact h.sendPkt

protected theorem Canonical.endLine {s x} (h : Canonical s) :
    Canonical (endLine s x) := h.dropStaging.endScrub.orphanAll.tellHome.releaseHeld.poolGive.frame rfl rfl

protected theorem Canonical.rootImage {s x} (h : Canonical s) : Canonical (rootImage s x) := by
  unfold rootImage
  extract_lets
  split
  · exact h.choose.sendBytes
  · exact h.choose.putRoot

protected theorem Canonical.leaveErrors {s x} (h : Canonical s) :
    Canonical (leaveErrors s x) := h.foldl fun _ _ h => h.report

protected theorem Canonical.retireLine {s x} (h : Canonical s) : Canonical (retireLine s x) := by
  unfold retireLine
  extract_lets
  split
  · exact h.endLine.leaveErrors.rootImage
  · exact h.endLine.leaveErrors

protected theorem Canonical.killLine {s x} (h : Canonical s) : Canonical (killLine s x) := h.endLine.leaveErrors

/-! ### Loads and stores -/

protected theorem Canonical.withLoc {s c size ea write find k} (h : Canonical s) (hk : ∀ loc, (k loc).Keeps) :
    (withLoc s c size ea write find k).Keeps := by
  unfold withLoc
  split
  · trivial
  split
  · exact h.stopRes
  · exact hk _

protected theorem Canonical.withWord {s c regs ea write z k} (h : Canonical s) (hk : ∀ key, (k key).Keeps) :
    (withWord s c regs ea write z k).Keeps := by
  unfold withWord
  split
  · trivial
  refine h.withLoc fun loc => ?_
  split
  · split
    · trivial
    split
    · exact h
    · exact hk _
  · trivial

protected theorem Canonical.issueLoad {ty tag d a ea z c s} (h : Canonical s) :
    (issueLoad ty tag d a ea z c s).Keeps := by
  unfold issueLoad
  split
  · trivial
  · exact h.withLoc fun _ => h.sendPkt

protected theorem Canonical.issueStore {size d a ea z c s} (h : Canonical s) :
    (issueStore size d a ea z c s).Keeps := by
  unfold issueStore
  split
  · trivial
  · exact h.withLoc fun _ => h.sendPkt

protected theorem Canonical.setFull {s k b} (h : Canonical s) : Canonical (setFull s k b) := by
  unfold setFull
  split
  · exact h
  · exact .wakeFullEmpty (h.write (memWf_fePut _ _ _) rfl)

protected theorem Canonical.readFull {take d a ea z c s} (h : Canonical s) : (readFull take d a ea z c s).Keeps := by
  unfold readFull
  refine h.withWord fun k => ?_
  split
  · extract_lets
    split
    · exact h.setFull
    · exact h
  · exact h

protected theorem Canonical.execStf {g d a z c o s} (h : Canonical s) : Keeps (execStf g d a z c o s) := by
  unfold execStf
  refine h.issueWord fun c => h.withWord fun k => ?_
  split
  · exact h
  · exact h.writeLoc.setFull

protected theorem Canonical.execSte {g d a z c l o s} (h : Canonical s) : Keeps (execSte g d a z c l o s) :=
  h.issueWord fun _ => h.withWord fun _ => h.sendPkt

/-! ### Block instructions -/

protected theorem Canonical.blockElem {op s c e p q v} (h : Canonical s) : (blockElem op s c e p q v).Keeps := by
  unfold blockElem
  split
  · split
    · trivial
    split
    · trivial
    · exact h.writeLoc
  · split
    · trivial
    split
    · trivial
    split
    · trivial
    · exact h.writeLoc
  · split
    · trivial
    split
    · trivial
    split
    · trivial
    extract_lets
    split
    · exact h
    · trivial

protected theorem Canonical.blockRun {op c d a b e n r} (h : Canonical r.s) :
    Canonical (blockRun op c d a b e n r).s := by
  induction n generalizing r with
  | zero => exact h
  | succ n ih =>
    unfold blockRun
    extract_lets
    split
    · rename_i e
      exact ih (e.subst h.blockElem)
    · exact h
    · exact h

protected theorem Canonical.blockEnd {c s t b diff} (h : Canonical s) : (blockEnd c s t b diff).Keeps := by
  unfold blockEnd
  split <;> exact h

protected theorem Canonical.elemOp {s c i start k} (h : Canonical s) (hs : start.Keeps) (hk : ∀ v, (k v).Keeps) :
    (elemOp s c i start k).Keeps := by
  unfold elemOp
  split
  · exact hk _
  split
  · exact h
  · exact hs

protected theorem Canonical.elemRead {s c i e va k} (h : Canonical s) (hk : ∀ v, (k v).Keeps) :
    (elemRead s c i e va k).Keeps := by
  unfold elemRead
  refine h.elemOp ?_ hk
  split
  · exact h.stopRes
  split
  · exact h.sendPkt
  split
  · trivial
  · exact h

protected theorem Canonical.elemWrite {s c i e va v k} (h : Canonical s) (hk : ∀ s', Canonical s' → (k s').Keeps) :
    (elemWrite s c i e va v k).Keeps := by
  unfold elemWrite
  refine h.elemOp ?_ fun _ => hk s h
  split
  · exact h.stopRes
  split
  · exact h.sendPkt
  · exact hk _ h.writeLoc

protected theorem Canonical.blockRemote {op c s d a b e} (h : Canonical s) : (blockRemote op c s d a b e).Keeps := by
  unfold blockRemote
  split
  · exact h.elemWrite fun _ h => h.blockEnd
  · exact h.elemRead fun _ => h.elemWrite fun _ h => h.blockEnd
  · refine h.elemRead fun v => h.elemRead fun v => ?_
    split <;> exact h.blockEnd

protected theorem Canonical.blockStep {op d a b w c s} (h : Canonical s) : (blockStep op d a b w c s).Keeps := by
  unfold blockStep
  extract_lets l e
  generalize checkTags l ((d, [0]) :: (if op = .rfill then [] else [(a, [0])]) ++ [(b, [0])]) = tags
  split
  · trivial
  split
  · exact h
  split
  · trivial
  split
  · trivial
  split
  · exact h.blockRemote
  split
  · exact h.stopRes
  · exact h.blockRemote
  · exact h
  · exact Canonical.blockEnd (.blockRun h.choose)

/-! ### Mailbox counters -/

protected theorem Canonical.applyExpect {s t name inc} (h : Canonical s) : (applyExpect s t name inc).Keeps := by
  unfold applyExpect
  split
  · extract_lets
    split <;> exact h.setCounter
  · trivial

protected theorem Canonical.execMpost {g a b c s} (h : Canonical s) : Keeps (execMpost g a b c s) := by
  unfold execMpost
  refine h.issueWord fun c => ?_
  split
  · trivial
  extract_lets
  split
  · split
    · exact h
    split
    · rename_i e
      exact h.applyPost e
    · exact h.bounce
  · exact h.sendPkt

protected theorem Canonical.execMexp {g a b s} (h : Canonical s) : Keeps (execMexp g a b s) := by
  unfold execMexp
  refine h.issueWord fun c => ?_
  split
  · trivial
  extract_lets
  split
  · exact h
  split
  · rename_i e
    exact e.subst h.applyExpect
  · rename_i e
    exact e.subst h.applyExpect
  · split <;> exact h.bounce

protected theorem Canonical.execMwait {g a b _c s} (h : Canonical s) : Keeps (execMwait g a b _c s) := by
  unfold execMwait
  refine h.issueWord fun c => ?_
  split
  · trivial
  extract_lets
  split
  · trivial
  split
  · exact h
  split
  · trivial
  · split <;> exact h

protected theorem Canonical.execMread {g d a _c s} (h : Canonical s) : Keeps (execMread g d a _c s) := by
  unfold execMread
  refine h.issueWord fun c => ?_
  split
  · trivial
  extract_lets
  split
  · trivial
  · split <;> exact h

protected theorem Canonical.acknowledge {s p} (h : Canonical s) : Canonical (acknowledge s p) := by
  unfold acknowledge
  split
  · split
    · exact h.deliverAnswer
    · exact h.sendAnswer
  split
  · exact h.storeDone
  · exact h.sendAnswer

protected theorem Canonical.execMailboxPost {id s} (h : Canonical s) : Keeps (execMailboxPost id s) := by
  unfold execMailboxPost
  split
  · exact h
  split
  · split
    · exact h.dropPkt.postOrBounce.acknowledge
    · exact h
  · exact h

protected theorem Canonical.execMailboxExpectation {tn name inc s} (h : Canonical s) :
    Keeps (execMailboxExpectation tn name inc s) := by
  unfold execMailboxExpectation
  split
  · exact h
  split
  · rename_i e
    exact e.subst h.applyExpect
  · rename_i e
    exact (e.subst h.applyExpect).report
  · exact h.bounce

/-! ### Tickets -/

protected theorem Canonical.setTicket {s v i e} (h : Canonical s) : Canonical (setTicket s v i e) := h.setSlice

protected theorem Canonical.ensureWindow {s s' v tenant job w} (h : Canonical s)
    (e : ensureWindow s v tenant job = some (w, s')) : Canonical s' := by
  unfold ensureWindow at e
  split at e
  · obtain ⟨-, rfl⟩ := Prod.mk.inj (Option.some.inj e)
    exact h
  · obtain ⟨b, -, hb⟩ := Option.map_eq_some_iff.mp e
    obtain ⟨-, rfl⟩ := Prod.mk.inj hb
    exact h.setSlice

protected theorem Canonical.reclaimPass {s v w} (h : Canonical s) :
    Canonical (reclaimPass s v w) := h.foldl fun _ _ h => h.setTicket

protected theorem Canonical.allocEntry {s v tenant job} (h : Canonical s) : Canonical (allocEntry s v tenant job).2 ∧
    ∀ w i s', (allocEntry s v tenant job).1 = some (w, i, s') → Canonical s' := by
  unfold allocEntry
  split
  · exact ⟨h, fun _ _ _ e => by cases e⟩
  rename_i w s1 e1
  have h1 := h.ensureWindow e1
  split
  · refine ⟨h1, fun _ _ _ e => ?_⟩
    cases e
    exact h1
  · refine ⟨h1.reclaimPass, fun _ _ _ e => ?_⟩
    obtain ⟨i, -, hi⟩ := Option.map_eq_some_iff.mp e
    cases hi
    exact h1.reclaimPass

protected theorem Canonical.takeTicket {s tenant job line key size acqs} (h : Canonical s) :
    Canonical (takeTicket s tenant job line key size acqs).2 := by
  unfold takeTicket
  extract_lets v
  have ha := h.allocEntry (v := v) (tenant := tenant) (job := job)
  split
  · rename_i e
    rw [e] at ha
    exact (ha.2 _ _ _ rfl).setTicket
  · rename_i e
    rw [e] at ha
    exact ha.1.modTenant

protected theorem Canonical.execTkld {g d a w c s} (h : Canonical s) : Keeps (execTkld g d a w c s) := by
  unfold execTkld
  refine h.issueWord fun c => ?_
  split
  · trivial
  extract_lets
  split
  · trivial
  split
  · trivial
  split
  · exact h.stopRes
  split
  · trivial
  · exact h.sendPkt

protected theorem Canonical.readWords {s c first va loc n i l bad k} (h : Canonical s) (hk : ∀ ws b, (k ws b).Keeps) :
    (readWords s c first va loc n i l bad k).Keeps := by
  induction n generalizing i l bad with
  | zero => exact hk _ _
  | succ n ih => exact h.syncRead fun v b => ih

protected theorem Canonical.writeWords {s k l} (h : Canonical s) : Canonical (writeWords k l s) := by
  induction l generalizing s k with
  | nil => exact h
  | cons w l ih => exact ih h.writeLoc

protected theorem Canonical.redeemed {c d p dest ws fell bad va s} (h : Canonical s) :
    (redeemed c d p dest ws fell bad va s).Keeps := by
  cases dest with
  | none => exact h
  | some k => exact h.writeWords

protected theorem Canonical.execTkred {g d a b p s} (h : Canonical s) : Keeps (execTkred g d a b p s) := by
  unfold execTkred
  refine h.issueWord fun c => ?_
  split
  · trivial
  extract_lets k z
  split
  · trivial
  generalize redeemDest s c d z = dest
  split
  · exact h.stopRes
  split
  · exact h
  split
  · extract_lets
    split
    · exact h
    split
    · exact h.setTicket
    · exact h.setTicket.redeemed
  split
  · trivial
  split
  · trivial
  · exact h.withLoc fun _ => h.readWords fun _ _ => h.redeemed

protected theorem Canonical.withTicket {s a c k} (h : Canonical s) (hk : ∀ t i, (k t i).Keeps) :
    (withTicket a c s k).Keeps := by
  unfold withTicket
  split
  · trivial
  extract_lets
  split
  · trivial
  split
  · exact h
  · exact hk _ _

protected theorem Canonical.execTkdrop {g d a s} (h : Canonical s) : Keeps (execTkdrop g d a s) := by
  unfold execTkdrop
  refine h.issueWord fun c => h.withTicket fun k i => ?_
  split
  · exact h
  · exact h.setTicket

protected theorem Canonical.execTkstat {g d a s} (h : Canonical s) : Keeps (execTkstat g d a s) :=
  h.issueWord fun _ => h.withTicket fun _ _ => h

protected theorem Canonical.wakeTicket {s v i e} (h : Canonical s) : Canonical (wakeTicket s v i e) := h.sendWakes

protected theorem Canonical.endFetch {s v i e data failed} (h : Canonical s) :
    Canonical (endFetch s v i e data failed) := by
  unfold endFetch
  extract_lets s1
  have h1 : Canonical s1 := h.setTicket.wakeTicket
  split
  · exact h1.wakeDrained
  · exact h1

protected theorem Canonical.execTicketFetchReturn {slice idx s} (h : Canonical s) :
    Keeps (execTicketFetchReturn slice idx s) := by
  unfold execTicketFetchReturn
  extract_lets
  split
  · split
    · exact h.endFetch
    · exact h
  · exact h

protected theorem Canonical.execTicketFetchFailure {slice idx s} (h : Canonical s) :
    Keeps (execTicketFetchFailure slice idx s) := by
  unfold execTicketFetchFailure
  extract_lets
  split
  · exact h.endFetch
  · exact h

/-! ### Arrivals -/

protected theorem Canonical.sendResult {s p reg v e} (h : Canonical s) : Canonical (sendResult s p reg v e) := by
  unfold sendResult
  split
  · split
    · exact h.deliverAnswer
    · exact h.deliverResult
  · exact h.sendAnswer

protected theorem Canonical.sendFailed {s p reg lost} (h : Canonical s) : Canonical (sendFailed s p reg lost) := by
  unfold sendFailed
  split
  · refine .deferError ?_
    split
    · exact h.deliverAnswer
    · exact h.deliverResult
  · exact h.sendAnswer

protected theorem Canonical.registerWatch {s p ty} (h : Canonical s) : Canonical (registerWatch s p ty) := by
  unfold registerWatch
  split
  · exact h.frame rfl rfl
  · exact h

protected theorem Canonical.performAccess {s p} (h : Canonical s) : Canonical (performAccess s p) := by
  unfold performAccess
  split
  · split
    · exact h.sendFailed
    · exact h.registerWatch.sendResult
  · split
    · exact h.sendFailed
    · exact h.performRmw.sendResult
  · split
    · exact h.takeTicket.sendResult
    · exact h
  · exact h

protected theorem Canonical.lineNews {s p} (h : Canonical s) : Canonical (lineNews s p) := by
  unfold lineNews
  cases p.body with
  | wake tag => exact h.sendMsg
  | retired =>
    dsimp only
    split
    · split
      · exact h.endLine
      · exact h
    · exact h
  | _ => exact h

protected theorem Canonical.execResultArrival {s id} (h : Canonical s) : Keeps (execResultArrival id s) := by
  unfold execResultArrival
  split
  · exact h
  · rename_i p _
    cases p.body with
    | read | rmw | ticket =>
      dsimp only
      split
      · exact h.dropPkt.performAccess
      · exact h
    | result reg v e =>
      dsimp only
      split
      · split
        · exact h.dropPkt.deliverAnswer
        · exact h.dropPkt.deliverResult
      · exact h
    | failed reg lost =>
      cases reg with
      | none => exact h
      | some reg =>
        dsimp only
        split
        · refine Canonical.deferError ?_
          split
          · exact h.dropPkt.deliverAnswer
          · exact h.dropPkt.deliverResult
        · exact h
    | wake | retired =>
      dsimp only
      split
      · exact h.dropPkt.lineNews
      · exact h
    | _ => exact h

protected theorem Canonical.storeAnswered {s p} (h : Canonical s) : Canonical (storeAnswered s p) := by
  unfold storeAnswered
  split
  · split
    · exact h.dropPkt.performWrite.acknowledge
    · exact h
  · split
    · split
      · exact h.dropPkt.deliverAnswer
      · exact h.dropPkt.storeDone
    · exact h
  · split
    · exact h.dropPkt.storeDone.deferError
    · exact h
  · exact h

protected theorem Canonical.execStoreAcknowledgement {id s} (h : Canonical s) :
    Keeps (execStoreAcknowledgement id s) := by
  unfold execStoreAcknowledgement
  split
  · exact h
  split
  · exact h.storeAnswered
  · exact h

protected theorem Canonical.execSweptStoreAck {id s} (h : Canonical s) : Keeps (execSweptStoreAck id s) := by
  unfold execSweptStoreAck
  split
  · exact h
  split
  · exact h
  · exact h.storeAnswered

protected theorem Canonical.failAccess {s p} (h : Canonical s) : Canonical (failAccess s p) := by
  unfold failAccess
  extract_lets lost s1 s2
  split
  · exact h.sendFailed
  · exact h.sendFailed
  · exact h.sendFailed
  · have h1 : Canonical s1 := by
      unfold s1
      split
      · exact h.write (memWf_poisonAt _ _) rfl
      · exact h
    have h2 : Canonical s2 := by
      unfold s2
      split
      · exact h1.deliverAnswer
      · exact h1.storeDone
    split
    · exact h2.deferError
    · exact h1.sendAnswer
  · exact h

protected theorem Canonical.execDeferredMemoryError {id s} (h : Canonical s) :
    Keeps (execDeferredMemoryError id s) := by
  unfold execDeferredMemoryError
  split
  · exact h
  split
  · exact h.dropPkt.failAccess
  · exact h

protected theorem Canonical.dropMsg {s n} (h : Canonical s) : Canonical (dropMsg s n) := h.frame rfl rfl

protected theorem Canonical.applyMsg {s x b} (h : Canonical s) : Canonical (applyMsg s x b) := by
  unfold applyMsg
  split
  · exact h.applyWake
  · exact h.editLine.wakeDrained
  · split
    · exact h.endClaim
    · exact h

protected theorem Canonical.clusterMsg {s n m x} (h : Canonical s) : Canonical (clusterMsg s n m x) := by
  unfold clusterMsg
  split
  · exact h.dropMsg.applyMsg
  · exact h.frame rfl rfl

protected theorem Canonical.homeMsg {s n m x} (h : Canonical s) : Canonical (homeMsg s n m x) := by
  unfold homeMsg
  split
  · exact h.dropMsg.applyMsg
  · exact h.frame rfl rfl

protected theorem Canonical.routeMsg {s n m} (h : Canonical s) : Canonical (routeMsg s n m) := h.frame rfl rfl

protected theorem Canonical.holdMsgFor {s x} (h : Canonical s) : Canonical (holdMsgFor s x) := by
  unfold holdMsgFor
  split
  · exact h.startSwapIn
  · exact h

protected theorem Canonical.execWake {n s} (h : Canonical s) : Keeps (execWake n s) := by
  unfold execWake
  split
  · exact h
  split
  · split
    · exact h.routeMsg
    split
    · exact h
    · exact h.clusterMsg
  · exact h

protected theorem Canonical.execDirectoryMessage {n s} (h : Canonical s) : Keeps (execDirectoryMessage n s) := by
  unfold execDirectoryMessage
  split
  · exact h
  split
  · exact h.dropMsg
  split
  · exact h.routeMsg
  split
  · exact h.holdMsgFor
  split
  · exact h.homeMsg
  · exact h.clusterMsg

/-! ### Atomics -/

protected theorem Canonical.issueAmo {fn g d a b w o s} (h : Canonical s) : Keeps (issueAmo fn g d a b w o s) := by
  unfold issueAmo
  refine h.issueWord fun c => ?_
  split
  · trivial
  · exact h.withLoc fun _ => h.sendPkt

protected theorem Canonical.execFence {g k _c s} (h : Canonical s) : Keeps (execFence g k _c s) := by
  unfold execFence
  refine h.issueWord fun c => ?_
  split <;> exact h

/-! ### Tiles -/

protected theorem Canonical.withTemplate {s c r cl k} (h : Canonical s) (hk : ∀ e, (k e).Keeps) :
    (withTemplate s c r cl k).Keeps := by
  unfold withTemplate
  refine h.withLoc fun loc => h.readWords fun ws bad => ?_
  split
  · trivial
  split
  · trivial
  split
  · exact h
  extract_lets
  split
  · trivial
  split
  · trivial
  · exact hk _

protected theorem Canonical.withTile {s c a k} (h : Canonical s) (hk : ∀ t, (k t).Keeps) :
    (withTile s c a k).Keeps := by
  unfold withTile
  split
  · trivial
  split
  · exact h
  · exact hk _

protected theorem Canonical.syncWords {s c first va loc l i k} (h : Canonical s)
    (hk : ∀ s', Canonical s' → (k s').Keeps) : (syncWords s c first va loc l i k).Keeps := by
  induction l generalizing s i with
  | nil => exact hk s h
  | cons w l ih => exact h.syncWrite fun s hs => ih hs

protected theorem Canonical.allocTile {s t cl i e} (h : Canonical s) : Canonical (allocTile s t cl i e) := h.setTdt

protected theorem Canonical.tallocDone {c d cl i s} (h : Canonical s) : (tallocDone c d cl i s).Keeps :=
  h.scrubbedTile

protected theorem Canonical.tallocEntry {c d cl i e clr s} (h : Canonical s) :
    (tallocEntry c d cl i e clr s).Keeps := by
  unfold tallocEntry
  extract_lets
  split
  · exact h.allocTile
  · exact h.allocTile.tallocDone

protected theorem Canonical.execTalloc {g d a b s} (h : Canonical s) : Keeps (execTalloc g d a b s) := by
  unfold execTalloc
  refine h.issueWord fun c => ?_
  split
  · trivial
  extract_lets
  split
  · split
    · trivial
    split
    · exact h
    · exact h.clearTile.tallocDone
  split
  · trivial
  split
  · trivial
  refine h.withTemplate fun e => ?_
  split
  · split
    · exact h.tallocEntry
    · trivial
  split
  · exact h.tallocEntry
  · trivial

protected theorem Canonical.execTfree {g a s} (h : Canonical s) : Keeps (execTfree g a s) :=
  h.issueWord fun _ => h.withTile fun _ => h.setTdt

protected theorem Canonical.execTdesc {g d a b s} (h : Canonical s) : Keeps (execTdesc g d a b s) := by
  unfold execTdesc
  refine h.issueWord fun c => h.withTile fun t => ?_
  split
  · trivial
  · exact h.withTemplate fun _ => h.setTdt

protected theorem Canonical.tinfoWrite {s c d b r kept} (h : Canonical s) : (tinfoWrite s c d b r kept).Keeps := by
  unfold tinfoWrite
  refine h.withLoc fun loc => ?_
  split
  · exact h
  · exact h.syncWords fun _ h => h

protected theorem Canonical.execTinfo {g d a b m s} (h : Canonical s) : Keeps (execTinfo g d a b m s) := by
  unfold execTinfo
  refine h.issueWord fun c => ?_
  split
  · exact h.tinfoWrite
  refine h.withTile fun t => ?_
  split
  · exact h
  split
  · trivial
  · exact h.tinfoWrite

protected theorem Canonical.writeTileWords {t n o v s} (h : Canonical s) : Canonical (writeTileWords t n o v s) := by
  induction n generalizing s o v with
  | zero => exact h
  | succ n ih => exact ih h.writeLoc

protected theorem Canonical.writeRow {t i xs s} (h : Canonical s) : Canonical (writeRow t i xs s) := h.writeTileWords

protected theorem Canonical.writeExp {t n ex s} (h : Canonical s) : Canonical (writeExp t n ex s) := h.writeLoc

protected theorem Canonical.writeRows {t i l s} (h : Canonical s) : Canonical (writeRows t i l s) := by
  induction l generalizing s i with
  | nil => exact h
  | cons r l ih => exact ih h.writeRow

protected theorem Canonical.writeExps {t n l s} (h : Canonical s) : Canonical (writeExps t n l s) := by
  induction l generalizing s n with
  | nil => exact h
  | cons x l ih => exact ih h.writeExp

protected theorem Canonical.writeTile {s t rm quiet m} (h : Canonical s) :
    Canonical (writeTile s t rm quiet m).1 := h.writeRows.writeExps

/-! ### Engines -/

protected theorem Canonical.atDie {s c die k} (h : Canonical s) (hk : k.Keeps) : (atDie s c die k).Keeps := by
  unfold atDie
  split
  · trivial
  split
  · exact h
  · exact hk

protected theorem Canonical.withGuard {s c cl f k} (_h : Canonical s) (hk : k.Keeps) :
    (withGuard s c cl f k).Keeps := by
  unfold withGuard
  split
  · trivial
  · exact hk

protected theorem Canonical.capture {s c t q} (h : Canonical s) : (capture s c t q).Keeps := by
  unfold capture
  split
  · exact h
  extract_lets
  split <;> exact h.setEngine

protected theorem Canonical.withBlock {s c r k} (h : Canonical s) (hk : ∀ n, (k n).Keeps) :
    (withBlock s c r k).Keeps := by
  unfold withBlock
  refine h.withLoc fun loc => h.readWords fun ws bad => ?_
  split
  · trivial
  · exact hk _

protected theorem Canonical.modJob {s eng entry f} (h : Canonical s) : Canonical (modJob s eng entry f) := by
  unfold modJob
  extract_lets
  split
  · exact h.setEngine
  · exact h

protected theorem Canonical.sendValue {s cmd v} (h : Canonical s) : Canonical (sendValue s cmd v) := by
  unfold sendValue
  split
  · exact h
  · exact h.sendMsg

protected theorem Canonical.leaveEngine {s eng entry} (h : Canonical s) : Canonical (leaveEngine s eng entry) :=
  h.setEngine

protected theorem Canonical.endCmd {s eng cmd v f} (h : Canonical s) :
    Canonical (endCmd s eng cmd v f) := h.leaveEngine.sendValue.completionPost.finishJob

protected theorem Canonical.doneCmd {s eng cmd v exc} (h : Canonical s) : Canonical (doneCmd s eng cmd v exc) :=
  h.endCmd

protected theorem Canonical.discardCmd {s eng cmd} (h : Canonical s) : Canonical (discardCmd s eng cmd) := h.endCmd

protected theorem Canonical.failQuiet {s eng cmd code} (h : Canonical s) : Canonical (failQuiet s eng cmd code) :=
  h.endCmd

protected theorem Canonical.failCmd {s eng cmd t} (h : Canonical s) : Canonical (failCmd s eng cmd t) :=
  h.report.failQuiet

protected theorem Canonical.startRunning {s eng cmd} (h : Canonical s) :
    Canonical (startRunning s eng cmd) := h.setEngine.modJob

protected theorem Canonical.parkCmd {eng s cmd} (h : Canonical s) :
    Canonical (parkCmd eng s cmd) := h.setEngine.freeValue.modJob

protected theorem Canonical.unparkCmd {s eng cmd} (h : Canonical s) : Canonical (unparkCmd s eng cmd) :=
  h.setEngine.modJob

protected theorem Canonical.admitSwaps {eng n s} (h : Canonical s) : Canonical (admitSwaps eng n s) := by
  induction n generalizing s with
  | zero => exact h
  | succ n ih =>
    unfold admitSwaps
    extract_lets
    split
    · exact h
    · split
      · exact ih h.setEngine
      · exact h

protected theorem Canonical.passSwap {s eng cmd} (h : Canonical s) :
    Canonical (passSwap s eng cmd) := h.setEngine.modJob.admitSwaps

protected theorem Canonical.obeyGuard {s eng cmd run} (h : Canonical s) (hr :
    ∀ s', Canonical s' → Canonical (run s')) :
    Canonical (obeyGuard s eng cmd run) := by
  unfold obeyGuard
  split
  · exact hr s h
  · exact h.modJob
  · exact h.discardCmd

protected theorem Canonical.resolveHead {cl i s n} (h : Canonical s) : Canonical (resolveHead cl i s n) := by
  unfold resolveHead
  split
  · exact h
  split
  · exact h.discardCmd
  split
  · exact h.setEngine.modJob
  · exact h

protected theorem Canonical.resolveSwaps {cl i s v} (h : Canonical s) : Canonical (resolveSwaps cl i s v) :=
  h.foldl fun _ _ h => h.obeyGuard fun _ h => h.passSwap

protected theorem Canonical.resolveGuard {s cl i} (h : Canonical s) :
    Canonical (resolveGuard s cl i) := (h.foldl fun _ _ h => h.resolveHead).foldl fun _ _ h => h.resolveSwaps

protected theorem Canonical.freeGuard {s cl i} (h : Canonical s) : Canonical (freeGuard s cl i) :=
  h.setGuard.resolveGuard

protected theorem Canonical.settleSwap {s eng} (h : Canonical s) : Canonical (settleSwap s eng) := by
  unfold settleSwap
  split
  · split
    · exact h.obeyGuard fun _ h => h.passSwap
    · exact h
  · exact h

theorem Res.Keeps.thenState {r f} (h : r.Keeps) (hf : ∀ s, Canonical s → Canonical (f s)) : (thenState r f).Keeps := by
  cases r with
  | ok s t => exact hf s h
  | _ => exact h

/-! ### The issue of engine words -/

protected theorem Canonical.execLw {g d a x ss aq r c s} (h : Canonical s) : Keeps (execLw g d a x ss aq r c s) := by
  unfold execLw
  refine h.issueWord fun c => ?_
  extract_lets
  split
  · trivial
  refine h.atDie (h.withGuard ?_)
  split
  · trivial
  split
  · exact h.capture
  · trivial

protected theorem Canonical.plainLast {op d f c s} (h : Canonical s) : (plainLast op d f c s).Keeps := by
  unfold plainLast
  refine h.atDie (h.withGuard ?_)
  exact h.capture

protected theorem Canonical.execLstream {g d a x ss aq r c s} (h : Canonical s) :
    Keeps (execLstream g d a x ss aq r c s) := by
  unfold execLstream
  refine h.issueWord fun c => ?_
  extract_lets
  split
  · trivial
  refine h.atDie (h.withGuard ?_)
  refine h.withBlock fun n => ?_
  split
  · trivial
  · exact h.capture

protected theorem Canonical.execLcfg {g d a x ss aq r c s} (h : Canonical s) :
    Keeps (execLcfg g d a x ss aq r c s) := by
  unfold execLcfg
  refine h.issueWord fun c => ?_
  extract_lets
  split
  · trivial
  refine h.atDie (h.withGuard ?_)
  split
  · trivial
  · exact h.capture

protected theorem Canonical.remoteCmd {s c cl fn opa k} (h : Canonical s) (hk : ∀ op post, (k op post).Keeps) :
    (remoteCmd s c cl fn opa k).Keeps := by
  unfold remoteCmd
  split
  · split
    · trivial
    split
    · exact hk _ _
    · trivial
  · exact hk _ _
  · split
    · trivial
    split
    · trivial
    · exact h.stopRes
    · refine h.readWords fun ws bad => ?_
      split
      · trivial
      split
      · trivial
      · exact hk _ _
  · exact hk _ _
  · split
    · trivial
    · exact hk _ _

protected theorem Canonical.execLrem {g d a b s} (h : Canonical s) : Keeps (execLrem g d a b s) := by
  unfold execLrem
  refine h.issueWord fun c => ?_
  split
  · trivial
  refine h.withBlock fun n => ?_
  extract_lets
  split
  · trivial
  split
  · trivial
  split
  · trivial
  split
  · exact h
  split
  · trivial
  · exact h.remoteCmd fun _ _ => h.capture

protected theorem Canonical.treadIssue {fn d a b f k s} (h : Canonical s) : (treadIssue fn d a b f k s).Keeps := by
  unfold treadIssue
  extract_lets
  split
  · trivial
  refine h.atDie (h.withGuard ?_)
  refine h.withBlock fun n => ?_
  split
  · trivial
  split
  · trivial
  · exact h.capture

protected theorem Canonical.copyIssue {req d f k s u n va} (h : Canonical s) :
    (copyIssue req d f k s u n va).Keeps := by
  unfold copyIssue
  split
  · trivial
  split
  · exact h.stopRes
  split
  · trivial
  split
  · trivial
  refine h.atDie ?_
  split
  · trivial
  split
  · trivial
  · exact h.capture

protected theorem Canonical.execCpy {g d a x ss aq r c s} (h : Canonical s) :
    Keeps (execCpy g d a x ss aq r c s) := by
  unfold execCpy
  refine h.issueWord fun c => ?_
  extract_lets
  split
  · trivial
  · exact h.withGuard (h.withBlock fun _ => h.copyIssue)

protected theorem Canonical.execCpyd {g d a x ss aq r c s} (h : Canonical s) :
    Keeps (execCpyd g d a x ss aq r c s) := by
  unfold execCpyd
  refine h.issueWord fun c => ?_
  extract_lets
  split
  · trivial
  · exact h.withBlock fun _ => h.copyIssue

protected theorem Canonical.atGuard {s c u f r} (h : Canonical s) (hr : r.Keeps) : (atGuard s c u f r).Keeps := by
  unfold atGuard
  split
  · exact h.atDie (h.withGuard hr)
  · exact hr

protected theorem Canonical.channelIssue {mk d a res f k s} (h : Canonical s) :
    (channelIssue mk d a res f k s).Keeps := by
  unfold channelIssue
  extract_lets
  split
  · trivial
  refine h.atGuard ?_
  split
  · trivial
  · exact h.atDie h.capture

protected theorem Canonical.scaleIssue {mk write d a vals res f k s} (h : Canonical s) :
    (scaleIssue mk write d a vals res f k s).Keeps := by
  unfold scaleIssue
  extract_lets
  split
  · trivial
  refine h.atGuard ?_
  split
  · trivial
  refine h.atDie ?_
  split
  · exact h.capture
  · trivial

protected theorem Canonical.execScmc {g d a b x ss aq r c s} (h : Canonical s) : Keeps (execScmc g d a b x ss aq r c s) :=
  h.issueWord fun _ => h.scaleIssue

protected theorem Canonical.swapIssue {mk d a res f k s} (h : Canonical s) : (swapIssue mk d a res f k s).Keeps := by
  have hc (cmd) : (thenState (capture s k k.t cmd) fun s => if f.x = 1 then settleSwap s cmd.eng else s).Keeps := by
    refine h.capture.thenState fun s hs => ?_
    split
    · exact hs.settleSwap
    · exact hs
  unfold swapIssue
  extract_lets va cl leaf
  split
  · trivial
  refine h.withGuard ?_
  split
  · trivial
  split
  · trivial
  split
  · trivial
  rcases checkLeaf s k.who .load va leaf with (e | _ | _) | _
  · trivial
  on_goal 2 => exact h
  all_goals
    cases leaf with
    | none => trivial
    | some l =>
      dsimp only
      cases swapDie s cl l.2 with
      | none => trivial
      | some v => exact h.atDie (hc _)

protected theorem Canonical.execGslot {g d a s} (h : Canonical s) : Keeps (execGslot g d a s) := by
  unfold execGslot
  refine h.issueWord fun c => ?_
  split
  · trivial
  extract_lets
  split
  · trivial
  refine h.atDie ?_
  split
  · exact h.setGuard
  · exact h

protected theorem Canonical.withName {s c a more k} (h : Canonical s) (hk : ∀ cl i e, (k cl i e).Keeps) :
    (withName s c a more k).Keeps := by
  unfold withName
  extract_lets
  split
  · trivial
  split
  · trivial
  refine h.atDie ?_
  extract_lets
  split
  · trivial
  · exact hk _ _ _

protected theorem Canonical.execGset {g d a b s} (h : Canonical s) : Keeps (execGset g d a b s) := by
  unfold execGset
  refine h.issueWord fun c => ?_
  split
  · trivial
  refine h.withName fun cl i e => ?_
  split
  · exact h.setGuard.resolveGuard
  · exact h

protected theorem Canonical.execGfree {g a s} (h : Canonical s) : Keeps (execGfree g a s) := by
  unfold execGfree
  refine h.issueWord fun c => ?_
  split
  · trivial
  · exact h.withName fun _ _ _ => h.freeGuard

protected theorem Canonical.withJob {s c a k} (h : Canonical s) (hk : ∀ j, (k j).Keeps) :
    (withJob s c a k).Keeps := by
  unfold withJob
  split
  · trivial
  extract_lets
  split
  · trivial
  split
  · exact h
  · exact hk _

protected theorem Canonical.execJwait {g a s} (h : Canonical s) : Keeps (execJwait g a s) := by
  unfold execJwait
  refine h.issueWord fun c => h.withJob fun j => ?_
  split <;> exact h

protected theorem Canonical.execJtest {g d a s} (h : Canonical s) : Keeps (execJtest g d a s) :=
  h.issueWord fun _ => h.withJob fun _ => h

protected theorem Canonical.execJstat {g d a s} (h : Canonical s) : Keeps (execJstat g d a s) :=
  h.issueWord fun _ => h.withJob fun _ => h

protected theorem Canonical.execCapmint {g d a s} (h : Canonical s) : Keeps (execCapmint g d a s) := by
  unfold execCapmint
  refine h.issueWord fun c => ?_
  split
  · trivial
  extract_lets
  split
  · trivial
  · exact h

protected theorem Canonical.execCaprev {g s} (h : Canonical s) : Keeps (execCaprev g s) :=
  h.issueWord fun _ => h.modTenant

protected theorem Canonical.execFin {g s} (h : Canonical s) : Keeps (execFin g s) := by
  unfold execFin
  refine h.issueWord fun c => ?_
  split
  · split
    · exact h
    split
    · exact h
    · exact h.setEngine
  · trivial

/-! ### Virtual queues -/

protected theorem Canonical.writeEntry {s k e} (h : Canonical s) : Canonical (writeEntry s k e) := by
  unfold writeEntry
  exact h.writeLoc.writeLoc.writeLoc

protected theorem Canonical.setResident {s owner r} (h : Canonical s) : Canonical (setResident s owner r) := h.setCore

protected theorem Canonical.boundPost {s t e} (h : Canonical s) : Canonical (boundPost s t e) := by
  unfold boundPost
  split
  · exact h.postOrBounce
  · exact h

protected theorem Canonical.pushQueue {s t job name v} (h : Canonical s) : (pushQueue s t job name v).Keeps := by
  unfold pushQueue
  extract_lets
  split
  · exact h.startSwapIn
  · exact h
  · trivial
  · extract_lets
    split
    · trivial
    split
    · trivial
    split
    · exact h
    split
    · trivial
    split
    · split
      · trivial
      split
      · exact h
      · exact h.setResident.boundPost
    split
    · exact h.startSwapIn
    · exact h
    · trivial
    · exact h.writeLoc.writeEntry.boundPost

protected theorem Canonical.execEnq {g a b c s} (h : Canonical s) : Keeps (execEnq g a b c s) := by
  unfold execEnq
  refine h.issueWord fun c => ?_
  split
  · trivial
  extract_lets
  split
  · split
    · exact h.stopRes
    split
    · exact h
    split
    · rename_i e
      exact e.subst h.pushQueue
    · exact h.bounce
    · rename_i e
      exact e.subst h.pushQueue
    · exact h
  · exact h.sendPkt

protected theorem Canonical.withQueue {s c a lost r k} (h : Canonical s) (hl : Canonical lost.1)
    (hk : ∀ key e, (k key e).Keeps) : (withQueue s c a lost r k).Keeps := by
  unfold withQueue
  split
  · trivial
  extract_lets
  split
  · exact h.stopRes
  extract_lets
  split
  · exact hl
  split
  · trivial
  split
  · exact h
  · exact hk _ _

protected theorem Canonical.withQueueEnd {s c a lost r k} (h : Canonical s) (hl : Canonical lost.1)
    (hk : ∀ key e, (k key e).Keeps) : (withQueueEnd s c a lost r k).Keeps := by
  unfold withQueueEnd
  refine h.withQueue hl fun key e => ?_
  split
  · exact h.stopRes
  split
  · exact h
  · exact hk _ _

protected theorem Canonical.deqUnread {s c d q} (h : Canonical s) : Canonical (deqUnread s c d q).1 := h.freeValue

protected theorem Canonical.execDeq {g d a aq _c s} (h : Canonical s) : Keeps (execDeq g d a aq _c s) := by
  unfold execDeq
  refine h.issueWord fun c => h.withQueueEnd ?_ fun key e => ?_
  · exact h.deqUnread
  · extract_lets
    split
    · split
      · split
        · exact h.setResident
        · exact h
      · exact h
    split
    · exact h.stopRes
    split
    · exact h
    · exact h.writeEntry

protected theorem Canonical.execQlen {g d a s} (h : Canonical s) : Keeps (execQlen g d a s) := by
  unfold execQlen
  refine h.issueWord fun c => h.withQueueEnd ?_ fun key e => ?_
  · exact h
  · extract_lets
    split
    · exact h
    split
    · exact h.stopRes
    · exact h

protected theorem Canonical.execQmake {g d a b s} (h : Canonical s) : Keeps (execQmake g d a b s) := by
  unfold execQmake
  refine h.issueWord fun c => ?_
  split
  · trivial
  extract_lets
  split
  · trivial
  split
  · trivial
  split
  · exact h.stopRes
  split
  · exact h.stopRes
  extract_lets
  split
  · exact h
  split
  · trivial
  · exact h.writeEntry

protected theorem Canonical.freeQueue {s t q key e} (h : Canonical s) :
    Canonical (freeQueue s t q key e) := h.writeEntry.setCore

protected theorem Canonical.execQfree {g a s} (h : Canonical s) : Keeps (execQfree g a s) := by
  unfold execQfree
  refine h.issueWord fun c => h.withQueue ?_ fun key e => ?_
  · exact h
  · exact h.freeQueue

protected theorem Canonical.execQueuePush {id s} (h : Canonical s) : Keeps (execQueuePush id s) := by
  unfold execQueuePush
  split
  · exact h
  split
  · split
    · split
      · rename_i e
        exact (e.subst h.pushQueue).dropPkt.acknowledge
      · rename_i e
        exact e.subst h.pushQueue
      · exact h.dropPkt.sendAnswer
      · exact h.dropPkt.acknowledge.deferError
    · exact h
  · exact h

protected theorem Canonical.execQueuePushNack {id s} (h : Canonical s) : Keeps (execQueuePushNack id s) := by
  unfold execQueuePushNack
  split
  · exact h
  split
  · extract_lets
    split
    · exact h
    split
    · exact h.dropPkt.bounce.deliverAnswer
    · exact h.dropPkt.bounce.storeDone
  · exact h

protected theorem Canonical.imageWrite {s s' who e l i} (h : Canonical s) (he : imageWrite who e l i s = some s') :
    Canonical s' := by
  induction l generalizing s i with
  | nil =>
    obtain rfl := Option.some.inj he
    exact h
  | cons v l ih =>
    unfold imageWrite at he
    split at he
    · exact ih h.writeLoc he
    · cases he

protected theorem Canonical.dropResident {s t q core} (h : Canonical s) : Canonical (dropResident s t q core) :=
  h.setCore

protected theorem Canonical.endMoveOut {s who q key e r} (h : Canonical s) :
    Canonical (endMoveOut s who q key e r) := by
  unfold endMoveOut
  split
  · exact h.startSwapIn
  split
  · exact h
  · rename_i e
    exact (h.imageWrite e).dropResident.writeEntry

protected theorem Canonical.endMoveIn {s who q key e} (h : Canonical s) : Canonical (endMoveIn s who q key e) := by
  unfold endMoveIn
  extract_lets
  split
  · exact h.startSwapIn
  split
  · exact h.setCore.writeEntry
  · exact h.writeEntry

protected theorem Canonical.execQueueResidencyChange {tn qnum core s} (h : Canonical s) :
    Keeps (execQueueResidencyChange tn qnum core s) := by
  unfold execQueueResidencyChange
  extract_lets
  split
  · exact h
  split
  · exact h
  extract_lets
  split
  · split
    · exact h.writeEntry
    · exact h
  · exact h.writeEntry
  · split
    · exact h.endMoveOut
    · exact h.endMoveIn
  · exact h

/-! ### Engine runs -/

protected theorem Canonical.beginInval {s all global tenant page} (h : Canonical s) :
    Canonical (beginInval s all global tenant page).2 := h.freshId.frame rfl rfl

protected theorem Canonical.flashPlace {s v n} (h : Canonical s) : Canonical (flashPlace s v n).2 := h.choose

protected theorem Canonical.acceptSwapOut {s c v va level w} (h : Canonical s) :
    Canonical (acceptSwapOut s c v va level w) := h.flashPlace.beginInval.setLeaf.modTenant

protected theorem Canonical.startSwap {s eng c} (h : Canonical s) : Canonical (startSwap s eng c) := by
  unfold startSwap
  split
  · exact h.startSwapIn
  · split
    · exact h.acceptSwapOut
    · exact h.failCmd
  · exact h

protected theorem Canonical.channelStart {s cl ch cmd} (h : Canonical s) :
    Canonical (channelStart s cl ch cmd) := h.setChan.modJob

protected theorem Canonical.toChannel {s cl cmd} (h : Canonical s) : Canonical (toChannel s cl cmd) :=
  h.setEngine.setChan

protected theorem Canonical.runCmd {s eng c} (h : Canonical s) : Canonical (runCmd s eng c) := by
  unfold runCmd
  split
  · exact h.startRunning.startSwap
  split
  · split
    · exact h.startRunning
    · exact h.toChannel
  · exact h.startRunning

protected theorem Canonical.execCommandStart {eng s} (h : Canonical s) : Keeps (execCommandStart eng s) := by
  unfold execCommandStart
  extract_lets s1 next
  have h1 : Canonical s1 := by
    unfold s1
    split
    · exact h
    · exact h.admitSwaps
  clear_value s1 next
  split
  · exact h1.unparkCmd
  · exact h1.channelStart
  · split
    · exact h1
    split
    · exact h1.obeyGuard fun _ h => h.runCmd
    · exact h1

protected theorem Canonical.putRunning {s eng c} (h : Canonical s) : Canonical (putRunning s eng c) := h.setEngine

protected theorem Canonical.streamMany {p act dst acc rtz n r} (h : Canonical r.1) :
    Canonical (streamMany p act dst acc rtz n r).1 := by
  induction n generalizing r with
  | zero => exact h
  | succ n ih => exact ih h.writeRow

protected theorem Canonical.lastComplete {s cl c} (h : Canonical s) : Canonical (lastComplete s cl c) := by
  unfold lastComplete
  split
  · exact h.setCluster.doneCmd
  · exact h.setCluster.doneCmd
  · exact h.setCluster.doneCmd
  · exact h.setCluster.doneCmd
  · extract_lets
    split
    · split
      · exact h.doneCmd
      · exact h
    · exact h
  · extract_lets _ k r x
    have hx : Canonical x.1 := .streamMany h.choose
    split
    · exact hx.doneCmd
    · exact hx.putRunning
  · split
    · exact h.doneCmd
    · exact h
  · exact h

protected theorem Canonical.transpose {s t dst} (h : Canonical s) : Canonical (transpose s t dst) := h.writeRows

protected theorem Canonical.treadComplete {s eng c} (h : Canonical s) : Canonical (treadComplete s eng c) := by
  unfold treadComplete
  split
  · split
    · split
      · exact h.transpose.doneCmd
      · exact h.writeTile.doneCmd
    · exact h.doneCmd
    · exact h
  · exact h

protected theorem Canonical.swapComplete {s eng c} (h : Canonical s) : Canonical (swapComplete s eng c) := by
  unfold swapComplete
  split
  · exact h.doneCmd
  · split
    · exact h.doneCmd
    · exact h
  · exact h

protected theorem Canonical.fillWords {l s} (h : Canonical s) : Canonical (fillWords l s) := by
  unfold fillWords
  refine h.foldl fun s a h => ?_
  split
  · exact h
  · exact .wakeFullEmpty (h.write (memWf_fePut _ _ _) rfl)

protected theorem Canonical.putBytes {l k s} (h : Canonical s) : Canonical (putBytes l k s) := by
  induction l generalizing s k with
  | nil => exact h
  | cons b l ih => exact ih h.writeLoc

protected theorem Canonical.remoteWrites {s cl c k da v p fuel n} (h : Canonical s) :
    Canonical (remoteWrites s cl c k da v p fuel n).1 := by
  induction fuel generalizing s k da p n with
  | zero => exact h
  | succ fuel ih =>
    unfold remoteWrites
    split
    · exact h
    · exact ih h.sendPkt

protected theorem Canonical.raiseMark {s cl ch c wm} (h : Canonical s) : Canonical (raiseMark s cl ch c wm) :=
  h.setChan

protected theorem Canonical.leaveChannel {s cl ch cst} (h : Canonical s) : Canonical (leaveChannel s cl ch cst) :=
  h.setChan

protected theorem Canonical.afterSegment {s cl ch c wm len} (h : Canonical s) :
    Canonical (afterSegment s cl ch c wm len) := by
  unfold afterSegment
  extract_lets
  split
  · exact h.raiseMark.leaveChannel.doneCmd
  · exact h.raiseMark

protected theorem Canonical.parkOnChannel {s cl ch c} (h : Canonical s) :
    Canonical (parkOnChannel s cl ch c) := h.freeValue.setChan.modJob

protected theorem Canonical.unparkOnChannel {s cl ch c} (h : Canonical s) :
    Canonical (unparkOnChannel s cl ch c) := h.setChan.modJob

protected theorem Canonical.parkCopy {s cl ch c va} (h : Canonical s) : Canonical (parkCopy s cl ch c va) := by
  unfold parkCopy
  extract_lets
  split
  · split
    · exact h.startSwapIn.parkOnChannel
    · exact h.startSwapIn
  · exact h.startSwapIn

protected theorem Canonical.execCopySegment {cl ch s} (h : Canonical s) : Keeps (execCopySegment cl ch s) := by
  unfold execCopySegment
  extract_lets k
  split
  · exact h
  split
  · split
    · exact h
    split
    · exact h.afterSegment
    · exact h
    · extract_lets n da
      rename_i setf _ _ _ _ _ _
      generalize checkSegment s cl _ _ da _ = seg
      split
      · exact h
      · exact h
      · exact h.parkCopy
      · exact h.remoteWrites.setChan
      · refine .afterSegment ?_
        cases setf with
        | false => exact h.putBytes
        | true => exact h.putBytes.fillWords
      · exact h
  · exact h

protected theorem Canonical.execCommandCompletion {eng entry s} (h : Canonical s) :
    Keeps (execCommandCompletion eng entry s) := by
  unfold execCommandCompletion
  split
  · split
    · exact h
    split
    · exact h.swapComplete
    split
    · exact h.lastComplete
    · exact h.treadComplete
    · split
      · exact h.doneCmd
      · exact h
    · split
      · exact h.writeLoc.doneCmd
      · exact h.doneCmd
      · exact h
  split
  · exact h
  split
  · exact h
  split
  · exact h.setChan.doneCmd
  · exact h

protected theorem Canonical.finishRow {s cl core c stg hentry arg r} (h : Canonical s) :
    Canonical (finishRow s cl core c stg hentry arg r) := by
  unfold finishRow
  split
  · exact h
  split
  · exact h.poolRefused
  rename_i e
  split
  · exact h
  · exact (h.poolTake e).putRunning.putLine

protected theorem Canonical.execStagingDelivery {cl core s} (h : Canonical s) :
    Keeps (execStagingDelivery cl core s) := by
  unfold execStagingDelivery
  split
  · exact h
  split
  · extract_lets
    split
    · exact h
    split
    · exact h.finishRow
    split
    · exact h
    · exact h.writeRow.putRunning.finishRow
  · exact h

protected theorem Canonical.execStagingRowWrite {cl row s} (h : Canonical s) :
    Keeps (execStagingRowWrite cl row s) := by
  unfold execStagingRowWrite
  split
  · exact h
  split
  · split
    · exact h
    · exact h.writeRow.putRunning
  · exact h

/-! ### The ends of swaps -/

protected theorem Canonical.giveFrame {s t frame level} (h : Canonical s) :
    Canonical (giveFrame s t frame level) := h.modTenant

protected theorem Canonical.execSwapOutImageWritten {tn page s} (h : Canonical s) :
    Keeps (execSwapOutImageWritten tn page s) := by
  unfold execSwapOutImageWritten
  extract_lets va
  split
  · exact h
  split
  · split
    · exact h
    extract_lets units used s1 s2
    have h1 : Canonical s1 := h.modTenant
    have h2 : Canonical s2 := .giveFrame (h1.frame rfl rfl)
    split
    · exact h2.doneCmd
    · exact h2
  · exact h

protected theorem Canonical.execSwapInFrameGrant {tn page s} (h : Canonical s) :
    Keeps (execSwapInFrameGrant tn page s) := by
  unfold execSwapInFrameGrant
  extract_lets
  split
  · exact h
  split
  · exact h.modTenant
  · exact h

protected theorem Canonical.resumeCopies {s t level va} (h : Canonical s) :
    Canonical (resumeCopies s t level va) := by
  unfold resumeCopies
  refine h.foldl fun s a h => ?_
  extract_lets
  split
  · exact h
  split
  · exact h
  · exact h.unparkOnChannel

protected theorem Canonical.loseQueue {t s x} (h : Canonical s) : Canonical (loseQueue t s x) := by
  unfold loseQueue
  split
  · split
    · exact h.freeQueue
    · exact h
  · exact h.modTenant

protected theorem Canonical.flushQueues {s t} (h : Canonical s) :
    Canonical (flushQueues s t) := h.modTenant.foldl fun _ _ h => h.loseQueue

protected theorem Canonical.landPage {s tn va level frame floc w img} (h : Canonical s) :
    Canonical (landPage s tn va level frame floc w img) := by
  unfold landPage
  extract_lets m s1 s2 s3
  have h1 : Canonical s1 := .setLeaf (h.write (fun hm => memWf_writeUnits _ _ _ (memWf_memScrub _ _ _ hm)) rfl)
  exact h1.modTenant.flushAll.flushQueues.wakePage.resumeCopies

protected theorem Canonical.execPageLanding {tn page s} (h : Canonical s) : Keeps (execPageLanding tn page s) := by
  unfold execPageLanding
  extract_lets
  split
  · exact h
  split
  · split
    · exact h.landPage
    · exact h
  · exact h

protected theorem Canonical.failWaiter {s level va x} (h : Canonical s) : Canonical (failWaiter s level va x) := by
  unfold failWaiter
  extract_lets
  split
  · exact h.editLine.report
  · exact h.editLine

protected theorem Canonical.failChannel {tn level va trap s n} (h : Canonical s) :
    Canonical (failChannel tn level va trap s n) := by
  unfold failChannel
  extract_lets cl eng s1 k gone
  have h1 : Canonical s1 := by
    unfold s1
    split
    · exact h
    · exact h.leaveChannel.failCmd
  exact h1.setChan.foldl fun _ _ h => h.failCmd

protected theorem Canonical.failSaved {tn level va trap s} (h : Canonical s) :
    Canonical (failSaved tn level va trap s) := .foldl (h.frame rfl rfl) (fun _ _ h => h.failCmd.modJob)

protected theorem Canonical.failPageCmds {s tn level va} (h : Canonical s) :
    Canonical (failPageCmds s tn level va) :=
  (h.foldl fun _ _ h => h.failChannel).failSaved.foldl fun _ _ h => h.foldl fun _ _ h => h.failCmd

protected theorem Canonical.failSwapIn {s tn va} (h : Canonical s) : Canonical (failSwapIn s tn va) := by
  unfold failSwapIn
  split
  · exact h
  split
  · exact (h.modTenant.giveFrame.foldl fun _ _ h => h.failWaiter).failPageCmds
  · exact h

protected theorem Canonical.undoSwapOut {s t level va w m} (h : Canonical s) :
    Canonical (undoSwapOut s t level va w m) := h.swapAbort.flushAll.flushQueues

protected theorem Canonical.unreadableOut {s c eng va} (h : Canonical s) : Canonical (unreadableOut s c eng va) := by
  unfold unreadableOut
  split
  · exact h.failCmd.undoSwapOut
  · exact h

protected theorem Canonical.execCommandFault {eng entry s} (h : Canonical s) :
    Keeps (execCommandFault eng entry s) := by
  unfold execCommandFault
  split
  · split
    · split
      · exact h.failCmd
      split
      · split
        · exact h.unreadableOut
        · exact h
      · exact h
    · exact h
  split
  · exact h
  split
  · exact h
  split
  · split
    · exact h
    split
    · exact h.leaveChannel.failCmd
    · exact h
  · exact h

/-! ### The ends of jobs -/

protected theorem Canonical.endAtEngine {p fin s n} (h : Canonical s)
    (hf : ∀ s n c, Canonical s → Canonical (fin s n c)) : Canonical (endAtEngine p fin s n) :=
  h.foldl fun _ _ h => hf _ _ _ h

protected theorem Canonical.endAtChannel {p fin s x} (h : Canonical s)
    (hf : ∀ s n c, Canonical s → Canonical (fin s n c)) : Canonical (endAtChannel p fin s x) := by
  unfold endAtChannel
  extract_lets n k s1 gone
  have h1 : Canonical s1 := by
    unfold s1
    split
    · split
      · exact hf _ _ _ h.leaveChannel
      · exact h
    · exact h
  exact h1.setChan.foldl fun _ _ h => hf _ _ _ h

protected theorem Canonical.endCmds {s p fin} (h : Canonical s)
    (hf : ∀ s n c, Canonical s → Canonical (fin s n c)) : Canonical (endCmds s p fin) :=
  (h.foldl fun _ _ h => h.endAtEngine hf).foldl fun _ _ h => h.endAtChannel hf

protected theorem Canonical.killCmd {s eng c} (h : Canonical s) : Canonical (killCmd s eng c) := by
  unfold killCmd
  dsimp only
  split
  · exact h.failQuiet.undoSwapOut
  · exact h.failQuiet

protected theorem Canonical.freeGuards {s p} (h : Canonical s) : Canonical (freeGuards s p) := by
  unfold freeGuards
  refine h.foldl fun s a h => h.foldl fun s a h => ?_
  split
  · exact h.freeGuard
  · exact h

protected theorem Canonical.endWindows {s p} (h : Canonical s) : Canonical (endWindows s p) := h.frame rfl rfl

protected theorem Canonical.endJob {s t j} (h : Canonical s) : Canonical (endJob s t j) := h.freeGuards.endWindows

protected theorem Canonical.dropSwitch {s t j} (h : Canonical s) :
    Canonical (dropSwitch s t j) := (h.foldl fun _ _ h => h.failQuiet.modJob).frame rfl rfl

protected theorem Canonical.killLines {s p} (h : Canonical s) : Canonical (killLines s p) :=
  h.foldl fun _ _ h => h.killLine

protected theorem Canonical.dropRecords {s p} (h : Canonical s) : Canonical (dropRecords s p) := h.frame rfl rfl

protected theorem Canonical.dropPkts {s p} (h : Canonical s) : Canonical (dropPkts s p) := h.frame rfl rfl

protected theorem Canonical.killJob {s t j} (h : Canonical s) : Canonical (killJob s t j) := by
  unfold killJob
  refine .endJob (.dropPkts (.dropRecords (.killLines (.dropSwitch (h.endCmds fun s n c h => ?_)))))
  exact h.killCmd

/-! ### Services -/

protected theorem Canonical.findFrame {s level} (h : Canonical s) : Canonical (findFrame s level).2 := h.choose

protected theorem Canonical.takeFrame {s t level r s'} (h : Canonical s) (e : takeFrame s t level = some (r, s')) :
    Canonical s' := by
  unfold takeFrame at e
  obtain ⟨b, -, hb⟩ := Option.map_eq_some_iff.mp e
  obtain ⟨-, rfl⟩ := Prod.mk.inj hb
  exact h.findFrame.frame rfl rfl

protected theorem Canonical.freeFrame {s base level} (h : Canonical s) :
    Canonical (freeFrame s base level) := h.write (memWf_memScrub _ _ _) rfl

protected theorem Canonical.dropTlb {s p} (h : Canonical s) : Canonical (dropTlb s p) := h.frame rfl rfl

protected theorem Canonical.svcMap {s t g1 g2 g3} (h : Canonical s) : (svcMap s t g1 g2 g3).Keeps := by
  unfold svcMap
  split
  · exact h
  split
  · exact h
  split
  · exact h
  split
  · exact h
  rename_i e
  split
  · exact h
  · exact Canonical.setLeaf ((h.takeFrame e).write (memWf_memScrub _ _ _) rfl)

protected theorem Canonical.undoMove {s t va level w} (h : Canonical s) : Canonical (undoMove s t va level w) := by
  unfold undoMove
  split
  · exact h
  split
  · exact h.undoSwapOut
  extract_lets
  split
  · exact h.modTenant.giveFrame
  · exact h.modTenant

protected theorem Canonical.freePage {s t level w} (h : Canonical s) : Canonical (freePage s t level w) := by
  unfold freePage
  split
  · split
    · exact .modTenant (h.frame rfl rfl)
    · exact h
  split
  · exact h
  · exact h.freeFrame

protected theorem Canonical.svcUnmap {s t g1} (h : Canonical s) : (svcUnmap s t g1).Keeps := by
  unfold svcUnmap
  split
  · exact h
  extract_lets
  split
  · exact h
  · exact h.undoMove.freePage.modTenant.dropTlb.wakePage.resumeCopies

protected theorem Canonical.svcProtect {s t g1 g3} (h : Canonical s) : (svcProtect s t g1 g3).Keeps := by
  unfold svcProtect
  split
  · exact h
  split
  · exact h
  extract_lets
  split
  · exact h
  split
  · exact h
  split
  · exact h
  · exact h.setLeaf.dropTlb

protected theorem Canonical.wakeEmptied {s m k n} (h : Canonical s) : Canonical (wakeEmptied s m k n) := h.sendWakes

protected theorem Canonical.svcGrant {s t g1 g2} (h : Canonical s) : (svcGrant s t g1 g2).Keeps := by
  unfold svcGrant
  split
  · exact h
  split
  · split
    · exact h
    split
    · exact h
    · exact h.write (memWf_memScrub _ _ _) rfl
  split
  · exact h
  split
  · exact h
  · exact Canonical.wakeEmptied (h.write (memWf_memScrub _ _ _) rfl)

protected theorem Canonical.svcPushmask {s t g1 g2} (h : Canonical s) : (svcPushmask s t g1 g2).Keeps := by
  unfold svcPushmask
  split
  · exact h
  split
  · exact h.startSwapIn
  · exact h
  · exact h
  · split
    · exact h
    · exact h.modTenant

protected theorem Canonical.svcKilljob {s t g1} (h : Canonical s) : (svcKilljob s t g1).Keeps := by
  unfold svcKilljob
  split
  · exact h
  · exact h.killJob

protected theorem Canonical.svcSwapallot {s t g1} (h : Canonical s) : (svcSwapallot s t g1).Keeps :=
  h.choose.modTenant

protected theorem Canonical.svcCounter {s t g1 g2} (h : Canonical s) : (svcCounter s t g1 g2).Keeps := by
  unfold svcCounter
  split
  · exact h
  extract_lets
  split
  · exact h
  split
  · exact h
  split
  · split
    · exact h
    · exact h.setCounter
  split
  · exact h.setCounter.wakeCounter
  · exact h

protected theorem Canonical.service {s t n g1 g2 g3} (h : Canonical s) : (service s t n g1 g2 g3).Keeps := by
  unfold service
  split
  · exact h.svcMap
  · exact h.svcUnmap
  · exact h.svcProtect
  · exact h.svcGrant
  · exact h.svcPushmask
  · exact h.svcKilljob
  · exact h.svcSwapallot
  · exact h.svcCounter
  · exact h

protected theorem Canonical.runService {s t n g1 g2 g3} (h : Canonical s) : Keeps (runService s t n g1 g2 g3) := by
  unfold runService
  split
  · split
    · rename_i e
      exact (e.subst h.service : Served.Keeps _).frame rfl rfl
    · rename_i e
      exact e.subst h.service
  · exact h

protected theorem Canonical.serviceCall {n c s} (h : Canonical s) : (serviceCall n c s).Keeps := by
  unfold serviceCall
  extract_lets
  split
  · rename_i e
    exact e.subst h.service
  rename_i e
  split
  · exact (e.subst h.service).killLine
  · exact e.subst h.service

protected theorem Canonical.execTrap {g i s} (h : Canonical s) : Keeps (execTrap g i s) := by
  unfold execTrap
  refine h.issueWord fun c => ?_
  split
  · exact h.serviceCall
  · trivial

/-! ### System words -/

protected theorem Canonical.execCsrr {g d n s} (h : Canonical s) : Keeps (execCsrr g d n s) := by
  unfold execCsrr
  refine h.issueWord fun c => ?_
  split
  · exact h
  · trivial

protected theorem Canonical.writeCsr {n a c s} (h : Canonical s) : (writeCsr n a c s).Keeps := by
  unfold writeCsr
  split
  · trivial
  extract_lets l v t x line r
  have hr : r.Keeps := h.modTenant
  clear_value r
  split
  · exact h
  · exact h
  · split
    · trivial
    · exact h
  · split
    · trivial
    split
    · split
      · exact hr
      · trivial
      · exact h.startSwapIn
      · exact h
    · exact hr

protected theorem Canonical.issueCsrw {g a n s} (h : Canonical s) : Keeps (issueCsrw g a n s) :=
  h.issueWord fun _ => h.writeCsr

protected theorem Canonical.heldLine {s c a k} (h : Canonical s) (hk : ∀ y, (k y).Keeps) :
    (heldLine s c a k).Keeps := by
  unfold heldLine
  extract_lets va
  split
  · trivial
  split
  · trivial
  split
  · exact h
  split
  · exact h.stopRes
  · exact hk _

protected theorem Canonical.execRft {g a f s} (h : Canonical s) : Keeps (execRft g a f s) := by
  unfold execRft
  refine h.issueWord fun c => ?_
  split
  · trivial
  refine h.heldLine fun y => ?_
  split
  · exact h
  split
  · exact h
  split
  · exact h.stopRes
  · exact h.editLine.releaseLine

protected theorem Canonical.execCevictSelf {g s} (h : Canonical s) : Keeps (execCevictSelf g s) :=
  h.issueWord fun _ => h.putLine

protected theorem Canonical.execCevict {g a s} (h : Canonical s) : Keeps (execCevict g a s) := by
  unfold execCevict
  refine h.issueWord fun c => ?_
  split
  · trivial
  extract_lets
  split
  · trivial
  split
  · exact h
  split
  · exact h
  split
  · exact h
  split
  · exact h.putLine
  · split <;> exact h

protected theorem Canonical.takeClaim {s y holder} (h : Canonical s) : Canonical (takeClaim s y holder) := by
  unfold takeClaim
  extract_lets
  split
  · split
    · exact h.leaveReady.putLine.write (memWf_memWrite _ _ _ _) rfl
    · exact h.leaveReady.putLine.sendImage.putLine
    · exact h.leaveReady.putLine
  · exact h.leaveReady.putLine

protected theorem Canonical.claimDone {c d v s} (h : Canonical s) : (claimDone c d v s).Keeps := h

protected theorem Canonical.claimAt {s c d va} (h : Canonical s) : (claimAt s c d va).Keeps := by
  unfold claimAt
  split
  · exact h.claimDone
  split
  · exact h
  split
  · split
    · split
      · exact h.claimDone
      · exact h
    · exact h.claimDone
  split
  · exact h.claimDone
  split
  · exact h
  · exact h.takeClaim

protected theorem Canonical.execCclaim {g d a s} (h : Canonical s) : Keeps (execCclaim g d a s) := by
  unfold execCclaim
  refine h.issueWord fun c => ?_
  split
  · trivial
  extract_lets
  split
  · trivial
  split
  · trivial
  · split
    · exact h.stopRes
    · trivial
  · split
    · trivial
    split
    · trivial
    · exact h.claimAt

protected theorem Canonical.execCpark {g a b s} (h : Canonical s) : Keeps (execCpark g a b s) := by
  unfold execCpark
  refine h.issueWord fun c => ?_
  split
  · trivial
  refine h.heldLine fun y => ?_
  split
  · exact h.releaseLine
  · exact h.releaseLine
  · exact h.killLine
  · trivial

protected theorem Canonical.untilMarked {c s start} (h : Canonical s) (hs : Canonical start.2) :
    (untilMarked c s start).Keeps := by
  unfold untilMarked
  split
  · exact hs
  · split <;> exact h

protected theorem Canonical.execTlbinv {g a b s} (h : Canonical s) : Keeps (execTlbinv g a b s) := by
  unfold execTlbinv
  refine h.issueWord fun c => ?_
  split
  · trivial
  extract_lets
  split
  · trivial
  split
  · trivial
  · exact h.untilMarked h.beginInval

protected theorem Canonical.setHalt {s t b} (h : Canonical s) : Canonical (setHalt s t b) := h.modTenant

protected theorem Canonical.execHalt {g a b s} (h : Canonical s) : Keeps (execHalt g a b s) := by
  unfold execHalt
  refine h.issueWord fun c => ?_
  split
  · trivial
  extract_lets
  split
  · trivial
  split
  · exact h.setHalt
  · exact h.setHalt
  · trivial

protected theorem Canonical.sealDone {s t va} (h : Canonical s) : Canonical (sealDone s t va) := by
  unfold sealDone
  split
  · split
    · exact h.setLeaf.dropTlb
    · exact h
  · exact h

protected theorem Canonical.execSeal {g a s} (h : Canonical s) : Keeps (execSeal g a s) := by
  unfold execSeal
  refine h.issueWord fun c => ?_
  split
  · trivial
  extract_lets va t
  split
  · have hu := h.untilMarked (c := c) (start := (0, s)) h
    split
    · rename_i e
      exact (e.subst hu : Canonical _).sealDone
    · exact hu
  split
  · trivial
  · exact h
  · exact h.untilMarked h.setLeaf.beginInval

/-! ### Host messages -/

protected theorem Canonical.ackHost {s tag status} (h : Canonical s) : Canonical (ackHost s tag status) := h.toHost

protected theorem Canonical.queueMsg {s i} (h : Canonical s) : Canonical (queueMsg s i) := h.frame rfl rfl

protected theorem Canonical.holdMsg {s i} (h : Canonical s) : Canonical (holdMsg s i) := by
  unfold holdMsg
  split
  · exact h
  · exact h.queueMsg

protected theorem Canonical.holdFirst {s i} (h : Canonical s) : Canonical (holdFirst s i) := h.frame rfl rfl

protected theorem Canonical.unholdMsg {s i} (h : Canonical s) : Canonical (unholdMsg s i) := h.frame rfl rfl

protected theorem Canonical.refuseMsg {s i} (h : Canonical s) : Canonical (refuseMsg s i) := h.toHost

protected theorem Canonical.turnOf {me k s} (h : Canonical s) (hk : ∀ s, Canonical s → (k s).Keeps) :
    Canonical (turnOf me k s) := by
  unfold turnOf
  have hu := hk _ (h.unholdMsg (i := me))
  split
  · rename_i e
    exact e.subst hu
  · rename_i e
    exact (e.subst hu : Canonical _).holdFirst

protected theorem Canonical.hostMsg {me k s} (h : Canonical s) (hk : ∀ s, Canonical s → (k s).Keeps) :
    Keeps (hostMsg me k s) := by
  unfold hostMsg
  split
  · exact h
  split
  · exact h.unholdMsg.refuseMsg
  split
  · exact h.turnOf hk
  · exact h.holdMsg

protected theorem Canonical.tenantMsg {me tag k s} (h : Canonical s) (hk : ∀ s, Canonical s → (k s).Keeps) :
    Keeps (tenantMsg me tag k s) := by
  unfold tenantMsg
  refine h.hostMsg fun s h => ?_
  split
  · exact hk s h
  · exact h.ackHost

protected theorem Canonical.writeKeys {ks bs s} (h : Canonical s) : Canonical (writeKeys ks bs s) := by
  induction ks generalizing bs s with
  | nil => exact h
  | cons k ks ih =>
    cases bs with
    | nil => exact h
    | cons b bs => exact ih h.writeLoc

protected theorem Canonical.execWrite {tn addr data rel tag s} (h : Canonical s) :
    Keeps (execWrite tn addr data rel tag s) := by
  unfold execWrite
  refine h.tenantMsg fun s h => ?_
  split
  · exact h.ackHost
  split
  · exact h.ackHost
  · exact h.startSwapIn
  · exact h
  · exact h.writeKeys.ackHost

protected theorem Canonical.readKeys {s ks} (h : Canonical s) : Canonical (readKeys s ks).2 := by
  unfold readKeys
  split
  · exact h.freeValue
  · exact h

protected theorem Canonical.execRead {tn addr len acq tag s} (h : Canonical s) :
    Keeps (execRead tn addr len acq tag s) := by
  unfold execRead
  refine h.tenantMsg fun s h => ?_
  split
  · exact h.toHost
  split
  · exact h.toHost
  · exact h.startSwapIn
  · exact h
  · exact h.readKeys.toHost

protected theorem Canonical.execPush {tn name elem tag s} (h : Canonical s) :
    Keeps (execPush tn name elem tag s) := by
  unfold execPush
  refine h.tenantMsg fun s h => ?_
  split
  · exact h.ackHost
  split
  · rename_i e
    exact (e.subst h.pushQueue).ackHost
  · exact h.bounce.ackHost
  · rename_i e
    exact e.subst h.pushQueue
  · exact h.ackHost

protected theorem Canonical.execPost {tn name inc tag s} (h : Canonical s) : Keeps (execPost tn name inc tag s) := by
  unfold execPost
  refine h.tenantMsg fun s h => ?_
  split
  · exact h.ackHost
  split
  · exact h
  split
  · rename_i e
    exact (h.applyPost e).ackHost
  · exact h.bounce.ackHost

protected theorem Canonical.chooseCluster {s dies} (h : Canonical s) : Canonical (chooseCluster s dies).2 := h.choose

protected theorem Canonical.placeInDram {s x} (h : Canonical s) : Canonical (placeInDram s x) := by
  unfold placeInDram
  extract_lets
  split
  · rename_i e
    exact (h.intoImage e).enterReady
  · exact h.putLine.putRoot.enterReady

protected theorem Canonical.createRoot {dies r s i} (h : Canonical s) : Canonical (createRoot dies r s i) := by
  unfold createRoot
  extract_lets
  split
  · exact h.chooseCluster.choose.putLine
  · exact h.chooseCluster.choose.placeInDram

protected theorem Canonical.completeLaunch {s l status} (h : Canonical s) :
    Canonical (completeLaunch s l status) := by
  unfold completeLaunch
  split
  · extract_lets
    split
    · exact h.postOrBounce.toHost
    · exact h.postOrBounce
  extract_lets
  split
  · exact h.toHost
  · exact h

protected theorem Canonical.execLaunch {tn rec tag s} (h : Canonical s) : Keeps (execLaunch tn rec tag s) := by
  unfold execLaunch
  refine h.tenantMsg fun s h => ?_
  extract_lets
  split
  · exact h.report.completeLaunch.ackHost
  split
  · exact h
  split
  · exact h.ackHost.completeLaunch
  split
  · exact h
  · exact Canonical.ackHost ((h.foldl fun _ _ h => h.createRoot).frame rfl rfl)

protected theorem Canonical.execJobCompletion {tn job s} (h : Canonical s) : Keeps (execJobCompletion tn job s) := by
  unfold execJobCompletion
  split
  · exact h
  · exact Canonical.foldl (h.endJob.frame rfl rfl) (fun _ _ h => h.completeLaunch)

protected theorem Canonical.execTenantCreate {tn tag s} (h : Canonical s) : Keeps (execTenantCreate tn tag s) := by
  unfold execTenantCreate
  refine h.hostMsg fun s h => ?_
  split
  · exact h.ackHost
  · exact h.setTenant.ackHost

protected theorem Canonical.tearLines {s t} (h : Canonical s) : Canonical (tearLines s t) := by
  unfold tearLines
  extract_lets s1 s2 s3 s4 ended
  have h1 : Canonical s1 := h.endCmds fun _ _ _ h => h.killCmd
  have h2 : Canonical s2 := h1.foldl fun _ _ h => h.dropSwitch
  have h4 : Canonical s4 := h2.killLines.dropRecords.dropPkts
  exact .foldl (h4.frame rfl rfl) fun _ _ h => h.completeLaunch

protected theorem Canonical.tearMemory {s t} (h : Canonical s) : Canonical (tearMemory s t) := by
  unfold tearMemory
  extract_lets granule frame
  have hg (m e) (hm : memWf m = true) : memWf (granule m e) = true := by
    unfold granule
    split
    · exact memWf_memScrub _ _ _ hm
    · exact hm
  have hf (m e) (hm : memWf m = true) : memWf (frame m e) = true := by
    unfold frame
    split
    · exact memWf_memScrub _ _ _ hm
    · exact hm
  exact h.write (fun hm => memWf_foldl (memWf_foldl hm hg) hf) rfl

protected theorem Canonical.tearDown {s t} (h : Canonical s) : Canonical (tearDown s t) := by
  unfold tearDown
  extract_lets s1 s2 s3 gen port s4
  have h3 : Canonical s3 := h.tearLines.tearMemory.freeGuards.endWindows
  clear_value s3
  exact .setTenant (h3.frame rfl rfl)

protected theorem Canonical.execTenantTearDown {tn tag s} (h : Canonical s) :
    Keeps (execTenantTearDown tn tag s) := by
  unfold execTenantTearDown
  refine h.hostMsg fun s h => ?_
  split
  · exact h.ackHost
  · exact h.tearDown.ackHost

protected theorem Canonical.sealPages {t n va s} (h : Canonical s) : (sealPages t n va s).Keeps := by
  induction n generalizing va s with
  | zero => exact h
  | succ n ih =>
    unfold sealPages
    split
    · exact h
    · exact ih h
    · split
      · trivial
      · exact ih h.setLeaf.dropTlb

protected theorem Canonical.execTenantStartSupervisor {tn blk tag s} (h : Canonical s) :
    Keeps (execTenantStartSupervisor tn blk tag s) := by
  unfold execTenantStartSupervisor
  refine h.hostMsg fun s h => ?_
  extract_lets
  split
  · exact h.ackHost
  split
  · exact h
  · rename_i e
    exact (e.subst h.sealPages).ackHost
  · rename_i e
    split
    · exact (e.subst h.sealPages).ackHost
    extract_lets
    split
    · exact e.subst h.sealPages
    · exact (e.subst h.sealPages).chooseCluster.placeInDram.ackHost

protected theorem Canonical.execHostHalt {tn tag s} (h : Canonical s) : Keeps (execHostHalt tn tag s) := by
  unfold execHostHalt
  refine h.hostMsg fun s h => ?_
  split
  · exact h.setHalt.ackHost
  · exact h.ackHost

protected theorem Canonical.execHostHaltResume {tn tag s} (h : Canonical s) :
    Keeps (execHostHaltResume tn tag s) := by
  unfold execHostHaltResume
  refine h.hostMsg fun s h => ?_
  split
  · exact h.setHalt.ackHost
  · exact h.ackHost

protected theorem Canonical.execLineResume {tn addr tag s} (h : Canonical s) :
    Keeps (execLineResume tn addr tag s) := by
  unfold execLineResume
  refine h.hostMsg fun s h => ?_
  split
  · exact h.ackHost
  split
  · exact h.ackHost
  split
  · exact h
  refine Canonical.ackHost ?_
  split
  · exact h.editLine.enterReady
  · exact h.editLine

protected theorem Canonical.execLineKill {tn addr tag s} (h : Canonical s) : Keeps (execLineKill tn addr tag s) := by
  unfold execLineKill
  refine h.hostMsg fun s h => ?_
  split
  · exact h.ackHost
  split
  · exact h.killLine.ackHost
  · exact h.ackHost

protected theorem Canonical.execService {tn n g1 g2 g3 tag s} (h : Canonical s) :
    Keeps (execService tn n g1 g2 g3 tag s) := by
  unfold execService
  refine h.hostMsg fun s h => ?_
  split
  · split
    · rename_i e
      exact Canonical.ackHost ((e.subst h.service).frame rfl rfl)
    · rename_i e
      exact e.subst h.service
  · exact h.ackHost

protected theorem Canonical.execGangmap {tn job gm tag s} (h : Canonical s) :
    Keeps (execGangmap tn job gm tag s) := by
  unfold execGangmap
  refine h.hostMsg fun s h => ?_
  split
  · exact Canonical.ackHost (h.frame rfl rfl)
  · exact h.ackHost

protected theorem Canonical.execFeaturesRead {tag s} (h : Canonical s) : Keeps (execFeaturesRead tag s) :=
  h.hostMsg fun _ h => h.toHost

protected theorem Canonical.execFeaturesAccept {set tag s} (h : Canonical s) :
    Keeps (execFeaturesAccept set tag s) := by
  unfold execFeaturesAccept
  refine h.hostMsg fun s h => ?_
  split
  · exact h.ackHost
  · exact Canonical.ackHost (h.frame rfl rfl)

protected theorem Canonical.execBind {src keyDigest sigOk tag s} (h : Canonical s) :
    Keeps (execBind src keyDigest sigOk tag s) := by
  unfold execBind
  split
  · exact h.ackHost
  · exact Canonical.ackHost (h.frame rfl rfl)

protected theorem Canonical.execAttest {nonce tag s} (h : Canonical s) : Keeps (execAttest nonce tag s) :=
  h.hostMsg fun _ h => h.toHost

protected theorem Canonical.execDiemapRead {die tag s} (h : Canonical s) : Keeps (execDiemapRead die tag s) := by
  unfold execDiemapRead
  refine h.hostMsg fun s h => ?_
  split
  · exact h.toHost
  · exact h.ackHost

/-! ### The scheduler -/

protected theorem Canonical.noticeRefused {s may l} (h : Canonical s) :
    Canonical (noticeRefused s may l) := h.foldl fun _ _ h => h.poolRefused

protected theorem Canonical.noticePool {s core} (h : Canonical s) : Canonical (noticePool s core) := h.noticeRefused

protected theorem Canonical.execCl1Eviction {core s} (h : Canonical s) : Keeps (execCl1Eviction core s) := by
  unfold execCl1Eviction
  extract_lets
  split
  · exact h
  split
  · exact h.putLine
  · exact h

protected theorem Canonical.writeBack {s s' x} (h : Canonical s) (e : writeBack s x = some s') : Canonical s' := by
  unfold writeBack at e
  obtain ⟨s1, e1, rfl⟩ := Option.map_eq_some_iff.mp e
  have h1 := h.intoImage e1
  split
  · exact h1.enterReady
  · exact h1

protected theorem Canonical.bumpHead {s cl a p} (h : Canonical s) : Canonical (bumpHead s cl a p) := by
  unfold bumpHead
  extract_lets
  split <;> exact h.setCluster

protected theorem Canonical.countEviction {s cl} (h : Canonical s) : Canonical (countEviction s cl) := h.bumpHead

protected theorem Canonical.evictTo {s cl x} (h : Canonical s) : Canonical (evictTo s cl x) := by
  unfold evictTo
  split
  · exact h
  split
  · rename_i e
    exact (h.writeBack e).countEviction
  · exact h.startSwapIn

protected theorem Canonical.promoteTo {s s' x core} (h : Canonical s) (e : promoteTo s x core = some s') :
    Canonical s' := by
  unfold promoteTo at e
  extract_lets s1 at e
  have h1 : Canonical s1 := h.putLine
  split at e
  · obtain rfl := Option.some.inj e
    exact h1
  · obtain ⟨y, -, rfl⟩ := Option.map_eq_some_iff.mp e
    exact h1.putLine

protected theorem Canonical.promoteAll {s cl} (h : Canonical s) : Canonical (promoteAll s cl) :=
  h.foldl fun s x h => h.getD fun s' e => by
    obtain ⟨i, -, hi⟩ := List.exists_of_findSome?_eq_some e
    exact h.choose.promoteTo hi

protected theorem Canonical.execCl2Promotion {cl core s} (h : Canonical s) : Keeps (execCl2Promotion cl core s) := by
  unfold execCl2Promotion
  split
  · exact h
  split
  · exact h
  · exact h.getD fun _ e => h.promoteTo e

protected theorem Canonical.parkCorrupt {s x} (h : Canonical s) : Canonical (parkCorrupt s x) := h.editLine.report

protected theorem Canonical.grantFill {s cl src x} (h : Canonical s) : Canonical (grantFill s cl src x) := by
  unfold grantFill
  split
  · exact h
  split
  · exact h.startSwapIn
  extract_lets
  split
  · exact h.leaveReady.setCluster.parkCorrupt
  split
  · exact h.leaveReady.setCluster
  · exact h.leaveReady.setCluster.putLine

protected theorem Canonical.execReadyListFill {cl src s} (h : Canonical s) : Keeps (execReadyListFill cl src s) := by
  unfold execReadyListFill
  split
  · exact h
  split
  · exact h
  · exact h.grantFill

protected theorem Canonical.fillHead {s cl} (h : Canonical s) : Canonical (fillHead s cl) := by
  unfold fillHead
  split
  · exact h
  split
  · exact h
  extract_lets s1
  have h1 : Canonical s1 := by
    unfold s1
    split
    · exact h
    · split
      · exact h.evictTo
      · exact h
  split
  · exact h1.grantFill
  · exact h1

protected theorem Canonical.execReadyListForcedFill {cl s} (h : Canonical s) :
    Keeps (execReadyListForcedFill cl s) := by
  unfold execReadyListForcedFill
  split
  · exact h
  · exact h.fillHead

protected theorem Canonical.execCl2Eviction {cl s} (h : Canonical s) : Keeps (execCl2Eviction cl s) := by
  unfold execCl2Eviction
  split
  · exact h.fillHead
  split
  · exact h
  · exact h.evictTo

protected theorem Canonical.execFillRequest {cl tn addr s} (h : Canonical s) :
    Keeps (execFillRequest cl tn addr s) := by
  unfold execFillRequest
  split
  · exact h
  split
  · exact h
  split
  · exact h.grantFill
  · exact h

protected theorem Canonical.passOver {s core t a} (h : Canonical s) :
    Canonical (passOver s core t a) := h.mapLines.mapLines.bumpHead

protected theorem Canonical.endYield {s core slot} (h : Canonical s) : Canonical (endYield s core slot) := by
  unfold endYield
  split
  · exact h
  extract_lets
  split
  · exact h.editLine
  · exact h.putLine.sendMsg

protected theorem Canonical.afterFill {s core slot} (h : Canonical s) : Canonical (afterFill s core slot) := by
  unfold afterFill
  split
  · extract_lets
    split
    · exact h.endYield.passOver.promoteAll.fillHead
    · exact h.endYield.passOver.promoteAll
  · exact h

protected theorem Canonical.execSlotFill {core slot s} (h : Canonical s) : Keeps (execSlotFill core slot s) := by
  unfold execSlotFill
  split
  · exact h
  extract_lets
  split
  · exact h.noticePool
  · split
    · exact h.noticePool.putLine.afterFill
    · exact h.noticePool
  · split
    · split
      · rename_i e
        exact (h.noticePool.setCore.startRecord e).afterFill
      · exact h.noticePool
    · exact h.noticePool

protected theorem Canonical.execSteal {thief slot victim s} (h : Canonical s) :
    Keeps (execSteal thief slot victim s) := by
  unfold execSteal
  split
  · exact h
  extract_lets
  split
  · exact h.noticeRefused
  split
  · rename_i e
    exact (h.noticeRefused.setCore.startRecord e).afterFill
  · exact h.noticeRefused

protected theorem Canonical.execQuantumExpiry {core slot s} (h : Canonical s) :
    Keeps (execQuantumExpiry core slot s) := by
  unfold execQuantumExpiry
  split
  · exact h
  split
  · exact h.putLine
  · exact h

protected theorem Canonical.execMigrationArrival {tn addr core s} (h : Canonical s) :
    Keeps (execMigrationArrival tn addr core s) := by
  unfold execMigrationArrival
  split
  · exact h
  split
  · split
    · exact h
    split
    · exact h.putLine
    split
    · exact h.dropPkt.putLine
    · exact h
  split
  · exact h
  split
  · exact h.dropPkt.putLine
  · exact h

protected theorem Canonical.setPending_ {s n p} (h : Canonical s) : Canonical (setPending_ s n p) := h.frame rfl rfl

protected theorem Canonical.readLate {s n p} (h : Canonical s) : Canonical (readLate s n p) := by
  unfold readLate
  split
  · exact h.startSwapIn
  · exact h.setPending_.report
  · split
    · exact h.writeRecord.setPending_
    · exact h.setPending_.report

protected theorem Canonical.claimForHandler {s x l hd} (h : Canonical s) : Canonical (claimForHandler s x l hd) :=
  h.leaveReady.getD fun _ e => h.leaveReady.intoImage e

protected theorem Canonical.execHandlerCreation {n s} (h : Canonical s) : Keeps (execHandlerCreation n s) := by
  unfold execHandlerCreation
  split
  · exact h
  split
  · exact h.readLate
  split
  · exact h.setPending_
  split
  · exact h.startSwapIn
  split
  · exact h.setPending_
  split
  · exact h
  split
  · exact h.startSwapIn
  split
  · exact h.poolRefused
  rename_i e
  split
  · exact h
  · exact (h.poolTake e).setPending_.claimForHandler.putLine

protected theorem Canonical.execTableWalk {core tn addr s} (h : Canonical s) :
    Keeps (execTableWalk core tn addr s) := by
  unfold execTableWalk
  extract_lets
  split
  · exact h
  split
  · exact h
  split
  · exact h
  · exact h.setCore.setCluster

protected theorem Canonical.dropInUnit {s i unit} (h : Canonical s) : Canonical (dropInUnit s i unit) := by
  unfold dropInUnit
  split
  · exact h.setCore
  split
  · exact h.setCluster
  · exact h

protected theorem Canonical.execInvalidationMarker {inv unit s} (h : Canonical s) :
    Keeps (execInvalidationMarker inv unit s) := by
  unfold execInvalidationMarker
  split
  · exact h
  split
  · exact h
  · exact h.dropInUnit.frame rfl rfl

/-! ### Flows and gangs -/

protected theorem Canonical.newFlow {s id} (h : Canonical s) : Canonical (newFlow s id).2 := by
  unfold newFlow
  split
  · exact h
  · exact h.choose

protected theorem Canonical.theFlow {s id} (h : Canonical s) : Canonical (theFlow s id).2 := by
  unfold theFlow
  split
  · exact h
  · exact h.newFlow

protected theorem Canonical.putFlow {s f} (h : Canonical s) : Canonical (putFlow s f) := by
  unfold putFlow
  split <;> exact h.frame rfl rfl

protected theorem Canonical.onPort {s port dst f} (h : Canonical s) : Canonical (onPort s port dst f) :=
  h.frame rfl rfl

protected theorem Canonical.sendFrame {s ty id pkts} (h : Canonical s) : Canonical (sendFrame s ty id pkts) := by
  unfold sendFrame
  extract_lets
  split
  · exact h.theFlow
  · exact h.theFlow.putFlow.onPort.putFlow

protected theorem Canonical.sendBare {s ty id seq reason dst} (h : Canonical s) :
    Canonical (sendBare s ty id seq reason dst) := h.theFlow.putFlow.onPort

protected theorem Canonical.lineNote {t j dst addr op s} (h : Canonical s) :
    Canonical (lineNote t j dst addr op s) := h.sendFrame

protected theorem Canonical.takeNote {s t addr src op} (h : Canonical s) : Canonical (takeNote s t addr src op) := by
  unfold takeNote
  split
  · split
    · split
      · exact h.putLine
      · exact h
    · exact h
  · exact h

protected theorem Canonical.sendControl {s t j resume} (h : Canonical s) :
    Canonical (sendControl s t j resume) := h.foldl fun _ _ h => h.sendFrame

protected theorem Canonical.sendMarkers {s t j} (h : Canonical s) :
    Canonical (sendMarkers s t j) := h.foldl fun _ _ h => h.foldl fun _ _ h => h.sendFrame

protected theorem Canonical.putSwitch {s w} (h : Canonical s) : Canonical (putSwitch s w) := h.frame rfl rfl

protected theorem Canonical.parkRunning {t j s eng} (h : Canonical s) :
    Canonical (parkRunning t j s eng) := h.foldl fun _ _ h => h.parkCmd

protected theorem Canonical.parkCurrent {t j s x} (h : Canonical s) : Canonical (parkCurrent t j s x) := by
  unfold parkCurrent
  split
  · split
    · exact h.parkOnChannel
    · exact h
  · exact h

protected theorem Canonical.freeze {s t j} (h : Canonical s) :
    Canonical (freeze s t j) := ((h.foldl fun _ _ h => h.parkRunning).foldl fun _ _ h => h.parkCurrent).sendControl

protected theorem Canonical.startSwitch {s t j} (h : Canonical s) : (startSwitch s t j).Keeps := by
  unfold startSwitch
  split
  · trivial
  split
  · trivial
  · exact Canonical.freeze (h.frame rfl rfl)

protected theorem Canonical.beginResume {s w} (h : Canonical s) : Canonical (beginResume s w) := by
  unfold beginResume
  split
  · exact h.killJob
  · exact h.putSwitch.sendControl

protected theorem Canonical.startResume {s t j} (h : Canonical s) : (startResume s t j).Keeps := by
  unfold startResume
  split
  · trivial
  split
  · trivial
  split
  · exact h.beginResume
  · trivial

protected theorem Canonical.execGsw {g d a b s} (h : Canonical s) : Keeps (execGsw g d a b s) := by
  unfold execGsw
  refine h.issueWord fun c => ?_
  split
  · trivial
  extract_lets x t j line answer
  have ha {r : Start} (hr : r.Keeps) : (answer r).Keeps := by
    cases r with
    | started s' => exact hr
    | refused => exact h
    | wait => exact h
  split
  · trivial
  split
  · exact ha h.startSwitch
  · exact ha h.startResume
  · trivial

protected theorem Canonical.execGswitch {tn job tag s} (h : Canonical s) : Keeps (execGswitch tn job tag s) := by
  unfold execGswitch
  refine h.hostMsg fun s h => ?_
  split
  · exact h.ackHost
  split
  · rename_i e
    exact (e.subst h.startSwitch).ackHost
  · exact h.ackHost
  · exact h

protected theorem Canonical.execGresume {tn job gm tag s} (h : Canonical s) :
    Keeps (execGresume tn job gm tag s) := by
  unfold execGresume
  refine h.hostMsg fun s h => ?_
  split
  · exact h.ackHost
  split
  · exact h.ackHost
  · refine Canonical.ackHost (.beginResume ?_)
    cases gm with
    | none => exact h
    | some g => exact h.frame rfl rfl

protected theorem Canonical.takeControl {s t j resume} (h : Canonical s) : Canonical (takeControl s t j resume) := by
  unfold takeControl
  split
  · split
    · exact h
    split
    · exact h.beginResume
    split
    · exact h
    · exact h.putSwitch
  split
  · rename_i e
    exact e.subst h.startSwitch
  · exact h
  · exact h.frame rfl rfl

protected theorem Canonical.execSwitchControl {tn job src resume s} (h : Canonical s) :
    Keeps (execSwitchControl tn job src resume s) := by
  unfold execSwitchControl
  split
  · exact h.takeControl
  · exact h

protected theorem Canonical.takeMarker {s t j src cls} (h : Canonical s) : Canonical (takeMarker s t j src cls) := by
  unfold takeMarker
  extract_lets s1
  have h1 : Canonical s1 := by
    unfold s1
    split
    · exact h
    · exact h.takeControl
  split
  · split
    · exact h1
    · exact h1.putSwitch
  · exact h1

protected theorem Canonical.execMeridianMarker {tn job src cls s} (h : Canonical s) :
    Keeps (execMeridianMarker tn job src cls s) := by
  unfold execMeridianMarker
  split
  · exact h.takeMarker
  · exact h

protected theorem Canonical.egressPort {s p} (h : Canonical s) : Canonical (egressPort s p).2 := h.theFlow.putFlow

protected theorem Canonical.bufferOf {s p} (h : Canonical s) : Canonical (bufferOf s p).2 := by
  unfold bufferOf
  refine .choose ?_
  split
  · exact h.choose.choose
  · exact h.choose.choose
  · split
    · exact h.choose.egressPort
    · exact h.choose

protected theorem Canonical.bufferAll {s l} (h : Canonical s) : Canonical (bufferAll s l).2 :=
  foldl_canonical_snd h fun _ _ h => h.bufferOf

protected theorem Canonical.notePkts {s l op} (h : Canonical s) : Canonical (notePkts s l op) := by
  unfold notePkts
  refine h.foldl fun s a h => ?_
  split
  · exact h.lineNote
  · exact h

protected theorem Canonical.noteLines {s t j op} (h : Canonical s) : Canonical (noteLines s t j op) := by
  unfold noteLines
  refine h.foldl fun s a h => ?_
  split
  · exact h.lineNote
  · exact h

protected theorem Canonical.sweep {s w} (h : Canonical s) : Canonical (sweep s w) := by
  unfold sweep
  extract_lets mine b s1 s2
  have h1 : Canonical s1 := h.bufferAll.putSwitch.notePkts
  exact .mapLines (h1.frame rfl rfl)

protected theorem Canonical.clearWindow {s e} (h : Canonical s) : Canonical (clearWindow s e) := by
  unfold clearWindow
  refine .setSlice (h.foldl fun s a h => ?_)
  extract_lets
  split
  · exact h
  · exact h.setTicket

protected theorem Canonical.saveTickets {s w} (h : Canonical s) :
    Canonical (saveTickets s w) := h.putSwitch.foldl fun _ _ h => h.clearWindow

protected theorem Canonical.withdraw {n s c} (h : Canonical s) : Canonical (withdraw n s c) := h.leaveEngine.modJob

protected theorem Canonical.saveEngine {t j r n} (h : Canonical r.1) : Canonical (saveEngine t j r n).1 :=
  h.foldl fun _ _ h => h.withdraw

protected theorem Canonical.saveChannel {t j r x} (h : Canonical r.1) : Canonical (saveChannel t j r x).1 :=
  h.setChan.foldl fun _ _ h => h.withdraw

protected theorem Canonical.savePlanes {t j r cl} (h : Canonical r.1) : Canonical (savePlanes t j r cl).1 :=
  h.setCluster

protected theorem Canonical.saveEngines {s w} (h : Canonical s) : Canonical (saveEngines s w) := by
  unfold saveEngines
  extract_lets a b p p1 s1
  have ha : Canonical a.1 := foldl_canonical_fst h fun _ _ h => h.saveChannel
  have hb : Canonical b.1 := foldl_canonical_fst ha fun _ _ h => h.saveEngine
  have hp : Canonical p.1 := foldl_canonical_fst hb fun _ _ h => h.savePlanes
  have h1 : Canonical s1 := hp.frame rfl rfl
  exact h1.putSwitch

protected theorem Canonical.reachSaved {s w} (h : Canonical s) : Canonical (reachSaved s w) := by
  unfold reachSaved
  extract_lets
  split
  · exact h.putSwitch.toHost.beginResume
  · exact h.putSwitch.toHost

protected theorem Canonical.nextPhase {s w} (h : Canonical s) : Canonical (nextPhase s w) := by
  unfold nextPhase
  split
  · split
    · exact h
    · exact h.putSwitch.freeze
  · split
    · exact h.putSwitch
    · exact h
  · split
    · exact h
    · exact h.sendMarkers.putSwitch
  · split
    · exact h.sweep
    · exact h
  · split
    · exact h.saveTickets
    · exact h
  · exact h.saveEngines
  · extract_lets s1
    have h1 : Canonical s1 := by
      unfold s1
      split
      · exact h.noteLines
      · exact h
    split
    · exact h1.reachSaved
    · exact h1
  · split
    · exact h.beginResume
    · exact h
  · exact h

protected theorem Canonical.execSwitchPhaseCompletion {tn job s} (h : Canonical s) :
    Keeps (execSwitchPhaseCompletion tn job s) := by
  unfold execSwitchPhaseCompletion
  split
  · exact h
  split
  · exact h
  · exact h.nextPhase

protected theorem Canonical.reopenWindow {t j s s' e} (h : Canonical s) (he : reopenWindow t j s e = some s') :
    Canonical s' := by
  obtain ⟨b, -, rfl⟩ := Option.map_eq_some_iff.mp he
  exact h.setSlice

protected theorem Canonical.reopenAll {t j l s s'} (h : Canonical s) (he : reopenAll t j l s = some s') :
    Canonical s' := by
  induction l generalizing s with
  | nil =>
    obtain rfl := Option.some.inj he
    exact h
  | cons e l ih =>
    obtain ⟨s1, h1, h2⟩ := Option.bind_eq_some_iff.mp he
    exact ih (h.reopenWindow h1) h2

protected theorem Canonical.reinstall {t j s r} (h : Canonical s) : Canonical (reinstall t j s r) := by
  unfold reinstall
  split
  · exact h.setTicket
  · exact h

protected theorem Canonical.restorePlane {t j s p} (h : Canonical s) :
    Canonical (restorePlane t j s p) := h.freshId.setEngine

protected theorem Canonical.restoreCmd {s c} (h : Canonical s) : Canonical (restoreCmd s c) := by
  unfold restoreCmd
  extract_lets s1
  have h1 : Canonical s1 := h.modJob
  split
  · exact h1.setEngine
  · exact h1.setEngine
  · exact h1.setEngine
  · exact h1.setChan

protected theorem Canonical.restorePhase {s w} (h : Canonical s) : Canonical (restorePhase s w) := by
  unfold restorePhase
  split
  · exact h
  · rename_i s1 e
    extract_lets s2 s3 s4
    have h2 : Canonical s2 := (h.reopenAll e).foldl fun _ _ h => h.reinstall
    have h3 : Canonical s3 := h2.foldl fun _ _ h => h.restorePlane
    have h4 : Canonical s4 := h3.foldl fun _ _ h => h.restoreCmd
    exact .putSwitch (h4.frame rfl rfl)

protected theorem Canonical.renumber {s l} (h : Canonical s) : Canonical (renumber s l).2 :=
  foldl_canonical_snd h fun _ _ h => h.frame rfl rfl

protected theorem Canonical.reinject {s w} (h : Canonical s) : Canonical (reinject s w) := by
  unfold reinject
  extract_lets b b2 s1 s2 s3
  have h1 : Canonical s1 := h.renumber.frame rfl rfl
  exact h1.notePkts.noteLines.putSwitch.mapLines

protected theorem Canonical.reopenJob {s w} (h : Canonical s) : Canonical (reopenJob s w) := .toHost (h.frame rfl rfl)

protected theorem Canonical.execResumePhaseCompletion {tn job s} (h : Canonical s) :
    Keeps (execResumePhaseCompletion tn job s) := by
  unfold execResumePhaseCompletion
  split
  · exact h
  split
  · exact h
  split
  · exact h.restorePhase
  · exact h.reinject
  · exact h.reopenJob

/-! ### Frames of the fabric -/

protected theorem Canonical.takeLate {s p} (h : Canonical s) : Canonical (takeLate s p) := by
  unfold takeLate
  split
  · exact h
  · exact h.putSwitch.report

protected theorem Canonical.takeAck {s id ack} (h : Canonical s) : Canonical (takeAck s id ack) := by
  unfold takeAck
  split
  · exact h.putFlow
  · exact h

protected theorem Canonical.sendAck {s f} (h : Canonical s) : Canonical (sendAck s f) := h.sendBare

protected theorem Canonical.sendNack {s f seq} (h : Canonical s) : Canonical (sendNack s f seq) := h.sendBare

protected theorem Canonical.sendDeviceNack {s f reason} (h : Canonical s) :
    Canonical (sendDeviceNack s f reason) := h.sendBare

protected theorem Canonical.takePkt {port f s r} (h : Canonical s) : Canonical (takePkt port f s r) := by
  unfold takePkt
  split
  · exact h.sendDeviceNack
  split
  · exact h.sendDeviceNack
  split
  · exact .sendDeviceNack (.takeLate (h.frame rfl rfl))
  · exact h.sendPkt

protected theorem Canonical.takeHost {f s r} (h : Canonical s) : Canonical (takeHost f s r) := by
  unfold takeHost
  split
  · exact h.queueMsg
  · exact h.ackHost

protected theorem Canonical.deliverFrame {s port f} (h : Canonical s) : Canonical (deliverFrame s port f) := by
  unfold deliverFrame
  split
  · refine h.foldl fun s r h => ?_
    split
    · exact h.takeHost
    · exact h.takePkt
  · exact h.takeMarker
  · refine h.foldl fun s r h => ?_
    split
    · exact h.takeNote
    · exact h.takeControl

protected theorem Canonical.ingressFull {s cls} (h : Canonical s) : Canonical (ingressFull s cls).2 := by
  unfold ingressFull
  split
  · exact h.choose
  · exact h

protected theorem Canonical.takeSequenced {s port f} (h : Canonical s) : Canonical (takeSequenced s port f) := by
  unfold takeSequenced
  extract_lets r full s1 f1 s2
  have h1 : Canonical s1 := h.theFlow.putFlow.ingressFull
  split
  · exact h1
  split
  · exact h1.sendAck
  split
  · exact h1.sendNack
  split
  · exact h1.sendNack
  have h2 : Canonical s2 := h1.putFlow.takeAck
  split
  · exact h2.deliverFrame.sendAck
  · exact h2.sendDeviceNack

protected theorem Canonical.sendOut {s port p} (h : Canonical s) : Canonical (sendOut s port p) := by
  unfold sendOut
  extract_lets id s1 s2
  have h1 : Canonical s1 := h.dropPkt
  split
  · exact h1
  refine Canonical.sendFrame ?_
  unfold s2
  split
  · exact h1
  · exact h1.putFlow

protected theorem Canonical.sendHost {s} (h : Canonical s) : Canonical (sendHost s) := by
  unfold sendHost
  split
  · exact .sendFrame (h.frame rfl rfl)
  · exact h.sendBare

protected theorem Canonical.execHeartbeatSend {port s} (h : Canonical s) : Keeps (execHeartbeatSend port s) := by
  unfold execHeartbeatSend
  split
  · exact h.sendHost
  split
  · exact h
  split
  · exact h.sendOut
  split
  · exact h.sendBare
  · exact h.frame rfl rfl

protected theorem Canonical.resend {s id u} (h : Canonical s) : Canonical (resend s id u) := by
  unfold resend
  split
  · exact h
  split
  · exact h
  extract_lets
  split
  · exact h.onPort
  · exact h.onPort.putFlow

protected theorem Canonical.execRetransmission {flow s} (h : Canonical s) : Keeps (execRetransmission flow s) := by
  unfold execRetransmission
  split
  · exact h
  split
  · exact h
  · exact h.resend

protected theorem Canonical.execFabricAck {flow ackSeq s} (h : Canonical s) :
    Keeps (execFabricAck flow ackSeq s) := h.takeAck

protected theorem Canonical.execHeartbeat {flow ackSeq s} (h : Canonical s) :
    Keeps (execHeartbeat flow ackSeq s) := h.takeAck

protected theorem Canonical.resendFrom {s flow seq} (h : Canonical s) : Canonical (resendFrom s flow seq) := by
  unfold resendFrom
  split
  · exact h
  split
  · exact h
  · exact h.foldl fun _ _ h => h.resend

protected theorem Canonical.execTransportNack {flow seq s} (h : Canonical s) :
    Keeps (execTransportNack flow seq s) := h.resendFrom

protected theorem Canonical.nackJob {t s j} (h : Canonical s) :
    Canonical (nackJob t s j) := h.freeValue.freeValue.report.killJob

protected theorem Canonical.takeDeviceNack {s flow reason acked} (h : Canonical s) :
    Canonical (takeDeviceNack s flow reason acked) := by
  unfold takeDeviceNack
  split
  · split
    · exact h
    · exact h.foldl fun _ _ h => h.nackJob
  · exact h

protected theorem Canonical.execDeviceNack {flow reason s} (h : Canonical s) :
    Keeps (execDeviceNack flow reason s) := h.takeDeviceNack

protected theorem Canonical.failFlowOf {flow s j} (h : Canonical s) : Canonical (failFlowOf flow s j) :=
  h.theFlow.putFlow

protected theorem Canonical.discardTo {t m s j} (h : Canonical s) : Canonical (discardTo t m s j) := h.frame rfl rfl

protected theorem Canonical.execFlowFailure {flow s} (h : Canonical s) : Keeps (execFlowFailure flow s) := by
  unfold execFlowFailure
  split
  · exact h
  extract_lets sending given c a d jobs s1 s2
  split
  · exact h
  have hd : Canonical d.2 := h.putFlow.freeValue.freeValue.freeValue
  have h1 : Canonical s1 := (hd.foldl fun _ _ h => h.killJob).foldl fun _ _ h => h.discardTo
  refine Canonical.toHost ?_
  unfold s2
  split
  · split
    · exact h1.foldl fun _ _ h => h.failFlowOf
    · exact h1
  · exact hd

protected theorem Canonical.takeFrame_ {s port f} (h : Canonical s) : Canonical (takeFrame_ s port f) := by
  unfold takeFrame_
  extract_lets
  split
  · exact h.takeAck
  · exact h.takeAck.resendFrom
  · exact h.takeDeviceNack.takeAck
  · exact h.takeAck
  · exact h.takeSequenced

protected theorem Canonical.execFabricDataFrame {f s} (h : Canonical s) : Keeps (execFabricDataFrame f s) := by
  unfold execFabricDataFrame
  generalize (if f.port = hostPort then 0 else portDie f.port) = die
  split
  · exact h
  split
  · exact h
  · exact h.frame rfl rfl
  · split
    · exact h
    · exact h.takeFrame_

/-! ### Transit records -/

protected theorem Canonical.latchEnd {t kind block via r link} (h : Canonical r.2) :
    Canonical (latchEnd t kind block via r link).2 := by
  unfold latchEnd
  extract_lets
  split
  · exact h
  · exact h.choose

protected theorem Canonical.latchBlock {s t kind block via} (h : Canonical s) :
    Canonical (latchBlock s t kind block via) := by
  unfold latchBlock
  extract_lets r flows
  have hr : Canonical r.2 := foldl_canonical_snd h fun _ _ h => h.latchEnd
  exact hr.frame rfl rfl

protected theorem Canonical.execTransit {g a s} (h : Canonical s) : Keeps (execTransit g a s) := by
  unfold execTransit
  refine h.issueWord fun c => ?_
  split
  · trivial
  extract_lets
  split
  · trivial
  split
  · split <;> exact h
  · exact h.latchBlock

protected theorem Canonical.endTransit {s t} (h : Canonical s) : Canonical (endTransit s t) := by
  unfold endTransit
  split
  · exact .foldl (h.frame rfl rfl) (fun _ _ h => h.toHost)
  · exact h

protected theorem Canonical.execTransitMarker {bkind block link s} (h : Canonical s) :
    Keeps (execTransitMarker bkind block link s) := by
  unfold execTransitMarker
  split
  · exact h
  extract_lets p t1 s1
  split
  · exact h
  have h1 : Canonical s1 := by
    unfold s1
    split
    · exact h.frame rfl rfl
    · exact h.latchBlock
  split
  · exact h1.endTransit
  · exact h1

/-! ### The die map -/

protected theorem Canonical.mapFresh {s v q} (h : Canonical s) : Canonical (mapFresh s v q) := by
  unfold mapFresh
  extract_lets m1 m2 m3 s1
  have hm (hm : memWf s.memory = true) : memWf m3 = true :=
    memWf_memScrub _ _ _ (memWf_memScrub _ _ _ (memWf_memScrub _ _ _ hm))
  have h1 : Canonical s1 := h.write hm rfl
  exact h1.setDie

protected theorem Canonical.parkEngine {s n} (h : Canonical s) : Canonical (parkEngine s n) := by
  unfold parkEngine
  split
  · exact h
  · exact h.foldl fun _ _ h => h.parkCmd

protected theorem Canonical.parkChannel {s x} (h : Canonical s) : Canonical (parkChannel s x) := by
  unfold parkChannel
  split
  · split
    · exact h.parkOnChannel
    · exact h
  · exact h

protected theorem Canonical.unparkChannel {s x} (h : Canonical s) : Canonical (unparkChannel s x) := by
  unfold unparkChannel
  split
  · split
    · exact h.unparkOnChannel
    · exact h
  · exact h

protected theorem Canonical.beginRemap {s v q} (h : Canonical s) :
    Canonical (beginRemap s v q) :=
  .foldl (.foldl (.setDie (h.frame rfl rfl)) (fun _ _ h => h.parkEngine)) (fun _ _ h => h.parkChannel)

protected theorem Canonical.endRemap {s v} (h : Canonical s) :
    Canonical (endRemap s v) :=
  .foldl (.foldl (.setDie (h.frame rfl rfl)) (fun _ _ h => h.unparkChannel)) (fun _ _ h => h.flushAll.flushQueues)

protected theorem Canonical.execDiemapRemap {die phys tag s} (h : Canonical s) :
    Keeps (execDiemapRemap die phys tag s) := by
  unfold execDiemapRemap
  refine h.hostMsg fun s h => ?_
  extract_lets
  split
  · exact h.ackHost
  split
  · exact h.beginRemap.ackHost
  split
  · exact h.mapFresh.ackHost
  · exact h.ackHost

protected theorem Canonical.execDiemapOffline {die tag s} (h : Canonical s) :
    Keeps (execDiemapOffline die tag s) := by
  unfold execDiemapOffline
  refine h.hostMsg fun s h => ?_
  extract_lets
  split
  · exact h.setDie.ackHost
  · exact h.ackHost

protected theorem Canonical.switchDie {s r} (h : Canonical s) : Canonical (switchDie s r) := by
  unfold switchDie
  extract_lets p q slice s1 d i
  have h1 : Canonical s1 := h.write (memWf_memMove _ _ _ _) rfl
  have hi : Canonical i.2 := h1.setDie.beginInval
  exact hi.frame rfl rfl

protected theorem Canonical.execRemapPhaseCompletion {s} (h : Canonical s) : Keeps (execRemapPhaseCompletion s) := by
  unfold execRemapPhaseCompletion
  split
  · exact h
  split
  · split
    · exact h.frame rfl rfl
    · exact h
  · split
    · exact h.frame rfl rfl
    · exact h
  · exact h.frame rfl rfl
  · exact h.switchDie
  · split
    · exact h.endRemap
    · exact h

protected theorem Canonical.execRemapAbandoned {s} (h : Canonical s) : Keeps (execRemapAbandoned s) := by
  unfold execRemapAbandoned
  split
  · exact h
  split
  · exact Canonical.endRemap (h.frame rfl rfl)
  · exact h

protected theorem Canonical.execPacketReroute {id s} (h : Canonical s) : Keeps (execPacketReroute id s) := by
  unfold execPacketReroute
  split
  · exact h
  split
  · split
    · exact h
    · exact h.frame rfl rfl
  · exact h.startSwapIn

protected theorem Canonical.loseCmd {s eng c} (h : Canonical s) : Canonical (loseCmd s eng c) := by
  unfold loseCmd
  dsimp only
  split
  · exact h.failQuiet.undoSwapOut
  · exact h.failQuiet

protected theorem Canonical.loseSaved {s v} (h : Canonical s) :
    Canonical (loseSaved s v) := (h.foldl fun _ _ h => h.failQuiet.modJob).frame rfl rfl

protected theorem Canonical.loseJob {v s j} (h : Canonical s) : Canonical (loseJob v s j) := h.killJob.report

protected theorem Canonical.wakeWatchers {s v} (h : Canonical s) :
    Canonical (wakeWatchers s v) := .foldl (h.frame rfl rfl) (fun _ _ h => h.sendPkt)

protected theorem Canonical.loseQueues {v s t} (h : Canonical s) : Canonical (loseQueues v s t) := by
  refine h.foldl fun s q h => .loseQueue ?_
  split
  · exact h
  · exact h.startSwapIn

protected theorem Canonical.loseMove {v t s e} (h : Canonical s) : Canonical (loseMove v t s e) := by
  unfold loseMove
  extract_lets level va s1 move
  split
  · split
    · exact h
    split
    · refine .undoSwapOut ?_
      unfold s1
      split
      · exact h.failCmd
      · exact h
    · exact h.modTenant
  · exact h

protected theorem Canonical.dropRemap {s v} (h : Canonical s) : Canonical (dropRemap s v) := by
  unfold dropRemap
  split
  · split
    · exact h.frame rfl rfl
    · exact h
  · exact h

protected theorem Canonical.loseFrames {s v} (h : Canonical s) : Canonical (loseFrames s v) := h.frame rfl rfl

protected theorem Canonical.loseDie {s v} (h : Canonical s) : Canonical (loseDie s v) := by
  unfold loseDie
  extract_lets jobs held d s1 s2 s3 s4 s5 s6 s7 s8 s9 t
  have h1 : Canonical s1 := .dropRemap (.setDie (h.frame rfl rfl))
  have h3 : Canonical s3 := (h1.endCmds fun _ _ _ h => h.loseCmd).loseSaved
  have h5 : Canonical s5 := Canonical.loseFrames (h3.foldl fun _ _ h => h.foldl fun _ _ h => h.loseMove)
  have h7 : Canonical s7 := Canonical.wakeWatchers (.sendWakes (h5.foldl fun _ _ h => h.loseJob))
  have h8 : Canonical s8 := h7.foldl fun _ _ h => h.loseQueues
  have h9 : Canonical s9 := h8.frame rfl rfl
  exact h9.freeValue.toHost

protected theorem Canonical.execDieLost {die s} (h : Canonical s) : Keeps (execDieLost die s) := by
  unfold execDieLost
  split
  · exact h
  · exact h.loseDie

/-! ### Checkpoints -/

protected theorem Canonical.haltAll {s} (h : Canonical s) : Canonical (haltAll s) := h.frame rfl rfl

protected theorem Canonical.restLine {s x} (h : Canonical s) : Canonical (restLine s x) := by
  unfold restLine
  split
  · exact h.getD fun _ e => h.writeBack e
  · exact h.getD fun _ e => h.writeBack e
  · exact h

protected theorem Canonical.bringImages {s} (h : Canonical s) :
    Canonical (bringImages s) := h.foldl fun _ _ h => h.startSwapIn

theorem memWf_recodedMemory {s : State} (hm : memWf s.memory = true) : memWf (recodedMemory s) = true := by
  refine memWf_foldl hm fun m e hm => ?_
  split
  · exact memWf_writeUnits _ _ _ hm
  · exact hm

protected theorem Canonical.saveModule {s} (h : Canonical s) : SaveKeeps (saveModule s) := by
  unfold saveModule
  extract_lets s1 s2
  have h1 : Canonical s1 := h.haltAll
  have h2 : Canonical s2 := h1.foldl fun _ _ h => h.restLine
  clear_value s2
  split
  · refine ⟨h2.1, fun m e => ?_⟩
    obtain rfl := Option.some.inj e
    exact memWf_recodedMemory h2.1
  · exact h1.bringImages

protected theorem Canonical.execCheckpointModuleSave {tag s} (h : Canonical s) :
    Keeps (execCheckpointModuleSave tag s) := by
  refine h.hostMsg fun s h => ?_
  have hm := h.saveModule
  split
  · rename_i e
    exact (e.subst hm : Canonical _).ackHost
  · rename_i e
    exact e.subst hm

protected theorem Canonical.execCheckpointModuleRestore {tag s} (h : Canonical s) :
    Keeps (execCheckpointModuleRestore tag s) := by
  refine h.hostMsg fun s h => ?_
  split
  · exact h.ackHost
  rename_i m e
  split
  · exact h.ackHost
  · exact Canonical.ackHost ⟨h.2 m e, h.2⟩

protected theorem Canonical.flashTime {s k} (h : Canonical s) (hk : ∀ s, Canonical s → (k s).Keeps) :
    (flashTime s k).Keeps := by
  unfold flashTime
  extract_lets
  split
  · exact hk _ h.choose
  · exact h.choose

protected theorem Canonical.execCheckpointTenantSave {tn tag s} (h : Canonical s) :
    Keeps (execCheckpointTenantSave tn tag s) := by
  unfold execCheckpointTenantSave
  refine h.hostMsg fun s h => ?_
  split
  · exact h.ackHost
  split
  · exact h
  · exact h.flashTime fun _ h => Canonical.ackHost (h.frame rfl rfl)

protected theorem Canonical.restorePage {t s s' e} (h : Canonical s) (he : restorePage t s e = some s') :
    Canonical s' := by
  unfold restorePage at he
  extract_lets level va w dies r at he
  split at he
  · obtain ⟨v, -, rfl⟩ := Option.map_eq_some_iff.mp he
    have hd : Canonical (flashPlace r.2 v e.2.2.2.blocks).2 := h.choose.flashPlace
    exact .setLeaf (hd.frame rfl rfl)
  split at he
  · cases he
  rename_i b s1 e1
  split at he
  · cases he
  · obtain rfl := Option.some.inj he
    have h1 := h.takeFrame e1
    exact .setLeaf (h1.write (fun hm => memWf_writeUnits _ _ _ (memWf_memScrub _ _ _ hm)) rfl)

protected theorem Canonical.restorePages {t l s s'} (h : Canonical s) (he : restorePages t l s = some s') :
    Canonical s' := by
  induction l generalizing s with
  | nil =>
    obtain rfl := Option.some.inj he
    exact h
  | cons e l ih =>
    obtain ⟨s1, h1, h2⟩ := Option.bind_eq_some_iff.mp he
    exact ih (h.restorePage h1) h2

protected theorem Canonical.restoreRest {s i} (h : Canonical s) : Canonical (restoreRest s i) := by
  unfold restoreRest
  extract_lets s1 s2 s3 s4 s5 s6 s7 s8
  have h1 : Canonical s1 := h.foldl fun _ _ h => h.write (memWf_memPaste _ _ _ _) rfl
  have h2 : Canonical s2 := h1.foldl fun _ _ h => h.setTdt
  have h3 : Canonical s3 := h2.foldl fun _ _ h => h.setCounter
  have h4 : Canonical s4 := h3.foldl fun _ _ h => h.setGuard
  have h5 : Canonical s5 := h4.foldl fun _ _ h => h.setEngine
  have h6 : Canonical s6 := h5.foldl fun _ _ h => h.setCore
  have h7 : Canonical s7 := h6.foldl fun _ _ h => h.setCluster
  have h8 : Canonical s8 := h7.foldl fun _ _ h => h.setCore
  exact h8.frame rfl rfl

protected theorem Canonical.restoreTenant {s i s'} (h : Canonical s) (e : restoreTenant s i = some s') :
    Canonical s' := by
  obtain ⟨s1, e1, rfl⟩ := Option.map_eq_some_iff.mp e
  exact (h.setTenant.restorePages e1).restoreRest

protected theorem Canonical.execCheckpointTenantRestore {tn tag s} (h : Canonical s) :
    Keeps (execCheckpointTenantRestore tn tag s) := by
  unfold execCheckpointTenantRestore
  refine h.hostMsg fun s h => ?_
  split
  · exact h.ackHost
  split
  · exact h.ackHost
  refine h.flashTime fun s h => ?_
  split
  · exact h.ackHost
  · rename_i e
    exact (h.restoreTenant e).ackHost

protected theorem Canonical.endCheckpoint {s tn} (h : Canonical s) : Canonical (endCheckpoint s tn) := by
  unfold endCheckpoint
  split
  · exact h
  · exact h.unholdMsg.ackHost.freeValue.freeValue.toHost

protected theorem Canonical.execFlashReadError {tn page s} (h : Canonical s) :
    Keeps (execFlashReadError tn page s) := by
  unfold execFlashReadError
  split
  · exact h.endCheckpoint
  · exact h.failSwapIn

/-! ### Boot and supply -/

protected theorem Canonical.freeDigest {s} (h : Canonical s) : Canonical (freeDigest s).2 :=
  foldl_canonical_snd h fun _ _ h => h.freeValue

protected theorem Canonical.bootDone {s b} (h : Canonical s) : Canonical (bootDone s b) := by
  unfold bootDone
  extract_lets n n2 port s1 s2 s3
  have h1 : Canonical s1 := h.freeDigest.frame rfl rfl
  have h2 : Canonical s2 := h1.foldl fun _ _ h => h.setCore
  have h3 : Canonical s3 := h2.foldl fun _ _ h => h.setCluster
  exact h3.foldl fun _ _ h => h.setCluster

protected theorem Canonical.execBoot {b s} (h : Canonical s) : Keeps (execBoot b s) := by
  unfold execBoot
  split
  · exact h
  split
  · exact Canonical.toHost (h.frame rfl rfl)
  split
  · exact h.bootDone
  · exact h

protected theorem Canonical.execClockReduction {s} (h : Canonical s) : Keeps (execClockReduction s) := h.frame rfl rfl

protected theorem Canonical.shutDown {s} (h : Canonical s) :
    Canonical (shutDown s) := .toHost (h.freeValue.freeValue.freeValue.freeValue.frame rfl rfl)

protected theorem Canonical.execSupplyFaultShutdown {s} (h : Canonical s) : Keeps (execSupplyFaultShutdown s) := by
  unfold execSupplyFaultShutdown
  split
  · have hm := h.saveModule
    split
    · rename_i e
      exact (e.subst hm : Canonical _).shutDown
    · rename_i e
      exact e.subst hm
  · exact h.shutDown

/-! ### Branches and hints -/

protected theorem Canonical.execBr {g o s} (h : Canonical s) : Keeps (execBr g o s) := h.issueWord fun _ => h

protected theorem Canonical.execCall {g o s} (h : Canonical s) : Keeps (execCall g o s) := h.issueWord fun _ => h

protected theorem Canonical.jumpReg {a f c s} (h : Canonical s) : (jumpReg a f c s).Keeps := by
  unfold jumpReg
  split
  · trivial
  extract_lets
  split
  · exact h
  · trivial

protected theorem Canonical.execJr {g a s} (h : Canonical s) : Keeps (execJr g a s) := h.issueWord fun _ => h.jumpReg

protected theorem Canonical.execRet {g a s} (h : Canonical s) : Keeps (execRet g a s) :=
  h.issueWord fun _ => h.jumpReg

protected theorem Canonical.execCallr {g a s} (h : Canonical s) : Keeps (execCallr g a s) :=
  h.issueWord fun _ => h.jumpReg

protected theorem Canonical.execLoop {g d o s} (h : Canonical s) : Keeps (execLoop g d o s) := by
  unfold execLoop
  refine h.issueWord fun c => ?_
  split
  · trivial
  extract_lets
  split <;> exact h

protected theorem Canonical.execNop {g s} (h : Canonical s) : Keeps (execNop g s) := h.issueWord fun _ => h

protected theorem Canonical.issueHint {f s} (h : Canonical s) : Keeps (issueHint f s) := by
  unfold issueHint
  split
  · trivial
  split
  · exact h.finishIssue trivial
  · exact h.finishIssue trivial
  · exact h.afterIssue

protected theorem Canonical.execHmod {l v r k n s} (h : Canonical s) : Keeps (execHmod l v r k n s) := by
  unfold execHmod
  split
  · trivial
  split
  · exact h.finishIssue trivial
  · exact h.countIssue.frame rfl rfl

protected theorem Canonical.execNotAnInstructionWord {w s} (h : Canonical s) :
    Keeps (execNotAnInstructionWord w s) := by
  unfold execNotAnInstructionWord
  split
  · trivial
  split
  · exact h.finishIssue trivial
  · exact h

/-! ### Register words -/

protected theorem Canonical.signal {c s e sub l} (h : Canonical s) : (signal c s e sub l).Keeps := by
  unfold signal
  split
  · trivial
  · exact h

protected theorem Canonical.issueFloat {g d srcs w x op s} (h : Canonical s) :
    Keeps (issueFloat g d srcs w x op s) := by
  unfold issueFloat
  refine h.issueWord fun c => ?_
  extract_lets
  split
  · trivial
  · exact h.signal

protected theorem Canonical.execFcmp {g d a b w c x s} (h : Canonical s) : Keeps (execFcmp g d a b w c x s) := by
  unfold execFcmp
  refine h.issueWord fun k => ?_
  extract_lets
  split
  · trivial
  · exact h.signal

protected theorem Canonical.execFcvt {g d a l ss t s} (h : Canonical s) : Keeps (execFcvt g d a l ss t s) := by
  unfold execFcvt
  refine h.issueWord fun c => ?_
  extract_lets
  split
  · trivial
  · exact h.signal

/-! ### Parallel words -/

protected theorem Canonical.spawnPush {c d r s bad} (h : Canonical s) : (spawnPush c d r s bad).Keeps := by
  unfold spawnPush
  split
  · exact h
  · exact h.setCore

protected theorem Canonical.execSpawn {g d a b p ss s} (h : Canonical s) : Keeps (execSpawn g d a b p ss s) := by
  unfold execSpawn
  refine h.issueWord fun c => ?_
  split
  · trivial
  extract_lets t j r go
  have hgo {k : Res} (hk : k.Keeps) : (go k).Keeps := by
    unfold go
    split
    · exact h
    · split
      · exact h
      · split
        · trivial
        · exact hk
  clear_value go
  split
  · trivial
  split
  · exact hgo h.spawnPush
  refine h.remoteOnce h.spawnPush ?_
  split
  · exact h.stopRes
  · exact hgo (h.syncAdd fun _ _ h => h.spawnPush)

protected theorem Canonical.execJoin {g a s} (h : Canonical s) : Keeps (execJoin g a s) := by
  unfold execJoin
  refine h.issueWord fun c => ?_
  split
  · trivial
  refine h.withLoc fun loc => h.syncRead fun v bad => ?_
  split <;> exact h

protected theorem Canonical.execYield {g s} (h : Canonical s) : Keeps (execYield g s) := by
  unfold execYield
  refine h.issueWord fun c => ?_
  split
  · split <;> exact h
  · exact h

protected theorem Canonical.exitWith {c s k} (h : Canonical s)
    (hk : (k fun s => .leave (retireLine s c.t)).Keeps) : (exitWith c s k).Keeps := by
  unfold exitWith
  split
  · exact h
  split
  · exact h
  · exact hk

protected theorem Canonical.execExit {g s} (h : Canonical s) : Keeps (execExit g s) :=
  h.issueWord fun _ => h.exitWith h.retireLine

protected theorem Canonical.execExitCounter {g a s} (h : Canonical s) : Keeps (execExitCounter g a s) := by
  unfold execExitCounter
  refine h.issueWord fun c => ?_
  split
  · trivial
  extract_lets j
  refine h.remoteOnce (h.exitWith h.retireLine) ?_
  split
  · exact h.stopRes
  · exact h.exitWith (h.syncAdd fun _ _ h => h.retireLine)

protected theorem Canonical.depart {c s core va} (h : Canonical s) : (depart c s core va).Keeps := by
  unfold depart
  split
  · trivial
  split
  · exact h
  split
  · exact h
  · exact h.putLine

protected theorem Canonical.departMember {c s vmod paddr} (h : Canonical s) :
    (departMember c s vmod paddr).Keeps := by
  unfold departMember
  split
  · exact h
  split
  · exact h
  · exact h.putLine.sendPkt

protected theorem Canonical.execGo {g a s} (h : Canonical s) : Keeps (execGo g a s) := by
  unfold execGo
  refine h.issueWord fun c => ?_
  split
  · trivial
  extract_lets
  split
  · exact h.stopRes
  · split
    · trivial
    · exact h.choose.depart
  · split
    · trivial
    · exact h.choose.depart
  · exact h.departMember

protected theorem Canonical.execGoc {g a s} (h : Canonical s) : Keeps (execGoc g a s) := by
  unfold execGoc
  refine h.issueWord fun c => ?_
  split
  · trivial
  extract_lets
  split
  · trivial
  · exact h.depart

protected theorem Canonical.execSelf {g d s} (h : Canonical s) : Keeps (execSelf g d s) := h.issueWord fun _ => h

protected theorem Canonical.cancelDone {c d found s} (h : Canonical s) : (cancelDone c d found s).Keeps := h

protected theorem Canonical.cancelRelease {c d j loc s s'} (h : Canonical s) (h' : Canonical s') :
    (cancelRelease c d j loc s s').Keeps := by
  unfold cancelRelease
  extract_lets t
  split
  · exact h
  split
  · exact h'.sendPkt
  split
  · exact h
  split
  · exact h'.cancelDone
  · exact h'.performRmw.cancelDone

protected theorem Canonical.execCancel {g d a s} (h : Canonical s) : Keeps (execCancel g d a s) := by
  unfold execCancel
  refine h.issueWord fun c => ?_
  split
  · trivial
  extract_lets
  split
  · trivial
  refine h.remoteOnce h.cancelDone ?_
  extract_lets
  split
  · exact h.cancelDone
  extract_lets s1
  have h1 : Canonical s1 := h.setCore
  split
  · exact h1.cancelDone
  split
  · exact h.stopRes
  · exact h.cancelRelease h1

protected theorem Canonical.waitValue {eq d a b w c s} (h : Canonical s) : (waitValue eq d a b w c s).Keeps := by
  unfold waitValue
  split
  · trivial
  refine h.withLoc fun loc => h.syncRead fun v bad => ?_
  split <;> exact h

/-! ### The step -/

protected theorem Canonical.exec {s} (i : Instr) (h : Canonical s) : Keeps (exec i s) := by
  unfold exec
  cases i with
  | add | sub | and | or | xor | andn | orn | xnor | shl | shr | sar | rol | ror | min | max | minb | maxb
  | mul | mulh | mulhb | div | divb | rem | neg | remb | clz | ctz | popc | bswap | mov | abs | sext | addi
  | andi | ori | xori | shli | shri | sari | roli | movi | movh | cmp | cmpi | qand | qor | qxor | qnot | qmov
  | qset | qany | qall | qtog | gtoq | vadd | vsub | vadds | vsubs | vmul | vmin | vmax | vavg | vshl | vshr
  | vsar | vsel | vshuf | vpack | vunpk | vdot | vsum | bext | bextb | bins =>
    exact h.issueWord fun _ => h.lineBody
  | fadd | fsub | fmul | fdiv | fsqrt | fmin | fmax | fma | fround => exact h.issueFloat
  | fcmp => exact h.execFcmp
  | fcvt => exact h.execFcvt
  | br => exact h.execBr
  | call => exact h.execCall
  | jr => exact h.execJr
  | ret => exact h.execRet
  | callr => exact h.execCallr
  | loop => exact h.execLoop
  | spawn => exact h.execSpawn
  | join => exact h.execJoin
  | yield => exact h.execYield
  | exit => exact h.execExit
  | exitCounter => exact h.execExitCounter
  | go => exact h.execGo
  | goc => exact h.execGoc
  | self => exact h.execSelf
  | cancel => exact h.execCancel
  | waitne | waiteq => exact h.issueWord fun _ => h.waitValue
  | ld | ldx => exact h.issueWord fun _ => h.issueLoad
  | st | stx => exact h.issueWord fun _ => h.issueStore
  | ldfe | ldff => exact h.issueWord fun _ => h.readFull
  | stf => exact h.execStf
  | ste => exact h.execSte
  | amoAdd | amoAnd | amoOr | amoXor | amoMin | amoMax | amoMinb | amoMaxb | amoSwap | amoCas | amoFadd =>
    exact h.issueAmo
  | fence => exact h.execFence
  | tkld => exact h.execTkld
  | tkred => exact h.execTkred
  | tkdrop => exact h.execTkdrop
  | tkstat => exact h.execTkstat
  | mpost => exact h.execMpost
  | mexp => exact h.execMexp
  | mwait => exact h.execMwait
  | mread => exact h.execMread
  | enq => exact h.execEnq
  | deq => exact h.execDeq
  | qlen => exact h.execQlen
  | qmake => exact h.execQmake
  | qfree => exact h.execQfree
  | rmov | rfill | rcmp => exact h.issueWord fun _ => h.blockStep
  | lw => exact h.execLw
  | lswap | ldrain => exact h.issueWord fun _ => h.plainLast
  | lstream => exact h.execLstream
  | lcfg => exact h.execLcfg
  | lrem => exact h.execLrem
  | tadd | tmul | tfma | tmax | tmin | texp2 | trcp | trsqrt | tcvt | tred | tsel | ttrn =>
    exact h.issueWord fun _ => h.treadIssue
  | cpy => exact h.execCpy
  | cpyd => exact h.execCpyd
  | cwm | chan => exact h.issueWord fun _ => h.channelIssue
  | scmc => exact h.execScmc
  | sld => exact h.issueWord fun _ => h.scaleIssue
  | swpin | swpout | swpq => exact h.issueWord fun _ => h.swapIssue
  | gslot => exact h.execGslot
  | gset => exact h.execGset
  | gfree => exact h.execGfree
  | jwait => exact h.execJwait
  | jtest => exact h.execJtest
  | jstat => exact h.execJstat
  | talloc => exact h.execTalloc
  | tfree => exact h.execTfree
  | tdesc => exact h.execTdesc
  | tinfo => exact h.execTinfo
  | capmint => exact h.execCapmint
  | caprev => exact h.execCaprev
  | fin => exact h.execFin
  | trap => exact h.execTrap
  | csrr => exact h.execCsrr
  | csrw | fmodeWrite | fflagsWrite | fqHeadWrite | ctxpoolBaseWrite | ctxpoolLinesWrite => exact h.issueCsrw
  | rft => exact h.execRft
  | cevictSelf => exact h.execCevictSelf
  | cevict => exact h.execCevict
  | cclaim => exact h.execCclaim
  | cpark => exact h.execCpark
  | transit => exact h.execTransit
  | tlbinv => exact h.execTlbinv
  | gsw => exact h.execGsw
  | nop => exact h.execNop
  | halt => exact h.execHalt
  | hext | hsched => exact h.issueHint
  | hmod => exact h.execHmod
  | notAnInstructionWord => exact h.execNotAnInstructionWord
  | map | unmap | protect | grantTake | grantGiveBack | pushmask | killjob | swapallot | counterTake
  | counterGiveBack =>
    exact h.runService
  | write => exact h.execWrite
  | read => exact h.execRead
  | launch => exact h.execLaunch
  | push => exact h.execPush
  | post => exact h.execPost
  | tenantCreate => exact h.execTenantCreate
  | tenantTearDown => exact h.execTenantTearDown
  | tenantStartSupervisor => exact h.execTenantStartSupervisor
  | gangmap => exact h.execGangmap
  | gswitch => exact h.execGswitch
  | gresume => exact h.execGresume
  | hostHalt => exact h.execHostHalt
  | hostHaltResume => exact h.execHostHaltResume
  | lineResume => exact h.execLineResume
  | lineKill => exact h.execLineKill
  | diemapRead => exact h.execDiemapRead
  | diemapRemap => exact h.execDiemapRemap
  | diemapOffline => exact h.execDiemapOffline
  | service => exact h.execService
  | featuresRead => exact h.execFeaturesRead
  | featuresAccept => exact h.execFeaturesAccept
  | checkpointModuleSave => exact h.execCheckpointModuleSave
  | checkpointModuleRestore => exact h.execCheckpointModuleRestore
  | checkpointTenantSave => exact h.execCheckpointTenantSave
  | checkpointTenantRestore => exact h.execCheckpointTenantRestore
  | bind => exact h.execBind
  | attest => exact h.execAttest
  | boot => exact h.execBoot
  | clockReduction => exact h.execClockReduction
  | supplyFaultShutdown => exact h.execSupplyFaultShutdown
  | resultArrival => exact h.execResultArrival
  | storeAcknowledgement => exact h.execStoreAcknowledgement
  | sweptStoreAck => exact h.execSweptStoreAck
  | deferredMemoryError => exact h.execDeferredMemoryError
  | slotFill => exact h.execSlotFill
  | quantumExpiry => exact h.execQuantumExpiry
  | cl1Eviction => exact h.execCl1Eviction
  | cl2Eviction => exact h.execCl2Eviction
  | cl2Promotion => exact h.execCl2Promotion
  | readyListFill => exact h.execReadyListFill
  | readyListForcedFill => exact h.execReadyListForcedFill
  | fillRequest => exact h.execFillRequest
  | steal => exact h.execSteal
  | jobCompletion => exact h.execJobCompletion
  | migrationArrival => exact h.execMigrationArrival
  | wake => exact h.execWake
  | mailboxPost => exact h.execMailboxPost
  | mailboxExpectation => exact h.execMailboxExpectation
  | queuePush => exact h.execQueuePush
  | queuePushNack => exact h.execQueuePushNack
  | queueResidencyChange => exact h.execQueueResidencyChange
  | ticketFetchReturn => exact h.execTicketFetchReturn
  | ticketFetchFailure => exact h.execTicketFetchFailure
  | handlerCreation => exact h.execHandlerCreation
  | directoryMessage => exact h.execDirectoryMessage
  | tableWalk => exact h.execTableWalk
  | invalidationMarker => exact h.execInvalidationMarker
  | commandStart => exact h.execCommandStart
  | commandFault => exact h.execCommandFault
  | commandCompletion => exact h.execCommandCompletion
  | stagingDelivery => exact h.execStagingDelivery
  | stagingRowWrite => exact h.execStagingRowWrite
  | copySegment => exact h.execCopySegment
  | swapOutImageWritten => exact h.execSwapOutImageWritten
  | swapInFrameGrant => exact h.execSwapInFrameGrant
  | pageLanding => exact h.execPageLanding
  | flashReadError => exact h.execFlashReadError
  | packetReroute => exact h.execPacketReroute
  | remapPhaseCompletion => exact h.execRemapPhaseCompletion
  | dieLost => exact h.execDieLost
  | fabricDataFrame => exact h.execFabricDataFrame
  | fabricAck => exact h.execFabricAck
  | transportNack => exact h.execTransportNack
  | deviceNack => exact h.execDeviceNack
  | heartbeat => exact h.execHeartbeat
  | heartbeatSend => exact h.execHeartbeatSend
  | retransmission => exact h.execRetransmission
  | flowFailure => exact h.execFlowFailure
  | switchControl => exact h.execSwitchControl
  | meridianMarker => exact h.execMeridianMarker
  | switchPhaseCompletion => exact h.execSwitchPhaseCompletion
  | resumePhaseCompletion => exact h.execResumePhaseCompletion
  | transitMarker => exact h.execTransitMarker
  | remapAbandoned => exact h.execRemapAbandoned
  -- The one constructor left is that of the sealing word, whose name is a keyword of Lean.
  | _ => exact h.execSeal

theorem Keeps.endCycle {r} (h : Keeps r) : Keeps (endCycle r) := by
  cases r with
  | next s => exact Canonical.settle h
  | fault f => trivial
  | refused w => trivial

protected theorem Canonical.cycleStep {s c} (h : Canonical s) : Keeps (cycleStep s c) := by
  unfold cycleStep
  have hb := h.beginCycle (c := c)
  split
  · rename_i e
    exact e.subst hb
  · rename_i e
    exact ((e.subst hb : Canonical _).exec _).endCycle

protected theorem Canonical.step {s} (h : Canonical s) : Keeps (step s) := by
  unfold step
  split
  · rename_i c s1 e
    have h1 : Canonical s1 := by simpa only [e] using h.nextTurn
    split
    · exact h1.cycleStep
    · exact h1
  · rename_i i s1 e
    have h1 : Canonical s1 := by simpa only [e] using h.nextTurn
    split
    · exact h1.exec i
    · exact h1

/-- Settles O56: a turn is an event or a core's cycle, and `Canonical.exec` says of every instruction and
event that it keeps the form. -/
theorem stepsKeepMemoryCanonical : Obligations.steps_keep_memory_canonical := by
  unfold Obligations.steps_keep_memory_canonical
  intro s s' h e
  exact e.subst h.step (motive := Keeps)

end Sys2Proof.Machine

/-! # Decode and encode agree (O54) -/

namespace Sys2Proof

/-! ### The parts of a word

`encodeNat` lists the fields of a word from the highest to the lowest, each beside the fixed bits of its row. `Packed` says
that a word with such parts gives them back: `bits` reads the fixed bits, `fld` reads the fields. -/

/-- A field as it stands in a word: its lowest bit, its width and its value. -/
structure Placed where
  lo : Nat
  width : Nat
  value : BitVec width

/-- What the field adds to the word. -/
def Placed.part (f : Placed) : Nat := put f.value f.lo

/-- The bits that the field takes. -/
def Placed.span (f : Placed) : Nat × Nat := (f.lo, f.width)

/-- The parts of a word as `encodeNat` lists them are those of these fields. -/
inductive Laid : List Nat → List Placed → Prop
  | nil : Laid [] []
  | cons {k lo : Nat} (x : BitVec k) {l : List Nat} {fs : List Placed} : Laid l fs → Laid (put x lo :: l) (⟨lo, k, x⟩ :: fs)

theorem Laid.eq_map {l : List Nat} {fs : List Placed} (h : Laid l fs) : l = fs.map Placed.part := by
  induction h with
  | nil => rfl
  | cons x _ ih => rw [ih]; rfl

/-- The spans lie one below the other from bit `top` down, where the fixed bits `c` are 0. -/
def spansFit (c : Nat) : Nat → List (Nat × Nat) → Bool
  | _, [] => true
  | top, (lo, k) :: l => decide (lo + k ≤ top) && c / 2 ^ lo % 2 ^ k == 0 && spansFit c lo l

/-- None of the `k` bits from `lo` up lies in a span. -/
def spanFree (lo k : Nat) (l : List (Nat × Nat)) : Bool :=
  l.all fun p => decide (p.1 + p.2 ≤ lo) || decide (lo + k ≤ p.1)

/-- A word with these fixed bits and these fields. -/
structure Packed (c : Nat) (fs : List Placed) (n : Nat) : Prop where
  lt : n < 2 ^ 32
  fixed : ∀ lo k, spanFree lo k (fs.map Placed.span) = true → bits n lo k = c / 2 ^ lo % 2 ^ k
  field : ∀ f ∈ fs, fld n f.lo f.width = f.value

theorem spansFit_cons {c top : Nat} {f : Placed} {l : List (Nat × Nat)} :
    spansFit c top (f.span :: l) = true ↔ f.lo + f.width ≤ top ∧ bits c f.lo f.width = 0 ∧ spansFit c f.lo l = true := by
  rw [Placed.span, spansFit, Bool.and_eq_true, Bool.and_eq_true, decide_eq_true_iff, beq_iff_eq, and_assoc]
  rfl

theorem spanFree_cons {lo k : Nat} {f : Placed} {l : List (Nat × Nat)} :
    spanFree lo k (f.span :: l) = true ↔ (f.lo + f.width ≤ lo ∨ lo + k ≤ f.lo) ∧ spanFree lo k l = true := by
  simp [spanFree, Placed.span]

theorem fld_eq_bits (w lo k : Nat) : fld w lo k = BitVec.ofNat k (bits w lo k) :=
  BitVec.eq_of_toNat_eq (by simp [fld, bits])

theorem bits_eq_fld (w lo k : Nat) : bits w lo k = (fld w lo k).toNat := by simp [fld, bits]

theorem word_cons (c : Nat) (f : Placed) (l : List Nat) : word c (f.part :: l) = f.part + word c l := rfl

/-- A field changes no bit below it. -/
theorem bits_part_below {f : Placed} {y lo k : Nat} (h : lo + k ≤ f.lo) : bits (f.part + y) lo k = bits y lo k := by
  obtain ⟨e, he⟩ := Nat.exists_eq_add_of_le h
  rw [bits, bits, Placed.part, put, he,
    show f.value.toNat * 2 ^ (lo + k + e) + y = 2 ^ lo * (2 ^ k * (f.value.toNat * 2 ^ e)) + y by ring,
    Nat.mul_add_div (by positivity), Nat.mul_add_mod]

/-- A field put where the bits are 0 stands alone in its place. -/
theorem part_add_div {f : Placed} {y : Nat} (h : bits y f.lo f.width = 0) :
    (f.part + y) / 2 ^ f.lo = 2 ^ f.width * (y / 2 ^ (f.lo + f.width)) + f.value.toNat := by
  have hy := Nat.div_add_mod (y / 2 ^ f.lo) (2 ^ f.width)
  rw [show y / 2 ^ f.lo % 2 ^ f.width = 0 from h, add_zero, Nat.div_div_eq_div_mul, ← pow_add] at hy
  rw [Placed.part, put, mul_comm, Nat.mul_add_div (by positivity), ← hy, add_comm]

/-- A field is read back from its place. -/
theorem bits_part_self {f : Placed} {y : Nat} (h : bits y f.lo f.width = 0) :
    bits (f.part + y) f.lo f.width = f.value.toNat := by
  rw [bits, part_add_div h, Nat.mul_add_mod, Nat.mod_eq_of_lt f.value.isLt]

/-- A field put where the bits are 0 changes nothing above it. -/
theorem part_add_div_above {f : Placed} {y m : Nat} (h : bits y f.lo f.width = 0) (hm : f.lo + f.width ≤ m) :
    (f.part + y) / 2 ^ m = y / 2 ^ m := by
  obtain ⟨e, rfl⟩ := Nat.exists_eq_add_of_le hm
  have hself : (f.part + y) / 2 ^ (f.lo + f.width) = y / 2 ^ (f.lo + f.width) := by
    rw [pow_add, ← Nat.div_div_eq_div_mul, part_add_div h, Nat.mul_add_div (by positivity),
      Nat.div_eq_of_lt f.value.isLt, add_zero, pow_add]
  rw [pow_add, ← Nat.div_div_eq_div_mul, hself, Nat.div_div_eq_div_mul]

/-- Above fields that fit, a word is its fixed bits. -/
theorem word_above {c top : Nat} {fs : List Placed} (h : spansFit c top (fs.map Placed.span) = true) :
    word c (fs.map Placed.part) / 2 ^ top = c / 2 ^ top := by
  induction fs generalizing top with
  | nil => rfl
  | cons f fs ih =>
    obtain ⟨htop, hc, hfs⟩ := spansFit_cons.mp h
    have hz : bits (word c (fs.map Placed.part)) f.lo f.width = 0 := by rw [bits, ih hfs]; exact hc
    rw [List.map_cons, word_cons, part_add_div_above hz htop]
    obtain ⟨e, rfl⟩ := Nat.exists_eq_add_of_le htop
    rw [add_assoc, pow_add, ← Nat.div_div_eq_div_mul, ih hfs, Nat.div_div_eq_div_mul]

/-- Where the next field of a word goes, the fields below it leave the fixed bits. -/
theorem bits_word_gap {c lo k : Nat} {fs : List Placed} (h : spansFit c lo (fs.map Placed.span) = true) :
    bits (word c (fs.map Placed.part)) lo k = bits c lo k := by
  rw [bits, word_above h, bits]

theorem bits_word_free {c top lo k : Nat} {fs : List Placed} (h : spansFit c top (fs.map Placed.span) = true)
    (hk : spanFree lo k (fs.map Placed.span) = true) : bits (word c (fs.map Placed.part)) lo k = bits c lo k := by
  induction fs generalizing top with
  | nil => rfl
  | cons f fs ih =>
    obtain ⟨-, hc, hfs⟩ := spansFit_cons.mp h
    obtain ⟨hf, hk⟩ := spanFree_cons.mp hk
    rw [← ih hfs hk, List.map_cons, word_cons]
    rcases hf with hf | hf
    · rw [bits, bits, part_add_div_above (by rw [bits_word_gap hfs, hc]) hf]
    · exact bits_part_below hf

theorem fld_word {c top : Nat} {fs : List Placed} (h : spansFit c top (fs.map Placed.span) = true) :
    ∀ f ∈ fs, f.lo + f.width ≤ top ∧ fld (word c (fs.map Placed.part)) f.lo f.width = f.value := by
  induction fs generalizing top with
  | nil => exact fun f hf => nomatch hf
  | cons f fs ih =>
    obtain ⟨htop, hc, hfs⟩ := spansFit_cons.mp h
    rw [List.forall_mem_cons, List.map_cons, word_cons]
    refine ⟨⟨htop, ?_⟩, fun f' hf' => ?_⟩
    · rw [fld_eq_bits, bits_part_self (by rw [bits_word_gap hfs, hc]), BitVec.ofNat_toNat, BitVec.setWidth_eq]
    · obtain ⟨hle, hf'⟩ := ih hfs f' hf'
      exact ⟨by omega, by rw [fld_eq_bits, bits_part_below hle, ← fld_eq_bits, hf']⟩

/-- The shape of a row of the opcode table: its fields fit, and its major is allocated. -/
def rowShape (c : Nat) (l : List (Nat × Nat)) : Bool :=
  decide (c < 2 ^ 32) && spansFit c 32 l && spanFree 26 6 l && !unallocated (c / 2 ^ 26 % 2 ^ 6)

/-- The parts of a word can be read back. -/
theorem packed_of_laid {c n : Nat} {l : List Nat} {fs : List Placed} (hn : word c l = n) (hl : Laid l fs)
    (hc : c < 2 ^ 32) (h : spansFit c 32 (fs.map Placed.span) = true) : Packed c fs n := by
  subst hn
  rw [hl.eq_map]
  refine ⟨?_, fun lo k hk => bits_word_free h hk, fun f hf => (fld_word h f hf).2⟩
  have hz := word_above h
  rw [Nat.div_eq_of_lt hc] at hz
  exact (Nat.div_eq_zero_iff_lt (by positivity)).mp hz

/-! ### A word of a row decodes to its instruction -/

theorem row_eq_ok {b : Bool} {i j : Instr} : row b i = .ok j ↔ b = true ∧ i.wf = true ∧ i = j := by
  unfold row
  split <;> simp_all

theorem row_ok {b : Bool} {i : Instr} (hb : b = true) (h : i.wf = true) : row b i = .ok i :=
  row_eq_ok.mpr ⟨hb, h, rfl⟩

/-- A word of an allocated major whose guard is not `!q0` is what its major decodes it to (R68 orders 1 and 2). -/
theorem decodeNat_eq_decodeMajor {w : Nat} (hu : unallocated (bits w 26 6) = false)
    (hg : bits w 26 6 = 0x3F ∨ fld w 22 4 ≠ 8) : decodeNat w = decodeMajor w := by
  rw [decodeNat, hu, if_neg Bool.false_ne_true, if_neg]
  rcases hg with hg | hg
  · simp [hg]
  · have h8 : bits w 22 4 ≠ 8 := fun h => hg (by rw [fld_eq_bits, h]; rfl)
    simp [h8]

/-- A word of a row decodes as its major says, once its parts are read back. -/
theorem decodes_of_laid {c n : Nat} {l : List Nat} {fs : List Placed} {i : Instr} (hn : word c l = n) (hl : Laid l fs)
    (h : rowShape c (fs.map Placed.span) = true)
    (hg : c / 2 ^ 26 % 2 ^ 6 = 0x3F ∨ ∃ g, ⟨22, 4, g⟩ ∈ fs ∧ g ≠ 8)
    (hd : (∀ lo k, spanFree lo k (fs.map Placed.span) = true → bits n lo k = c / 2 ^ lo % 2 ^ k) →
      (∀ f ∈ fs, fld n f.lo f.width = f.value) → decodeMajor n = .ok i) :
    n < 2 ^ 32 ∧ decodeNat n = .ok i := by
  simp only [rowShape, Bool.and_eq_true, decide_eq_true_iff, Bool.not_eq_true'] at h
  obtain ⟨⟨⟨hc, hfit⟩, hfree⟩, hu⟩ := h
  obtain ⟨hlt, hfix, hfld⟩ := packed_of_laid hn hl hc hfit
  refine ⟨hlt, ?_⟩
  have hM := hfix 26 6 hfree
  rw [decodeNat_eq_decodeMajor (by rw [hM, hu]) ?_, hd hfix hfld]
  rcases hg with hg | ⟨g, hmem, hg⟩
  · exact .inl (hM.trans hg)
  · exact .inr (by rwa [hfld _ hmem])

/-- A status register with a Write column may be read too (R413). -/
theorem csrReadable_of_csrWritable {n : BitVec 16} (h : csrWritable n = true) : csrReadable n = true := by
  simp only [csrWritable, csrReadable, List.contains_iff_mem, List.mem_cons, List.not_mem_nil, or_false] at h ⊢
  omega

/-- The words of majors 0x00 to 0x16, the first 102 rows of the table. -/
theorem decodeNat_of_major_le_16 {i : Instr} {n : Nat} (hw : i.wf = true) (h : encodeNat i = some n)
    (hi : i.ctorIdx < 102) : n < 2 ^ 32 ∧ decodeNat n = .ok i := by
  cases i
  all_goals try exact absurd hi (of_decide_eq_false rfl)
  all_goals
    refine decodes_of_laid (Option.some.inj h) (by repeat constructor) (by simp only [List.map, Placed.span]; rfl)
      (.inr ⟨_, .head _, by rintro rfl; exact nomatch hw⟩) fun hfix hfld => ?_
    simp only [List.forall_mem_cons, List.map, Placed.span] at hfix hfld
    rw [decodeMajor, hfix 26 6 rfl]
    with_reducible_and_instances conv_lhs => whnf
    simp (decide := true) only [hfix, hfld, Nat.reducePow, Nat.reduceDiv, Nat.reduceMod,
      decode00, decode01, decode02, decode03, decode04, decode05, decode06, decode07, decode08, decode09, decode0A, decode0B,
      decode0C, decode0D, decode0E, decode10, decode11, decode12, decode13, decode14, decode15, decode16]
  case cmp g d a b c w l =>
    obtain ⟨-, -, -, -, rfl, -⟩ := hfld
    have hc : (fld n 8 5).toNat < 12 := of_decide_eq_true (Bool.and_eq_true_iff.mp (Bool.and_eq_true_iff.mp hw).1).2
    rw [bits_eq_fld, if_pos hc]
    exact row_ok rfl hw
  all_goals exact row_ok rfl hw

/-- The words of majors 0x18 to 0x36, rows 102 to 191 of the table. -/
theorem decodeNat_of_major_ge_18 {i : Instr} {n : Nat} (hw : i.wf = true) (h : encodeNat i = some n)
    (hi : 102 ≤ i.ctorIdx ∧ i.ctorIdx < 192) : n < 2 ^ 32 ∧ decodeNat n = .ok i := by
  cases i
  all_goals try exact absurd hi (of_decide_eq_false rfl)
  all_goals
    refine decodes_of_laid (Option.some.inj h) (by repeat constructor) (by simp only [List.map, Placed.span]; rfl)
      (.inr ⟨_, .head _, by rintro rfl; exact nomatch hw⟩) fun hfix hfld => ?_
    simp only [List.forall_mem_cons, List.map, Placed.span] at hfix hfld
    rw [decodeMajor, hfix 26 6 rfl]
    with_reducible_and_instances conv_lhs => whnf
    simp (decide := true) only [hfix, hfld, Nat.reducePow, Nat.reduceDiv, Nat.reduceMod,
      decode18, decode19, decode1A, decode1B, decode1C, decode1D, decode1E, decode1F, decode20, decode21, decode22, decode23,
      decode24, decode25, decode26, decode27, decode2B, decode28, decode29, decode2A, decode2C, decode2D, decode30, decode31,
      decode32, decode33, decode34, decode35, decode36]
  case csrr g d m =>
    rw [if_pos (show csrReadable m = true from (Bool.and_eq_true_iff.mp hw).2)]
    exact row_ok rfl hw
  case csrw g a m =>
    rw [if_pos (csrReadable_of_csrWritable (Bool.and_eq_true_iff.mp hw).2)]
    exact row_ok rfl hw
  all_goals exact row_ok rfl hw

/-- The hint words, which have no guard, and the events, which have no word. -/
theorem decodeNat_of_hint {i : Instr} {n : Nat} (hw : i.wf = true) (h : encodeNat i = some n) (hi : 192 ≤ i.ctorIdx) :
    n < 2 ^ 32 ∧ decodeNat n = .ok i := by
  cases i
  all_goals try exact absurd hi (of_decide_eq_false rfl)
  case hext | hsched | hmod =>
    refine decodes_of_laid (Option.some.inj h) (by repeat constructor) (by simp only [List.map, Placed.span]; rfl) (.inl rfl)
      fun hfix hfld => ?_
    simp only [List.forall_mem_cons, List.map, Placed.span] at hfix hfld
    rw [decodeMajor, hfix 26 6 rfl]
    with_reducible_and_instances conv_lhs => whnf
    simp (decide := true) only [hfix, hfld, Nat.reducePow, Nat.reduceDiv, Nat.reduceMod, decode3F]
    exact row_ok rfl hw
  all_goals exact nomatch h

/-- The word of a well-formed instruction fits 32 bits and decodes to it. -/
theorem decodeNat_of_encodeNat {i : Instr} {n : Nat} (hw : i.wf = true) (h : encodeNat i = some n) :
    n < 2 ^ 32 ∧ decodeNat n = .ok i := by
  rcases Nat.lt_or_ge i.ctorIdx 102 with h102 | h102
  · exact decodeNat_of_major_le_16 hw h h102
  rcases Nat.lt_or_ge i.ctorIdx 192 with h192 | h192
  · exact decodeNat_of_major_ge_18 hw h ⟨h102, h192⟩
  · exact decodeNat_of_hint hw h h192

/-! ### A word that decodes is the word of its instruction

The bits of a row that its decoder tests and the fields that it reads tile the 32 bits of the word. Written with the values
`lowBits w k` of the word's lowest `k` bits, each tested span and each field is a difference of two of them, so that the sum
of a row's parts telescopes to the word. -/

/-- The value of the lowest `k` bits. -/
def lowBits (w k : Nat) : Int := (w % 2 ^ k : Nat)

theorem lowBits_zero (w : Nat) : lowBits w 0 = 0 := by simp [lowBits, Nat.mod_one]

theorem lowBits_all {w : Nat} (h : w < 2 ^ 32) : lowBits w 32 = w := by rw [lowBits, Nat.mod_eq_of_lt h]

theorem lowBits_add (w lo k : Nat) : lowBits w (lo + k) = lowBits w lo + bits w lo k * 2 ^ lo := by
  rw [lowBits, pow_add, Nat.mod_mul, lowBits, bits]
  push_cast
  ring

theorem cast_put_fld (w lo k : Nat) : (put (fld w lo k) lo : Int) = lowBits w (lo + k) - lowBits w lo := by
  rw [lowBits_add, put, ← bits_eq_fld]
  push_cast
  ring

theorem bits_eq_iff_lowBits (w lo k v : Nat) : bits w lo k = v ↔ lowBits w (lo + k) = lowBits w lo + v * 2 ^ lo := by
  rw [lowBits_add, add_right_inj, mul_left_inj' (by positivity), Nat.cast_inj]

theorem bits_one_ne_zero_iff (w lo : Nat) : ¬ (bits w lo 1 == 0) = true ↔ bits w lo 1 = 1 := by
  rw [beq_iff_eq, bits]
  omega

/-- An accepted row is well formed, and its word is `w` when its parts are those of `w`. -/
theorem encodes_of_row {w : Nat} {b : Bool} {i j : Instr} (h : row b i = .ok j) (he : b = true → encodeNat i = some w) :
    j.wf = true ∧ encodeNat j = some w := by
  obtain ⟨hb, hi, rfl⟩ := row_eq_ok.mp h
  exact ⟨hi, he hb⟩

theorem encodeNat_of_decodeMajor {w : Nat} {i : Instr} (hw : w < 2 ^ 32) (h : decodeMajor w = .ok i) :
    i.wf = true ∧ encodeNat i = some w := by
  have h32 := lowBits_all hw
  have h0 := lowBits_zero w
  clear hw
  unfold decodeMajor at h
  split at h
  all_goals try simp only [
    decode00, decode01, decode02, decode03, decode04, decode05, decode06, decode07, decode08, decode09, decode0A, decode0B,
    decode0C, decode0D, decode0E, decode10, decode11, decode12, decode13, decode14, decode15, decode16, decode18, decode19,
    decode1A, decode1B, decode1C, decode1D, decode1E, decode1F, decode20, decode21, decode22, decode23, decode24, decode25,
    decode26, decode27, decode2B, decode28, decode29, decode2A, decode2C, decode2D, decode30, decode31, decode32, decode33,
    decode34, decode35, decode36, decode3F] at h
  all_goals repeat' split at h
  all_goals try contradiction
  all_goals
    refine encodes_of_row h fun hf => congrArg some ?_
    clear h
    simp only [Bool.and_eq_true, beq_iff_eq, ↓bits_one_ne_zero_iff, bits_eq_iff_lowBits, Nat.reduceAdd] at *
    zify
    simp only [word, Nat.cast_add, cast_put_fld, Nat.reduceAdd]
    push_cast
    omega

/-- What decodes is what its major decodes it to. -/
theorem decodeMajor_of_decodeNat {w : Nat} {i : Instr} (h : decodeNat w = .ok i) : decodeMajor w = .ok i := by
  unfold decodeNat at h
  split at h
  · contradiction
  · split at h
    · contradiction
    · exact h

/-- Settles O54: the rows of the table are read back from their words, and the words that decode are put together again
from what their decoder tested and read. -/
theorem encodingRoundTrip : Obligations.encoding_round_trip :=
  ⟨fun _ _ hw h => decodeNat_of_encodeNat hw h, fun _ _ hw h => encodeNat_of_decodeMajor hw (decodeMajor_of_decodeNat h)⟩

end Sys2Proof

/-! # Extended immediates (O6) -/

namespace Sys2Proof.Machine

/-- Two fields side by side make the sum of the upper one, shifted, and the lower one. -/
theorem toNat_append_eq_add {m n : Nat} (x : BitVec m) (y : BitVec n) : (x ++ y).toNat = x.toNat * 2 ^ n + y.toNat := by
  rw [BitVec.toNat_append, ← Nat.shiftLeft_add_eq_or_of_lt y.isLt, Nat.shiftLeft_eq]

/-- The number an extendable field and the hint bits above it make, as a bit vector: `extField` extends it as one field. -/
theorem extField_of_toNat {c : Ctx} {f w m : Nat} (y : BitVec m) (hm : 0 < m) (hw : w + 24 * c.hcnt.toNat = m)
    (hy : f + (if 1 ≤ c.hcnt.toNat then c.hpay.toNat % 2 ^ 24 * 2 ^ w else 0)
      + (if 2 ≤ c.hcnt.toNat then c.hpay.toNat / 2 ^ 24 * 2 ^ (w + 24) else 0) = y.toNat) :
    extField c f w true = y.signExtend 64 ∧ extField c f w false = y.setWidth 64 := by
  subst hw
  have hlt := Nat.mod_eq_of_lt y.isLt
  have hpow : 2 ^ (w + 24 * c.hcnt.toNat) = 2 * 2 ^ (w + 24 * c.hcnt.toNat - 1) := by
    rw [← Nat.pow_succ', Nat.succ_eq_add_one, Nat.sub_add_cancel hm]
  constructor
  · simp only [extField, hy, hlt, true_and]
    rw [BitVec.signExtend, BitVec.toInt_eq_toNat_cond]
    split <;> split
    · omega
    · rfl
    · rw [BitVec.ofInt_natCast]
    · omega
  · simp only [extField, hy, hlt, Bool.false_eq_true, false_and, if_false, BitVec.ofNat_toNat]

/-- Settles O6: the value of each field is the number that it and its hint bits make side by side. -/
theorem extendedImmediates : Obligations.extended_immediates := by
  intro c w f hw
  refine ⟨fun h => ?_, fun h => ?_, fun h => ?_⟩
  · exact extField_of_toNat f hw (by rw [h]; rfl) (by simp [h])
  · refine extField_of_toNat _ (by omega) (by rw [h]; exact add_comm w 24) ?_
    rw [toNat_append_eq_add, BitVec.extractLsb'_toNat]
    simp [h, add_comm]
  · refine extField_of_toNat _ (by omega) (by rw [h]; exact add_comm w 48) ?_
    rw [toNat_append_eq_add, h]
    calc f.toNat + (c.hpay.toNat % 2 ^ 24 * 2 ^ w) + c.hpay.toNat / 2 ^ 24 * 2 ^ (w + 24)
        = (c.hpay.toNat / 2 ^ 24 * 2 ^ 24 + c.hpay.toNat % 2 ^ 24) * 2 ^ w + f.toNat := by ring
      _ = c.hpay.toNat * 2 ^ w + f.toNat := by rw [Nat.div_add_mod']

end Sys2Proof.Machine

/-! # Hint words (O17) and words that are no instruction (O18) -/

namespace Sys2Proof.Machine

/-! ### The meanings of the hint words -/

theorem exec_hext (p : BitVec 24) (s : State) : exec (.hext p) s = execHext p s := rfl
theorem exec_hsched (c : BitVec 24) (s : State) : exec (.hsched c) s = execHsched c s := rfl
theorem exec_hmod (la : BitVec 4) (v : BitVec 1) (r : Reg) (k n : BitVec 1) (s : State) :
    exec (.hmod la v r k n) s = execHmod la v r k n s := rfl

/-- The five fields of an hmod are found again in its ten bits. -/
theorem hmod_fields (la : BitVec 4) (v : BitVec 1) (r : Reg) (k n : BitVec 1) :
    (la ++ v ++ r ++ k ++ n).extractLsb' 6 4 = la ∧ (la ++ v ++ r ++ k ++ n).extractLsb' 5 1 = v
      ∧ (la ++ v ++ r ++ k ++ n).extractLsb' 2 3 = r ∧ (la ++ v ++ r ++ k ++ n).extractLsb' 1 1 = k
      ∧ (la ++ v ++ r ++ k ++ n).extractLsb' 0 1 = n := by
  refine ⟨?_, ?_, ?_, ?_, BitVec.extractLsb'_append_eq_right⟩
  · rw [BitVec.extractLsb'_append_eq_of_le (by decide), BitVec.extractLsb'_append_eq_of_le (by decide),
      BitVec.extractLsb'_append_eq_of_le (by decide)]
    exact BitVec.extractLsb'_append_eq_left
  · rw [BitVec.extractLsb'_append_eq_of_le (by decide), BitVec.extractLsb'_append_eq_of_le (by decide),
      BitVec.extractLsb'_append_eq_of_le (by decide)]
    exact BitVec.extractLsb'_append_eq_right
  · rw [BitVec.extractLsb'_append_eq_of_le (by decide), BitVec.extractLsb'_append_eq_of_le (by decide)]
    exact BitVec.extractLsb'_append_eq_right
  · rw [BitVec.extractLsb'_append_eq_of_le (by decide)]
    exact BitVec.extractLsb'_append_eq_right

/-- The word of an hmod is that of its ten bits. -/
theorem hmodOf_append (la : BitVec 4) (v : BitVec 1) (r : Reg) (k n : BitVec 1) :
    hmodOf (la ++ v ++ r ++ k ++ n) = wordOf (.hmod la v r k n) := by
  obtain ⟨hl, hv, hr, hk, hn⟩ := hmod_fields la v r k n
  rw [hmodOf, hl, hv, hr, hk, hn]

/-- A hint word that is no target and that its meaning accepts is done. -/
theorem issueHint_done {f : Line → Except Trap Line} {s : State} {t : LiveLine} {l : Line} (ht : s.thr = some t)
    (hm : t.md = none) (hf : f t.line = .ok l) : issueHint f s = .next (done s t l) := by
  simp only [issueHint, ht, hm, hf, done]

/-- A hint word that is no target and that its meaning refuses traps. -/
theorem issueHint_trap {f : Line → Except Trap Line} {s : State} {t : LiveLine} {e : Trap} (ht : s.thr = some t)
    (hm : t.md = none) (hf : f t.line = .error e) : issueHint f s = .next (trapped s t e) := by
  simp only [issueHint, ht, hm, hf, finishIssue, trapped]

/-- A hint word behind an hmod is the illegal-instruction trap of the hmod (R66). -/
theorem issueHint_target {f : Line → Except Trap Line} {s : State} {t : LiveLine} {m : BitVec 10} (ht : s.thr = some t)
    (hm : t.md = some m) : issueHint f s = .next (trapped s t (trapIllegal (hmodOf m))) := by
  simp only [issueHint, ht, hm, finishIssue, trapped]

/-- The line that a hext leaves (R64): its bits stand above those of an earlier hint. -/
def hextLine (l : Line) (p : BitVec 24) : Line :=
  if l.hcnt = 0 then { l with hcnt := 1, hpay := (l.hpay.extractLsb' 24 24) ++ p }
  else { l with hcnt := l.hcnt + 1, hpay := p ++ (l.hpay.extractLsb' 0 24) }

theorem execHext_done {s : State} {t : LiveLine} (p : BitVec 24) (ht : s.thr = some t) (hm : t.md = none)
    (h2 : t.line.hcnt ≠ 2) : execHext p s = .next (done s t (hextLine t.line p)) := by
  refine issueHint_done ht hm ?_
  rw [if_neg h2, hextLine]
  split <;> rfl

theorem execHext_third {s : State} {t : LiveLine} (p : BitVec 24) (ht : s.thr = some t) (hm : t.md = none)
    (h2 : t.line.hcnt = 2) : execHext p s = .next (trapped s t (trapIllegal (wordOf (.hext p)))) :=
  issueHint_trap ht hm (if_pos h2)

/-- An hmod before a word that is no hint keeps its bits for that word (R66). -/
theorem execHmod_held {la : BitVec 4} {v : BitVec 1} {r : Reg} {k n : BitVec 1} {s : State} {t : LiveLine}
    (ht : s.thr = some t) (hm : t.md = none) (hf : hintFollows s t = false) :
    execHmod la v r k n s
      = .next { countIssue s t.place with thr := some { agedLine s t with md := some (la ++ v ++ r ++ k ++ n), word := none } } := by
  simp only [execHmod, ht, hm, hf, Option.isSome_none, Bool.or_self, Bool.false_eq_true, if_false]

/-- An hmod that is a target, or before a hint word, is illegal (R66). -/
theorem execHmod_trap {la : BitVec 4} {v : BitVec 1} {r : Reg} {k n : BitVec 1} {s : State} {t : LiveLine}
    (ht : s.thr = some t) (h : (t.md.isSome || hintFollows s t) = true) :
    execHmod la v r k n s = .next (trapped s t (trapIllegal (hmodOf (t.md.getD (la ++ v ++ r ++ k ++ n))))) := by
  simp only [execHmod, ht, h, if_true, finishIssue, trapped]

/-- Settles O17: a hint word answers by its position, as target or not, and by the hints that wait. -/
theorem hintWords : Obligations.hint_words := by
  intro p c la v r k n s t ht
  rw [exec_hext, exec_hsched, exec_hmod]
  refine ⟨fun hm h0 => ?_, fun hm h1 => ?_, fun hm h2 => execHext_third p ht hm h2, fun hm => issueHint_done ht hm rfl,
    fun m hm => ⟨issueHint_target ht hm, issueHint_target ht hm, ?_⟩, fun hm hf => ?_, fun hm hf => ?_⟩
  · refine ⟨_, execHext_done p ht hm (by rw [h0]; decide), ?_, ?_⟩
    · simp [hextLine, h0]
    · rw [hextLine, if_pos h0]
      exact BitVec.extractLsb'_append_eq_right
  · refine ⟨_, execHext_done p ht hm (by rw [h1]; decide), ?_, ?_, ?_⟩
    · simp [hextLine, h1]
    · rw [hextLine, if_neg (by rw [h1]; decide)]
      exact BitVec.extractLsb'_append_eq_left
    · rw [hextLine, if_neg (by rw [h1]; decide)]
      exact BitVec.extractLsb'_append_eq_right
  · rw [execHmod_trap ht (by simp [hm]), hm, Option.getD_some]
  · refine ⟨_, execHmod_held ht hm hf, rfl, ?_⟩
    unfold countIssue
    cases t.place <;> rfl
  · rw [execHmod_trap ht (by simp [hf]), hm, Option.getD_none, hmodOf_append]

/-! ### Words that are no instruction -/

theorem exec_notAnInstructionWord (w : BitVec 32) (s : State) : exec (.notAnInstructionWord w) s = execNotAnInstructionWord w s := rfl

theorem execNotAnInstructionWord_trap {w : BitVec 32} {s : State} {t : LiveLine} {e : Trap} (ht : s.thr = some t)
    (he : rejectTrap s w.toNat = some e) : execNotAnInstructionWord w s = .next (trapped s t e) := by
  simp only [execNotAnInstructionWord, ht, he, finishIssue, trapped]

/-- Settles O18: the trap is chosen by the features of the word and by its decoding alone. -/
theorem rejectedWords : Obligations.rejected_words := by
  intro w s t ht
  rw [exec_notAnInstructionWord]
  refine ⟨fun hf hd => ?_, fun hf hd => ?_, fun hf => ?_⟩
  · exact execNotAnInstructionWord_trap ht (by simp only [rejectTrap, hf, hd, if_true, trapIllegal])
  · exact execNotAnInstructionWord_trap ht (by simp only [rejectTrap, hf, hd, if_true, trapEmulation])
  · exact execNotAnInstructionWord_trap ht (by simp only [rejectTrap, hf, Bool.false_eq_true, if_false, trapEmulation])

end Sys2Proof.Machine

/-! # Sample words (O53) -/

namespace Sys2Proof

/-- Words that decode to their instructions are the words of these instructions. -/
theorem encode_back_of_decodes {l : List (Nat × Instr)} (h : ∀ p ∈ l, p.1 < 2 ^ 32 ∧ decodeNat p.1 = .ok p.2) :
    ∀ p ∈ l, decodeNat p.1 = .ok p.2 ∧ encodeNat p.2 = some p.1 ∧ p.2.wf = true := by
  intro p hp
  obtain ⟨hlt, hd⟩ := h p hp
  obtain ⟨hw, he⟩ := encodeNat_of_decodeMajor hlt (decodeMajor_of_decodeNat hd)
  exact ⟨hd, he, hw⟩

/-- Settles O53: the decoder is run on each word, and the round trip gives the rest. -/
theorem sampleWordsDecode : Obligations.sample_words_decode :=
  encode_back_of_decodes (by decide +kernel)

end Sys2Proof

/-! # Memory as numbers, words and line images -/

namespace Sys2Proof.Machine

/-! ### Little-endian numbers -/

/-- A number written as `n` bytes reads back, cut to `n` bytes (R3). -/
theorem leNat_natLe (v n : Nat) : leNat (natLe v n) = v % 256 ^ n := by
  induction n generalizing v with
  | zero => simp [natLe, leNat, Nat.mod_one]
  | succ n ih => rw [natLe, leNat, ih, BitVec.toNat_ofNat, pow_succ' 256 n, Nat.mod_mul]

/-- Byte `i` of a number is the element `i` of its bytes. -/
theorem leNat_div_mod (l : List Byte) (i : Nat) : leNat l / 256 ^ i % 256 = (l.getD i 0).toNat := by
  induction l generalizing i with
  | nil => simp [leNat]
  | cons b t ih =>
    have hb := b.isLt
    cases i with
    | zero => simp only [leNat, pow_zero, List.getD_cons_zero]; omega
    | succ i =>
      rw [List.getD_cons_succ, ← ih i, leNat, pow_succ', ← Nat.div_div_eq_div_mul]
      congr 2
      omega

theorem leNat_lt (l : List Byte) : leNat l < 256 ^ l.length := by
  induction l with
  | nil => simp [leNat]
  | cons b t ih =>
    have hb := b.isLt
    rw [leNat, List.length_cons, pow_succ']
    omega

/-! ### Reading after a write -/

/-- A read depends on the bytes it reads. -/
theorem memBytes_congr {m m' : Memory} {k n : Nat} (h : ∀ j, k ≤ j → j < k + n → byteAt j m.bytes = byteAt j m'.bytes) :
    memBytes m k n = memBytes m' k n := by
  induction n generalizing k with
  | zero => rfl
  | succ n ih => rw [memBytes, memBytes, h k (le_refl k) (by omega), ih fun j h1 h2 => h j (by omega) (by omega)]

/-- The bytes written are the bytes read. -/
theorem memBytes_memPut (m : Memory) (k : Nat) (bs : List Byte) (h : cellsWf m.bytes = true) :
    memBytes (memPut m k bs) k bs.length = bs := by
  induction bs generalizing m k with
  | nil => rfl
  | cons b t ih =>
    have hput : memPut m k (b :: t) = memPut { m with bytes := bytePut k b m.bytes } (k + 1) t := rfl
    have hb : byteAt k (memPut m k (b :: t)).bytes = b := by
      rw [hput]
      exact (byteAt_cellsPut_outside t (k + 1) k _ (by omega)).trans (byteAt_bytePut_self k b _ h)
    rw [List.length_cons, memBytes, hb, hput, ih _ _ (cellsWf_bytePut k b _ h)]

theorem memRead_congr {m m' : Memory} {k n : Nat} (h : ∀ j, k ≤ j → j < k + n → byteAt j m.bytes = byteAt j m'.bytes) :
    memRead m k n = memRead m' k n := by
  rw [memRead, memRead, memBytes_congr h]

/-- A number written reads back, cut to the bytes written. -/
theorem memRead_memWrite {m : Memory} (h : memWf m = true) (k n v : Nat) : memRead (memWrite m k n v) k n = v % 256 ^ n := by
  have hb := memBytes_memPut m k (natLe v n) ((memWf_iff m).mp h).1
  rw [length_natLe] at hb
  rw [memRead, memWrite, hb, leNat_natLe]

/-- A read is the read of its lower bytes and of those above. -/
theorem memRead_add (m : Memory) (k a b : Nat) : memRead m k (a + b) = memRead m k a + 256 ^ a * memRead m (k + a) b := by
  induction a generalizing k with
  | zero => simp [memRead, memBytes, leNat]
  | succ a ih =>
    have hcons : ∀ n, memRead m k (n + 1) = (byteAt k m.bytes).toNat + 256 * memRead m (k + 1) n := fun _ => rfl
    rw [show a + 1 + b = a + b + 1 by omega, hcons, hcons, ih, show k + 1 + a = k + (a + 1) by omega]
    ring

theorem memRead_lt (m : Memory) (k n : Nat) : memRead m k n < 256 ^ n := by
  have hlen : ∀ n k, (memBytes m k n).length = n := by
    intro n
    induction n with
    | zero => intro _; rfl
    | succ n ih => intro k; rw [memBytes, List.length_cons, ih]
  have h := leNat_lt (memBytes m k n)
  rwa [hlen] at h

theorem toNat_memWord (m : Memory) (k : Nat) : (memWord m k).toNat = memRead m k 8 := by
  rw [memWord, BitVec.toNat_ofNat]
  exact Nat.mod_eq_of_lt (memRead_lt m k 8)

/-- A word depends on its eight bytes. -/
theorem memWord_congr {m m' : Memory} {k : Nat} (h : ∀ j, k ≤ j → j < k + 8 → byteAt j m.bytes = byteAt j m'.bytes) :
    memWord m k = memWord m' k := by
  rw [memWord, memWord, memRead_congr h]

/-- A word written reads back. -/
theorem memWord_memWrite_self {m : Memory} (h : memWf m = true) (k : Nat) (w : Word) : memWord (memWrite m k 8 w.toNat) k = w := by
  apply BitVec.eq_of_toNat_eq
  rw [toNat_memWord, memRead_memWrite h]
  exact Nat.mod_eq_of_lt w.isLt

/-- A write beside a word leaves it. -/
theorem memWord_memWrite_ne (m : Memory) {k j n : Nat} (v : Nat) (h : k + 8 ≤ j ∨ j + n ≤ k) :
    memWord (memWrite m j n v) k = memWord m k :=
  memWord_congr fun i h1 h2 => byteAt_memWrite_outside m j n v i (by omega)

/-! ### Words as line images -/

theorem ofFn_word_congr {v w : Nat → Word} (h : ∀ i, i < 8 → v i = w i) :
    (Vector.ofFn fun i : Fin 8 => v i.val) = Vector.ofFn fun i : Fin 8 => w i.val := by
  congr 1
  funext i
  exact h i.val i.isLt

/-- The words 0 to 15 make the line. -/
theorem lineOf_congr {v w : Nat → Word} (h : ∀ i, i < 16 → v i = w i) : lineOf v = lineOf w := by
  simp only [lineOf, ofFn_word_congr fun i hi => h i (by omega), h 8 (by decide), h 9 (by decide), h 10 (by decide),
    h 11 (by decide), h 12 (by decide), h 13 (by decide), h 14 (by decide), h 15 (by decide)]

/-- Word 10 is the wait tag. -/
theorem lineOf_wait {v w : Nat → Word} (h : ∀ i, i ≠ 10 → v i = w i) : lineOf v = { lineOf w with wait := v 10 } := by
  simp only [lineOf, ofFn_word_congr fun i hi => h i (by omega), h 8 (by decide), h 9 (by decide), h 11 (by decide),
    h 12 (by decide), h 13 (by decide), h 14 (by decide), h 15 (by decide)]

/-- The low half of word 15 is LVER. -/
theorem lineOf_lver {v w : Nat → Word} (h : ∀ i, i < 15 → v i = w i)
    (hhigh : (v 15).extractLsb' 32 32 = (w 15).extractLsb' 32 32) :
    lineOf v = { lineOf w with lver := (v 15).extractLsb' 0 32 } := by
  simp only [lineOf, ofFn_word_congr fun i hi => h i (by omega), h 8 (by decide), h 9 (by decide), h 10 (by decide),
    h 11 (by decide), h 12 (by decide), h 13 (by decide), h 14 (by decide), hhigh]

/-- What is read of a word is right when the word is written where it differs from a word of which the same was read. -/
theorem proj_patch {α : Type} (p : Word → α) {m o n : Word} (h : p m = p o) : p (if n = o then m else n) = p n := by
  split
  · rename_i hn
    rw [h, hn]
  · rfl

/-- Of words that made the line of `o`, those written where `n` differs from `o` make the line of `n`. -/
theorem lineOf_patch {m o n : Nat → Word} (h : lineOf m = lineOf o) :
    lineOf (fun i => if n i = o i then m i else n i) = lineOf n := by
  have hg : ∀ i : Fin 8, m i.val = o i.val := by
    intro i
    have := congrArg (fun l => l.g[i]) h
    simpa [lineOf] using this
  simp only [lineOf, Line.mk.injEq] at h ⊢
  obtain ⟨-, h1, h2, h3, h4, h5, h6, h7, h8, h9, h10, h11, h12, h13, h14, h15, h16, h17, h18, h19, h20, h21, h22, h23, h24, h25⟩ := h
  have patch := fun {α : Type} (p : Word → α) (i : Nat) (h : p (m i) = p (o i)) => proj_patch p (n := n i) h
  refine ⟨?_, patch (fun w => w.extractLsb' 0 48) 8 h1, patch (fun w => w.extractLsb' 48 2) 8 h2,
    patch (fun w => w.extractLsb' 50 2) 8 h3, patch (fun w => wbit w 52) 8 h4, patch (fun w => w.extractLsb' 56 5) 8 h5,
    patch (fun w => (unpackBytes w).set 0 0xFF) 9 h6, patch id 10 h7, patch unpackBytes 11 h8,
    patch (fun w => w.extractLsb' 0 8) 12 h9, patch (fun w => w.extractLsb' 8 16) 12 h10,
    patch (fun w => w.extractLsb' 24 4) 12 h11, patch (fun w => w.extractLsb' 28 2) 12 h12,
    patch (fun w => wbit w 30) 12 h13, patch (fun w => wbit w 31) 12 h14, patch (fun w => wbit w 32) 12 h15,
    patch (fun w => w.extractLsb' 0 8) 13 h16, patch (fun w => w.extractLsb' 8 4) 13 h17, patch (fun w => wbit w 12) 13 h18,
    patch (fun w => w.extractLsb' 13 2) 13 h19, patch (fun w => w.extractLsb' 16 48) 13 h20,
    patch (fun w => w.extractLsb' 0 8) 14 h21, patch (fun w => w.extractLsb' 8 5) 14 h22,
    patch (fun w => w.extractLsb' 16 48) 14 h23, patch (fun w => w.extractLsb' 0 32) 15 h24,
    patch (fun w => w.extractLsb' 32 32) 15 h25⟩
  congr 1
  funext i
  exact proj_patch id (hg i)

/-! ### The words of a line -/

theorem extractLsb'_ofNat (N a n : Nat) : (BitVec.ofNat 64 N).extractLsb' a n = BitVec.ofNat n (N % 2 ^ 64 / 2 ^ a) := by
  apply BitVec.eq_of_toNat_eq
  simp [Nat.shiftRight_eq_div_pow]

theorem b2n_le (b : Bool) : b2n b ≤ 1 := by
  cases b <;> decide

/-- Bit `a` of a number, read as a number. -/
theorem wbit_ofNat {N a : Nat} {b : Bool} (h : N % 2 ^ 64 / 2 ^ a % 2 = b2n b) : wbit (BitVec.ofNat 64 N) a = b := by
  have : wbit (BitVec.ofNat 64 N) a = (N % 2 ^ 64).testBit a := rfl
  rw [this, Nat.testBit_eq_decide_div_mod_eq, h]
  cases b <;> rfl

/-- A field of a word that holds `x` at bit `a`. -/
theorem extractLsb'_ofNat_eq {N a n : Nat} {x : BitVec n} (h : N % 2 ^ 64 / 2 ^ a % 2 ^ n = x.toNat) :
    (BitVec.ofNat 64 N).extractLsb' a n = x := by
  apply BitVec.eq_of_toNat_eq
  rw [extractLsb'_ofNat, BitVec.toNat_ofNat, h]

theorem unpackBytes_packBytes (v : Vector Byte 8) : unpackBytes (packBytes v) = v := by
  apply Vector.ext
  intro i hi
  have hlt : leNat v.toList < 2 ^ 64 := by
    have := leNat_lt v.toList
    rwa [Vector.length_toList] at this
  have hget : v.toList.getD i 0 = v[i] := by
    rw [List.getD_eq_getElem _ _ (by simpa using hi)]
    simp
  rw [unpackBytes, Vector.getElem_ofFn]
  refine extractLsb'_ofNat_eq ?_
  rw [Nat.mod_eq_of_lt hlt, pow_mul, ← hget]
  exact leNat_div_mod v.toList i

/-- The fields of the pc word (R28). -/
theorem pcWord_fields (l : Line) : (pcWord l).extractLsb' 0 48 = l.pc ∧ (pcWord l).extractLsb' 48 2 = l.rmode
    ∧ (pcWord l).extractLsb' 50 2 = l.tlvl ∧ wbit (pcWord l) 52 = l.tfb ∧ (pcWord l).extractLsb' 56 5 = l.fen := by
  have hpc := l.pc.isLt
  have hrm := l.rmode.isLt
  have htl := l.tlvl.isLt
  have htf := b2n_le l.tfb
  have hfe := l.fen.isLt
  refine ⟨extractLsb'_ofNat_eq ?_, extractLsb'_ofNat_eq ?_, extractLsb'_ofNat_eq ?_, wbit_ofNat ?_, extractLsb'_ofNat_eq ?_⟩
    <;> omega

/-- The fields of the identity word (R34). -/
theorem identityWord_fields (l : Line) : (identityWord l).extractLsb' 0 8 = l.tenant ∧ (identityWord l).extractLsb' 8 16 = l.job
    ∧ (identityWord l).extractLsb' 24 4 = l.prio ∧ (identityWord l).extractLsb' 28 2 = l.sdom
    ∧ wbit (identityWord l) 30 = l.hnd ∧ wbit (identityWord l) 31 = l.fin ∧ wbit (identityWord l) 32 = l.root := by
  have hte := l.tenant.isLt
  have hjo := l.job.isLt
  have hpr := l.prio.isLt
  have hsd := l.sdom.isLt
  have hhn := b2n_le l.hnd
  have hfi := b2n_le l.fin
  have hro := b2n_le l.root
  refine ⟨extractLsb'_ofNat_eq ?_, extractLsb'_ofNat_eq ?_, extractLsb'_ofNat_eq ?_, extractLsb'_ofNat_eq ?_, wbit_ofNat ?_,
    wbit_ofNat ?_, wbit_ofNat ?_⟩ <;> omega

/-- The fields of the pending and lookahead word (R20). -/
theorem pendWord_fields (l : Line) : (pendWord l).extractLsb' 0 8 = l.pend ∧ (pendWord l).extractLsb' 8 4 = l.lacnt
    ∧ wbit (pendWord l) 12 = l.laopen ∧ (pendWord l).extractLsb' 13 2 = l.hcnt ∧ (pendWord l).extractLsb' 16 48 = l.hpay := by
  have hpe := l.pend.isLt
  have hla := l.lacnt.isLt
  have hlo := b2n_le l.laopen
  have hhc := l.hcnt.isLt
  have hhp := l.hpay.isLt
  refine ⟨extractLsb'_ofNat_eq ?_, extractLsb'_ofNat_eq ?_, wbit_ofNat ?_, extractLsb'_ofNat_eq ?_, extractLsb'_ofNat_eq ?_⟩
    <;> omega

/-- The fields of the status word (R35). -/
theorem statusWord_fields (l : Line) : (statusWord l).extractLsb' 0 8 = l.fcode ∧ (statusWord l).extractLsb' 8 5 = l.fflg
    ∧ (statusWord l).extractLsb' 16 48 = l.tdata := by
  have hfc := l.fcode.isLt
  have hff := l.fflg.isLt
  have htd := l.tdata.isLt
  refine ⟨extractLsb'_ofNat_eq ?_, extractLsb'_ofNat_eq ?_, extractLsb'_ofNat_eq ?_⟩ <;> omega

/-- The fields of the ownership word (R36). -/
theorem ownerWord_fields (l : Line) : (ownerWord l).extractLsb' 0 32 = l.lver ∧ (ownerWord l).extractLsb' 32 32 = l.hwin := by
  have hlv := l.lver.isLt
  have hhw := l.hwin.isLt
  refine ⟨extractLsb'_ofNat_eq ?_, extractLsb'_ofNat_eq ?_⟩ <;> omega

/-- The first eight words of an image are the general registers. -/
theorem lineWords_getD_of_lt (l : Line) {i : Nat} (hi : i < 8) : (lineWords l).getD i 0 = l.g[i] := by
  rw [lineWords, List.getD_append _ _ _ _ (by simpa using hi), List.getD_eq_getElem _ _ (by simpa using hi)]
  simp

/-- The words above the registers (R8). -/
theorem lineWords_getD_add (l : Line) (i : Nat) : (lineWords l).getD (8 + i) 0 = [pcWord l, packBytes (l.q.set 0 0xFF), l.wait,
    packBytes l.tag, identityWord l, pendWord l, statusWord l, ownerWord l].getD i 0 := by
  rw [lineWords, List.getD_append_right _ _ _ _ (by simp)]
  simp

/-- The image of a line holds the line, whose q0 is all ones (R8, R13). -/
theorem lineOf_lineWords {l : Line} (hq : l.q.set 0 0xFF = l.q) : lineOf (fun i => (lineWords l).getD i 0) = l := by
  have hg : (Vector.ofFn fun i : Fin 8 => (lineWords l).getD i.val 0) = l.g := by
    apply Vector.ext
    intro i hi
    rw [Vector.getElem_ofFn]
    exact lineWords_getD_of_lt l hi
  have h8 : (lineWords l).getD 8 0 = pcWord l := lineWords_getD_add l 0
  have h9 : (lineWords l).getD 9 0 = packBytes (l.q.set 0 0xFF) := lineWords_getD_add l 1
  have h10 : (lineWords l).getD 10 0 = l.wait := lineWords_getD_add l 2
  have h11 : (lineWords l).getD 11 0 = packBytes l.tag := lineWords_getD_add l 3
  have h12 : (lineWords l).getD 12 0 = identityWord l := lineWords_getD_add l 4
  have h13 : (lineWords l).getD 13 0 = pendWord l := lineWords_getD_add l 5
  have h14 : (lineWords l).getD 14 0 = statusWord l := lineWords_getD_add l 6
  have h15 : (lineWords l).getD 15 0 = ownerWord l := lineWords_getD_add l 7
  obtain ⟨hpc, hrm, htl, htf, hfe⟩ := pcWord_fields l
  obtain ⟨hte, hjo, hpr, hsd, hhn, hfi, hro⟩ := identityWord_fields l
  obtain ⟨hpe, hla, hlo, hhc, hhp⟩ := pendWord_fields l
  obtain ⟨hfc, hff, htd⟩ := statusWord_fields l
  obtain ⟨hlv, hhw⟩ := ownerWord_fields l
  simp only [lineOf, hg, h8, h9, h10, h11, h12, h13, h14, h15, unpackBytes_packBytes, hq, hpc, hrm, htl, htf, hfe, hte, hjo, hpr,
    hsd, hhn, hfi, hro, hpe, hla, hlo, hhc, hhp, hfc, hff, htd, hlv, hhw]

/-! ### Line images in memory -/

/-- Byte 72 of an image is not read (R13). -/
theorem memLine_q (m : Memory) (k : Nat) : (memLine m k).q.set 0 0xFF = (memLine m k).q := by
  simp [memLine, lineOf]

/-- The wait word of an image. -/
theorem memLine_wait (m : Memory) (k : Nat) : (memLine m k).wait = memWord m (k + 80) := rfl

/-- Write `n` words from `k` up, each only where it changes. -/
def patchWords (m : Memory) (k : Nat) (o w : Nat → Word) (n : Nat) : Memory :=
  (List.range n).foldl (fun m i => if w i = o i then m else memWrite m (k + 8 * i) 8 (w i).toNat) m

theorem patchWords_succ (m : Memory) (k : Nat) (o w : Nat → Word) (n : Nat) :
    patchWords m k o w (n + 1) = if w n = o n then patchWords m k o w n else memWrite (patchWords m k o w n) (k + 8 * n) 8 (w n).toNat := by
  rw [patchWords, List.range_succ, List.foldl_append]
  rfl

/-- An image is written word by word. -/
theorem writeImage_eq_patchWords (m : Memory) (k : Nat) (old new : Line) :
    writeImage m k old new = patchWords m k (fun i => (lineWords old).getD i 0) (fun i => (lineWords new).getD i 0) 16 := rfl

theorem memWf_patchWords {m : Memory} (h : memWf m = true) (k : Nat) (o w : Nat → Word) (n : Nat) :
    memWf (patchWords m k o w n) = true := by
  induction n with
  | zero => exact h
  | succ n ih =>
    rw [patchWords_succ]
    split
    · exact ih
    · exact memWf_memWrite _ _ _ _ ih

/-- Bytes outside the words stay. -/
theorem byteAt_patchWords_outside (m : Memory) (k : Nat) (o w : Nat → Word) {n j : Nat} (h : j < k ∨ k + 8 * n ≤ j) :
    byteAt j (patchWords m k o w n).bytes = byteAt j m.bytes := by
  induction n with
  | zero => rfl
  | succ n ih =>
    rw [patchWords_succ]
    split
    · exact ih (by omega)
    · rw [byteAt_memWrite_outside _ _ _ _ _ (by omega), ih (by omega)]

/-- Each of the words reads as it is to be, or as it was where it was not to change. -/
theorem memWord_patchWords {m : Memory} (h : memWf m = true) (k : Nat) (o w : Nat → Word) {n i : Nat} (hi : i < n) :
    memWord (patchWords m k o w n) (k + 8 * i) = if w i = o i then memWord m (k + 8 * i) else w i := by
  induction n with
  | zero => omega
  | succ n ih =>
    rw [patchWords_succ]
    rcases Nat.lt_succ_iff_lt_or_eq.mp hi with hlt | rfl
    · split
      · exact ih hlt
      · rw [memWord_memWrite_ne _ _ (by omega), ih hlt]
    · split
      · exact memWord_congr fun j h1 h2 => byteAt_patchWords_outside m k o w (by omega)
      · exact memWord_memWrite_self (memWf_patchWords h k o w i) _ _

/-- An image written in place of the one that stood there reads back. -/
theorem memLine_writeImage {m : Memory} (h : memWf m = true) (k : Nat) {new : Line} (hq : new.q.set 0 0xFF = new.q) :
    memLine (writeImage m k (memLine m k) new) k = new := by
  have hold := lineOf_lineWords (memLine_q m k)
  rw [writeImage_eq_patchWords]
  calc memLine (patchWords m k _ _ 16) k
      = lineOf fun i => if (lineWords new).getD i 0 = (lineWords (memLine m k)).getD i 0 then memWord m (k + 8 * i)
          else (lineWords new).getD i 0 := lineOf_congr fun i hi => memWord_patchWords h k _ _ hi
    _ = lineOf fun i => (lineWords new).getD i 0 := lineOf_patch hold.symm
    _ = new := lineOf_lineWords hq

/-- An image is written within its 128 bytes. -/
theorem byteAt_writeImage_outside (m : Memory) (k : Nat) (old new : Line) {j : Nat} (h : j < k ∨ k + 128 ≤ j) :
    byteAt j (writeImage m k old new).bytes = byteAt j m.bytes := by
  rw [writeImage_eq_patchWords]
  exact byteAt_patchWords_outside m k _ _ h

/-- A write of the wait word changes the wait tag of the image. -/
theorem memLine_memWrite_wait {m : Memory} (h : memWf m = true) (k : Nat) (w : Word) :
    memLine (memWrite m (k + 80) 8 w.toNat) k = { memLine m k with wait := w } := by
  have hself : memWord (memWrite m (k + 80) 8 w.toNat) (k + 8 * 10) = w := memWord_memWrite_self h _ _
  rw [memLine, lineOf_wait fun i hi => memWord_memWrite_ne m w.toNat (k := k + 8 * i) (by omega), hself]
  rfl

/-- A write of the low half of the last word changes LVER of the image. -/
theorem memLine_memWrite_lver {m : Memory} (h : memWf m = true) (k : Nat) (v : BitVec 32) :
    memLine (memWrite m (k + 120) 4 v.toNat) k = { memLine m k with lver := v } := by
  have hlow : memRead (memWrite m (k + 120) 4 v.toNat) (k + 120) 4 = v.toNat := by
    rw [memRead_memWrite h]
    exact Nat.mod_eq_of_lt v.isLt
  have hhigh : memRead (memWrite m (k + 120) 4 v.toNat) (k + 124) 4 = memRead m (k + 124) 4 :=
    memRead_congr fun j h1 h2 => byteAt_memWrite_outside m _ 4 _ j (by omega)
  have hsplit : ∀ m, memRead m (k + 120) 8 = memRead m (k + 120) 4 + 2 ^ 32 * memRead m (k + 124) 4 :=
    fun m => memRead_add m (k + 120) 4 4
  have hl := memRead_lt m (k + 120) 4
  have hr := memRead_lt m (k + 124) 4
  have hv := v.isLt
  have hlver : (memWord (memWrite m (k + 120) 4 v.toNat) (k + 8 * 15)).extractLsb' 0 32 = v := by
    refine extractLsb'_ofNat_eq ?_
    rw [hsplit, hlow, hhigh]
    omega
  rw [memLine, lineOf_lver (fun i hi => memWord_memWrite_ne m v.toNat (k := k + 8 * i) (by omega)) ?_, hlver]
  · rfl
  · rw [memWord, memWord, extractLsb'_ofNat, extractLsb'_ofNat, hsplit, hsplit, hlow, hhigh]
    congr 1
    omega

end Sys2Proof.Machine

/-! # Lines by tenant and address, and what leaves them alone -/

namespace Sys2Proof.Machine

/-! ### Finding and putting lines -/

theorem isLine_iff {t a : Nat} {x : LiveLine} : isLine t a x = true ↔ x.tenant = t ∧ x.addr = a := by
  simp [isLine]

@[simp] theorem isLine_self (x : LiveLine) : isLine x.tenant x.addr x = true := isLine_iff.mpr ⟨rfl, rfl⟩

/-- The line found is the one asked for. -/
theorem findLine_some {s : State} {t a : Nat} {x : LiveLine} (h : findLine s t a = some x) : x.tenant = t ∧ x.addr = a :=
  isLine_iff.mp (List.find?_some h)

theorem findLine_congr {s s' : State} (h : s'.lines = s.lines) (t a : Nat) : findLine s' t a = findLine s t a := by
  rw [findLine, findLine, h]

/-- `putLine` changes nothing but the lines. -/
theorem putLine_frame (s : State) (x : LiveLine) : putLine s x = { s with lines := (putLine s x).lines } := by
  unfold putLine
  split <;> rfl

@[simp] theorem putLine_memory (s : State) (x : LiveLine) : (putLine s x).memory = s.memory := by rw [putLine_frame]
@[simp] theorem putLine_tenants (s : State) (x : LiveLine) : (putLine s x).tenants = s.tenants := by rw [putLine_frame]

/-- Where a line that matches is replaced, the replacement is found first. -/
theorem find?_map_replace {α : Type} {p : α → Bool} {x : α} (hx : p x = true) (l : List α) (h : l.any p = true) :
    (l.map fun y => if p y then x else y).find? p = some x := by
  induction l with
  | nil => simp at h
  | cons y l ih =>
    rw [List.map_cons]
    by_cases hy : p y = true
    · rw [if_pos hy, List.find?_cons_of_pos hx]
    · rw [if_neg hy, List.find?_cons_of_neg hy]
      exact ih (by simpa [hy] using h)

/-- The line put is the line found. -/
theorem findLine_putLine (s : State) (x : LiveLine) : findLine (putLine s x) x.tenant x.addr = some x := by
  unfold putLine
  split
  · exact find?_map_replace (isLine_self x) s.lines ‹_›
  · rename_i h
    have hnone : s.lines.find? (isLine x.tenant x.addr) = none := by simpa using h
    simp [findLine, List.find?_append, hnone]

/-- The same, asked for by the tenant and address of the line replaced. -/
theorem findLine_putLine_of {s : State} {x : LiveLine} {t a : Nat} (h : x.tenant = t ∧ x.addr = a) :
    findLine (putLine s x) t a = some x := by
  rw [← h.1, ← h.2]
  exact findLine_putLine s x

/-- A line taken away is not found. -/
theorem findLine_dropLine (s : State) (t a : Nat) : findLine (dropLine s t a) t a = none := by
  simp [findLine, dropLine]

/-! ### The cell of an address -/

/-- The cell an address names depends on the tenants' page tables alone. -/
theorem cellOf_congr {s s' : State} (h : s'.tenants = s.tenants) (t va : Nat) : cellOf s' t va = cellOf s t va := by
  rw [cellOf, cellOf, getTenant, getTenant, h]

/-! ### The issue record -/

@[simp] theorem countIssue_memory (s : State) (p : Place) : (countIssue s p).memory = s.memory := by
  unfold countIssue
  split <;> rfl

@[simp] theorem countIssue_lines (s : State) (p : Place) : (countIssue s p).lines = s.lines := by
  unfold countIssue
  split <;> rfl

/-! ### Reports keep the lines -/

theorem foldl_lines {α : Type} {f : State → α → State} (hf : ∀ s x, (f s x).lines = s.lines) (l : List α) (s : State) :
    (l.foldl f s).lines = s.lines := by
  induction l generalizing s with
  | nil => rfl
  | cons x l ih => rw [List.foldl_cons, ih, hf]

@[simp] theorem modTenant_lines (s : State) (t : Nat) (f : Tenant → Tenant) : (modTenant s t f).lines = s.lines := rfl
@[simp] theorem setCounter_lines (s : State) (c i : Nat) (v : Counter) : (setCounter s c i v).lines = s.lines := rfl
@[simp] theorem sendWakes_lines (s : State) (p : LiveLine → Word → Bool) : (sendWakes s p).lines = s.lines := rfl

@[simp] theorem setEngine_lines (s : State) (e : Nat) (v : Engine) : (setEngine s e v).lines = s.lines := by
  unfold setEngine
  split <;> rfl

@[simp] theorem enterReady_lines (s : State) (x : LiveLine) : (enterReady s x).lines = s.lines := by
  unfold enterReady
  extract_lets
  split <;> rfl

@[simp] theorem noteCorrupt_lines (s : State) (k n : Nat) : (noteCorrupt s k n).lines = s.lines := foldl_lines enterReady_lines _ s

@[simp] theorem wakeStored_lines (s : State) (k : Nat) : (wakeStored s k).lines = s.lines := by
  unfold wakeStored
  extract_lets
  exact foldl_lines (fun (s : State) (p : Pkt) => sendPkt_lines s { p with id := s.nextId }) _ _

@[simp] theorem writeLoc_lines (s : State) (l : Loc) (n v : Nat) : (writeLoc s l n v).lines = s.lines := by
  unfold writeLoc
  split
  · rw [noteCorrupt_lines, wakeStored_lines]
  · extract_lets
    split <;> rfl
  all_goals rfl

@[simp] theorem postOrBounce_lines (s : State) (t name inc : Nat) : (postOrBounce s t name inc).lines = s.lines := by
  unfold postOrBounce applyPost
  split <;> rfl

@[simp] theorem finishJob_lines (s : State) (eng entry : Nat) (f : JobEntry → JobEntry) :
    (finishJob s eng entry f).lines = s.lines := by
  simp only [finishJob, wakeJob, sendWakes_lines]
  split
  · rw [setEngine_lines]
  · rfl

@[simp] theorem completionPost_lines (s : State) (c : Cmd) : (completionPost s c).lines = s.lines := by
  unfold completionPost
  split
  · rw [postOrBounce_lines]
  · rfl

@[simp] theorem swapAbort_lines (s : State) (t level va : Nat) (w : Word) (m : PageMove) :
    (swapAbort s t level va w m).lines = s.lines := by
  simp only [swapAbort, wakePage, sendWakes_lines]
  split
  · simp [setLeaf]
  · rfl

@[simp] theorem swapInCore_lines (s : State) (t va : Nat) : (swapInCore s t va).1.lines = s.lines := by
  unfold swapInCore
  split
  · split
    · split
      · split
        · exact swapAbort_lines ..
        · rfl
      · extract_lets
        split <;> rfl
    · rfl
  · rfl

@[simp] theorem recordWrite_lines (s : State) (t key : Nat) (r : FaultRec) : (recordWrite s t key r).lines = s.lines := by
  simp only [recordWrite]
  split <;> simp

@[simp] theorem holdRecord_lines (s : State) (t : Nat) (r : FaultRec) : (holdRecord s t r).lines = s.lines := by
  unfold holdRecord
  split <;> rfl

@[simp] theorem swapInHeld_lines (s : State) (t va : Nat) : (swapInHeld s t va).lines = s.lines := by
  simp only [swapInHeld]
  split <;> simp

@[simp] theorem flushHeld_lines (s : State) (t n : Nat) : (flushHeld s t n).lines = s.lines := by
  induction n generalizing s with
  | zero => rfl
  | succ n ih =>
    simp only [flushHeld]
    split
    · rfl
    · split <;> simp [ih]

@[simp] theorem putRoot_lines (s : State) (t : Nat) (r : Nat × List Byte) : (putRoot s t r).lines = s.lines := by
  unfold putRoot
  split <;> rfl

@[simp] theorem flushAll_lines (s : State) (t : Nat) : (flushAll s t).lines = s.lines := by
  rw [flushAll, flushHeld_lines, foldl_lines fun s r => putRoot_lines s t r]
  rfl

/-- A report of a fault touches no line. -/
@[simp] theorem report_lines (s : State) (t : Nat) (r : FaultRec) : (report s t r).lines = s.lines := by
  unfold report writeRecord
  split <;> simp

theorem leaveErrors_lines (s : State) (x : LiveLine) : (leaveErrors s x).lines = s.lines :=
  foldl_lines (fun s _ => report_lines s _ _) _ s

end Sys2Proof.Machine

/-! # Line control words (O40) -/

namespace Sys2Proof.Machine

/-! ### The answer of a word -/

/-- An int64 register passes the check of tags. -/
theorem checkTags_int {l : Line} {r : Reg} (h : getTag l r = 0) (rest : List (Reg × List Byte)) :
    checkTags l ((r, [0]) :: rest) = checkTags l rest :=
  checkTags_ok (by rw [h]; rfl) rest

@[simp] theorem issueCtx_taddr (h : Hdr) (t : LiveLine) : (issueCtx h t).t.addr = t.addr := rfl
@[simp] theorem issueCtx_ttenant (h : Hdr) (t : LiveLine) : (issueCtx h t).t.tenant = t.tenant := rfl
@[simp] theorem issueCtx_treplies (h : Hdr) (t : LiveLine) : (issueCtx h t).t.replies = t.replies := rfl
@[simp] theorem issueCtx_tstores (h : Hdr) (t : LiveLine) : (issueCtx h t).t.stores = t.stores := rfl

/-- The accesses of a word are made on behalf of its line. -/
theorem issueCtx_whoOf (h : Hdr) (t : LiveLine) : (issueCtx h t).who = whoOf t := issueCtx_who h t

/-- A word whose meaning keeps the counted line is done. -/
theorem finishIssue_ok (s s' : State) (h : Hdr) (t : LiveLine) (c : Nat) :
    finishIssue s t c (.ok s' (issueCtx h t).t) = .next (done s' t (counted h t)) := rfl

/-- A retry keeps the line, but for its replies, when it has no request out. -/
theorem finishIssue_retry {t : LiveLine} (ht : t.req = none) (s s' : State) (c : Nat) (rs : List Word) :
    finishIssue s t c (.retry s' none rs) = .next { s' with thr := some { t with replies := rs, cool := 7 } } := by
  obtain ⟨⟩ := t
  subst ht
  rfl

/-! ### cevict (R420) -/

/-- cevict of the own line puts it in CL1, ready past the word. -/
theorem execCevictSelf_ready {g : BitVec 4} {s : State} {t : LiveLine} (hr : Ready (hdr g []) s t) :
    ∃ s' x, execCevictSelf g s = .next s' ∧ s'.thr = none ∧ findLine s' t.tenant t.addr = some x
      ∧ x.place = .cl1 (coreOfPlace t.place) ∧ x.line = { counted (hdr g []) t with pc := wordPc t + 4 } ∧ s'.memory = s.memory := by
  let x := outOfSlot s (issueCtx (hdr g []) t).t (coreOfPlace t.place) (wordPc t + 4)
  refine ⟨{ countIssue (putLine s x) t.place with thr := none }, x, ?_, rfl, ?_, rfl, rfl, by simp⟩
  · exact issueWord_ready hr _
  · exact (findLine_congr (countIssue_lines ..) ..).trans (findLine_putLine_of ⟨rfl, rfl⟩)

section Cevict

variable {g : BitVec 4} {a : Reg} {s : State} {t y : LiveLine}

theorem execCevict_own (hr : Ready (hdrPriv g [a] 1 (.cevict g a)) s t) (ha : getTag t.line a = 0)
    (hva : (getG t.line a).toNat = t.addr) : execCevict g a s = .next (trapped s t (mkTrap 11 a.toNat 0)) := by
  rw [execCevict, issueWord_ready hr]
  simp only [issueCtx_tline, issueCtx_taddr, checkTags_int ((counted_getTag _ t a).trans ha), checkTags_nil, counted_getG]
  rw [if_pos hva]
  rfl

theorem execCevict_unknown (hr : Ready (hdrPriv g [a] 1 (.cevict g a)) s t) (ha : getTag t.line a = 0)
    (hva : (getG t.line a).toNat ≠ t.addr) (hf : findLine s t.tenant (getG t.line a).toNat = none) :
    execCevict g a s = .next (done s t (counted (hdrPriv g [a] 1 (.cevict g a)) t)) := by
  rw [execCevict, issueWord_ready hr]
  simp only [issueCtx_tline, issueCtx_taddr, issueCtx_ttenant, checkTags_int ((counted_getTag _ t a).trans ha), checkTags_nil,
    counted_getG, hf]
  rw [if_neg hva, finishIssue_ok]

theorem execCevict_inImage (hr : Ready (hdrPriv g [a] 1 (.cevict g a)) s t) (ha : getTag t.line a = 0)
    (hva : (getG t.line a).toNat ≠ t.addr) (hf : findLine s t.tenant (getG t.line a).toNat = some y)
    (hy : y.clm = true ∨ y.place = .dram) :
    execCevict g a s = .next (done s t (counted (hdrPriv g [a] 1 (.cevict g a)) t)) := by
  rw [execCevict, issueWord_ready hr]
  simp only [issueCtx_tline, issueCtx_taddr, issueCtx_ttenant, checkTags_int ((counted_getTag _ t a).trans ha), checkTags_nil,
    counted_getG, hf]
  rw [if_neg hva, if_pos hy, finishIssue_ok]

theorem execCevict_called (hr : Ready (hdrPriv g [a] 1 (.cevict g a)) s t) (ha : getTag t.line a = 0)
    (hva : (getG t.line a).toNat ≠ t.addr) (hf : findLine s t.tenant (getG t.line a).toNat = some y)
    (hclm : y.clm = false) (hplace : y.place ≠ .dram) (hfree : msgAhead s y.tenant y.addr = false) (hreq : t.req = none)
    (hrep : t.replies = []) :
    ∃ s', execCevict g a s = .next s' ∧ findLine s' t.tenant (getG t.line a).toNat = some { y with pull := true }
      ∧ s'.thr = some { t with replies := [0], cool := 7 } ∧ s'.memory = s.memory := by
  refine ⟨{ putLine s { y with pull := true } with thr := some { t with replies := [0], cool := 7 } }, ?_, ?_, rfl, putLine_memory ..⟩
  · rw [execCevict, issueWord_ready hr]
    simp only [issueCtx_tline, issueCtx_taddr, issueCtx_ttenant, issueCtx_treplies, checkTags_int ((counted_getTag _ t a).trans ha),
      checkTags_nil, counted_getG, hf, hrep, hclm, hplace, hfree, if_neg hva, Bool.false_eq_true, or_self, and_false, if_false, if_true]
    exact finishIssue_retry hreq ..
  · have hname := findLine_some hf
    exact (findLine_congr rfl ..).trans (findLine_putLine_of hname)

end Cevict

/-! ### cclaim (R421) -/

/-- What a claim on a line in its image changes: the directory entry, and LVER of the image (R407, R434). -/
theorem takeClaim_cell {s : State} {y : LiveLine} {t va k holder : Nat} (hname : y.tenant = t ∧ y.addr = va) (hplace : y.place = .dram)
    (hk : cellOf s t va = some k) : findLine (takeClaim s y holder) t va = some { y with clm := true, holder := holder }
      ∧ (takeClaim s y holder).memory = memWrite s.memory (k + 120) 4 ((memLine s.memory k).lver + 1).toNat := by
  obtain ⟨rfl, rfl⟩ := hname
  have hk' : cellOf (putLine (leaveReady s y.tenant y.addr) { y with clm := true, holder := holder }) y.tenant y.addr = some k :=
    (cellOf_congr (putLine_tenants ..) ..).trans hk
  unfold takeClaim
  extract_lets s1 s2
  split
  · simp only [s2, s1, hk', putLine_memory]
    exact ⟨(findLine_congr rfl ..).trans (findLine_putLine_of ⟨rfl, rfl⟩), rfl⟩
  · exact absurd hplace ‹_›

section Cclaim

variable {g : BitVec 4} {d a : Reg} {s : State} {t y : LiveLine} {l : Loc}

/-- A cclaim whose address passes the checks comes to the home directory. -/
theorem execCclaim_located (hr : Ready (hdrPriv g [d, a] 1 (.cclaim g d a)) s t) (ha : getTag t.line a = 0)
    (halign : (getG t.line a).toNat % 128 = 0) (hva : (getG t.line a).toNat ≠ t.addr)
    (hloc : locate s (whoOf t) .store (getG t.line a).toNat 0 = .ok l) (hctx : ctxPage s (whoOf t) (getG t.line a).toNat = true) :
    execCclaim g d a s = finishIssue s t (coreOfPlace t.place)
      (claimAt s (issueCtx (hdrPriv g [d, a] 1 (.cclaim g d a)) t) d (getG t.line a).toNat) := by
  rw [execCclaim, issueWord_ready hr]
  simp only [issueCtx_tline, issueCtx_taddr, issueCtx_whoOf, checkTags_int ((counted_getTag _ t a).trans ha),
    checkTags_nil, counted_getG, halign, hloc, hctx, hva, ne_eq, not_true_eq_false, Bool.true_eq_false, if_false]

variable {h : Hdr} {va : Nat}

theorem claimAt_gone (hf : findLine s t.tenant va = none) : claimAt s (issueCtx h t) d va = claimDone (issueCtx h t) d 2 s := by
  simp only [claimAt, issueCtx_ttenant, hf]

theorem claimAt_claimed (hf : findLine s t.tenant va = some y) (hj : jobFrozen s y.tenant (jobOf s y) = false)
    (hrep : t.replies = []) (hclm : y.clm = true) : claimAt s (issueCtx h t) d va = claimDone (issueCtx h t) d 1 s := by
  simp [claimAt, hf, hj, hrep, hclm]

theorem claimAt_free (hf : findLine s t.tenant va = some y) (hj : jobFrozen s y.tenant (jobOf s y) = false)
    (hrep : t.replies = []) (hclm : y.clm = false) (hfree : msgAhead s y.tenant y.addr = false) :
    claimAt s (issueCtx h t) d va = .retry (takeClaim s y t.addr) none [0] := by
  simp [claimAt, hf, hj, hrep, hclm, hfree]

theorem claimAt_held (hf : findLine s t.tenant va = some y) (hj : jobFrozen s y.tenant (jobOf s y) = false)
    (hrep : t.replies ≠ []) (hclm : y.clm = true) (hh : y.holder = t.addr) (hplace : y.place = .dram) (hst : y.stores = 0) :
    claimAt s (issueCtx h t) d va = claimDone (issueCtx h t) d 0 s := by
  simp [claimAt, hf, hj, hrep, hclm, hh, hplace, hst]

/-- A cclaim that the home directory answers has its answer in gD. -/
theorem execCclaim_answers (hr : Ready (hdrPriv g [d, a] 1 (.cclaim g d a)) s t) (ha : getTag t.line a = 0)
    (halign : (getG t.line a).toNat % 128 = 0) (hva : (getG t.line a).toNat ≠ t.addr)
    (hloc : locate s (whoOf t) .store (getG t.line a).toNat 0 = .ok l) (hctx : ctxPage s (whoOf t) (getG t.line a).toNat = true)
    {v : Nat} (hat : ∀ h, claimAt s (issueCtx h t) d (getG t.line a).toNat = claimDone (issueCtx h t) d v s) :
    execCclaim g d a s = .next (done s t (setG (counted (hdrPriv g [d, a] 1 (.cclaim g d a)) t) d (BitVec.ofNat 64 v) 0)) := by
  rw [execCclaim_located hr ha halign hva hloc hctx, hat]
  rfl

/-- A cclaim of a free line in its image takes the claim, LVER one higher. -/
theorem execCclaim_claims (hr : Ready (hdrPriv g [d, a] 1 (.cclaim g d a)) s t) (ha : getTag t.line a = 0)
    (halign : (getG t.line a).toNat % 128 = 0) (hva : (getG t.line a).toNat ≠ t.addr)
    (hloc : locate s (whoOf t) .store (getG t.line a).toNat 0 = .ok l) (hctx : ctxPage s (whoOf t) (getG t.line a).toNat = true)
    (hreq : t.req = none) (hrep : t.replies = []) (hf : findLine s t.tenant (getG t.line a).toNat = some y)
    (hj : jobFrozen s y.tenant (jobOf s y) = false) (hclm : y.clm = false) (hfree : msgAhead s y.tenant y.addr = false)
    (hplace : y.place = .dram) {key : Nat} (hk : cellOf s t.tenant (getG t.line a).toNat = some key) (hm : memWf s.memory = true) :
    ∃ s', execCclaim g d a s = .next s'
      ∧ findLine s' t.tenant (getG t.line a).toNat = some { y with clm := true, holder := t.addr }
      ∧ s'.thr = some { t with replies := [0], cool := 7 }
      ∧ memLine s'.memory key = { memLine s.memory key with lver := (memLine s.memory key).lver + 1 } := by
  obtain ⟨hfind, hmem⟩ := takeClaim_cell (holder := t.addr) (findLine_some hf) hplace hk
  refine ⟨{ takeClaim s y t.addr with thr := some { t with replies := [0], cool := 7 } }, ?_, ?_, rfl, ?_⟩
  · rw [execCclaim_located hr ha halign hva hloc hctx, claimAt_free hf hj hrep hclm hfree, finishIssue_retry hreq]
  · exact (findLine_congr rfl ..).trans hfind
  · exact (congrArg (memLine · key) hmem).trans (memLine_memWrite_lver hm key _)

end Cclaim

/-! ### Held lines (R407) -/

/-- The issuing line `t` holds line `y` at `va`, which stands in its image at `key` with nothing on its way to it: the words that act on
a held line act on it now. -/
structure HeldBy (s : State) (t : LiveLine) (va : Nat) (y : LiveLine) (key : Nat) : Prop where
  found : findLine s t.tenant va = some y
  claimed : y.clm = true
  holder : y.holder = t.addr
  image : y.place = .dram
  free : msgAhead s y.tenant y.addr = false
  aligned : va % 128 = 0
  located : locate s (whoOf t) .store va 0 = .ok (.cell key)
  cell : cellOf s t.tenant va = some key

/-- Word that a claim has ended is a message for the line. -/
theorem releasing_of_free {s : State} {y : LiveLine} (h : msgAhead s y.tenant y.addr = false) : releasing s y = false := by
  simp only [msgAhead, releasing, List.any_eq_false] at h ⊢
  intro m hm hrel
  rw [Bool.and_eq_true] at hrel
  exact h m hm hrel.1

section Held

variable {s : State} {t y : LiveLine} {a : Reg} {key : Nat} {h : Hdr} {k : LiveLine → Res}

theorem heldLine_of_heldBy (hy : HeldBy s t (getG t.line a).toNat y key) : heldLine s (issueCtx h t) a k = k y := by
  have hgate : ¬ ((getG t.line a).toNat % 128 ≠ 0 ∨ y.clm = false ∨ y.holder ≠ t.addr ∨ releasing s y = true
      ∨ y.place ≠ .dram) := by
    simp [hy.aligned, hy.claimed, hy.holder, hy.image, releasing_of_free hy.free]
  simp only [heldLine, issueCtx_tline, issueCtx_ttenant, issueCtx_taddr, issueCtx_whoOf, counted_getG, hy.found, hgate, hy.free,
    hy.located, Bool.false_eq_true, if_false]

theorem heldLine_of_notHeld (hno : ∀ y, findLine s t.tenant (getG t.line a).toNat = some y → y.clm = false ∨ y.holder ≠ t.addr) :
    heldLine s (issueCtx h t) a k = .trap (trapRange a) := by
  simp only [heldLine, issueCtx_tline, issueCtx_ttenant, issueCtx_taddr, counted_getG]
  split
  · rfl
  · rename_i y hf
    rw [if_pos]
    rcases hno y hf with hc | hc
    · exact .inr (.inl hc)
    · exact .inr (.inr (.inl hc))

/-- The tenant and the address of a held line. -/
theorem HeldBy.name {va : Nat} (hy : HeldBy s t va y key) : y.tenant = t.tenant ∧ y.addr = va := findLine_some hy.found

theorem HeldBy.cellOf_name {va : Nat} (hy : HeldBy s t va y key) : cellOf s y.tenant y.addr = some key := by
  rw [hy.name.1, hy.name.2]
  exact hy.cell

end Held

/-! ### The end of a claim (R407) -/

/-- What the end of a claim changes: the directory entry, and the wait word of the image. -/
theorem releaseLine_cell {s : State} {y : LiveLine} {k : Nat} (hk : cellOf s y.tenant y.addr = some k) (w : Word) :
    findLine (releaseLine s y w) y.tenant y.addr
        = some { y with clm := false, holder := 0, pull := false, line := { y.line with wait := w } }
      ∧ (releaseLine s y w).memory = memWrite s.memory (k + 80) 8 w.toNat := by
  simp only [releaseLine, hk]
  split
  · exact ⟨(findLine_congr (setCluster_lines ..) ..).trans (findLine_putLine_of ⟨rfl, rfl⟩), by simp⟩
  · exact ⟨findLine_putLine_of ⟨rfl, rfl⟩, putLine_memory ..⟩

/-- Line `va` of tenant `t` is in its image at `key`, held by nobody, its content is `l`, and of all other bytes none has changed
between `s` and `s'`. -/
def Freed (s : State) (t va key : Nat) (s' : State) (l : Line) : Prop :=
  (∃ y, findLine s' t va = some y ∧ y.clm = false ∧ y.place = .dram)
    ∧ memLine s'.memory key = l ∧ ∀ j, j < key ∨ key + 128 ≤ j → byteOf s' j = byteOf s j

/-- The end of a claim frees the line, with the wait tag it is given. -/
theorem releaseLine_freed {s : State} {y : LiveLine} {k : Nat} (hm : memWf s.memory = true) (hplace : y.place = .dram)
    (hk : cellOf s y.tenant y.addr = some k) (w : Word) :
    Freed s y.tenant y.addr k (releaseLine s y w) { memLine s.memory k with wait := w } := by
  obtain ⟨hf, hmem⟩ := releaseLine_cell hk w
  refine ⟨⟨_, hf, rfl, hplace⟩, ?_, fun j hj => ?_⟩
  · rw [hmem, memLine_memWrite_wait hm]
  · rw [byteOf, byteOf, hmem, byteAt_memWrite_outside _ _ _ _ _ (by omega)]

/-- An edit of a held line in its image writes the image. -/
theorem editLine_held {s : State} {y : LiveLine} {k : Nat} (hplace : y.place = .dram) (hk : cellOf s y.tenant y.addr = some k)
    (hclm : y.clm = true) (f : Line → Line) :
    editLine s y f = putLine { s with memory := writeImage s.memory k (memLine s.memory k) (f (memLine s.memory k)) } y := by
  simp [editLine, hplace, hk, hclm]

/-- The wait tag of a line in its image. -/
theorem tagOf_image {s : State} {y : LiveLine} {k : Nat} (hplace : y.place = .dram) (hk : cellOf s y.tenant y.addr = some k) :
    tagOf s y = (memLine s.memory k).wait := by
  simp [tagOf, hplace, hk, memLine_wait]

/-- Of two wait tags only a corrupt one stays (R407). -/
theorem releasedTag_of_not_parked {w : Word} (h : waitKind w ≠ 10) : releasedTag w = if tagCorrupt w = true then w else 0 := by
  simp [releasedTag, h]

/-! ### rft (R419) -/

/-- The fields that a return from a trap changes. -/
theorem returnLine_eq (l : Line) (f : BitVec 3) (h : Bool) : returnLine l f h = { l with
    pc := if f.getLsbD 0 then l.pc + (if h then 8 else 4) else l.pc, hcnt := if f.getLsbD 0 then 0 else l.hcnt,
    hpay := if f.getLsbD 0 then 0 else l.hpay, tfb := if f.getLsbD 1 then f.getLsbD 2 else l.tfb,
    wait := if waitKind l.wait = 10 then 0 else l.wait } := by
  unfold returnLine
  cases h0 : f.getLsbD 0 <;> cases h1 : f.getLsbD 1 <;> by_cases hw : waitKind l.wait = 10 <;>
    simp only [hw, beq_iff_eq, Bool.false_eq_true, if_true, if_false]

/-- A parked line's wait is cleared by the return, and the end of the claim then clears any other that is not corrupt. -/
theorem releasedTag_returned (w : Word) : releasedTag (if waitKind w = 10 then 0 else w)
    = if waitKind w ≠ 10 ∧ tagCorrupt w = true then w else 0 := by
  by_cases hw : waitKind w = 10
  · simp only [hw, if_true, ne_eq, not_true_eq_false, false_and, if_false]
    rfl
  · simp only [releasedTag, hw, if_false, beq_eq_false_iff_ne.mpr hw, Bool.false_or, ne_eq, not_false_eq_true, true_and]

section Return

variable {g : BitVec 4} {a f : Reg} {s : State} {t y : LiveLine} {key : Nat}

/-- The word at the held line's PC is looked at only when the line is to be advanced past it. -/
theorem advWord_image {n : Nat} {pair : Bool} (hplace : y.place = .dram) (hk : cellOf s y.tenant y.addr = some key)
    (hpair : f.getLsbD 0 = true → hmodAt s n (memLine s.memory key).pc = .ok pair) :
    ∃ h, advWord s n y f = .ok h ∧ (f.getLsbD 0 = true → h = pair) := by
  have hcontent : contentOf s y = some (memLine s.memory key) := by simp [contentOf, hplace, hk]
  unfold advWord
  split
  · rename_i h0
    rw [hcontent]
    exact ⟨pair, hpair h0, fun _ => rfl⟩
  · rename_i h0
    exact ⟨false, rfl, fun h => absurd h h0⟩

theorem execRft_drains (hr : Ready (hdrPriv g [a] 1 (.rft g a f)) s t) (ha : getTag t.line a = 0)
    (hy : HeldBy s t (getG t.line a).toNat y key) (hst : t.stores ≠ 0) : execRft g a f s = .next (draining s t .stores) := by
  rw [execRft, issueWord_ready hr]
  simp only [issueCtx_tline, checkTags_int ((counted_getTag _ t a).trans ha), checkTags_nil, heldLine_of_heldBy hy, issueCtx_tstores]
  rw [if_pos hst]
  rfl

/-- The content of a held line after rft. -/
def returned (old : Line) (f : BitVec 3) (pair : Bool) : Line := { old with
  pc := if f.getLsbD 0 then old.pc + (if pair then 8 else 4) else old.pc, hcnt := if f.getLsbD 0 then 0 else old.hcnt,
  hpay := if f.getLsbD 0 then 0 else old.hpay, tfb := if f.getLsbD 1 then f.getLsbD 2 else old.tfb,
  wait := if waitKind old.wait ≠ 10 ∧ tagCorrupt old.wait = true then old.wait else 0 }

/-- The image written by rft, with the wait tag that the end of the claim leaves, is the line returned. -/
theorem returnLine_released (old : Line) {h pair : Bool} (hp : f.getLsbD 0 = true → h = pair) :
    { returnLine old f h with wait := releasedTag (returnLine old f h).wait } = returned old f pair := by
  rw [returnLine_eq, releasedTag_returned, returned]
  by_cases h0 : f.getLsbD 0 = true
  · rw [hp h0]
  · simp only [h0, if_false, Bool.false_eq_true]

theorem execRft_returns (hr : Ready (hdrPriv g [a] 1 (.rft g a f)) s t) (ha : getTag t.line a = 0)
    (hy : HeldBy s t (getG t.line a).toNat y key) (hm : memWf s.memory = true) (hacc : AccessesDone s t) {pair : Bool}
    (hpair : f.getLsbD 0 = true → hmodAt s t.line.tenant.toNat (memLine s.memory key).pc = .ok pair) :
    ∃ s', execRft g a f s = .next (done s' t (counted (hdrPriv g [a] 1 (.rft g a f)) t))
      ∧ Freed s t.tenant (getG t.line a).toNat key s' (returned (memLine s.memory key) f pair) := by
  obtain ⟨hst, hreads⟩ := hacc
  obtain ⟨h, hadv, hh⟩ := advWord_image (f := f) hy.image hy.cellOf_name hpair
  let old := memLine s.memory key
  let s1 := editLine s y fun l => returnLine l f h
  have hs1 : s1 = putLine { s with memory := writeImage s.memory key old (returnLine old f h) } y :=
    editLine_held hy.image hy.cellOf_name hy.claimed _
  have hmem : s1.memory = writeImage s.memory key old (returnLine old f h) := by rw [hs1, putLine_memory]
  have hline : memLine s1.memory key = returnLine old f h := by
    rw [hmem]
    refine memLine_writeImage hm key ?_
    rw [returnLine_eq]
    exact memLine_q s.memory key
  have hk : cellOf s1 y.tenant y.addr = some key := by
    rw [hs1]
    exact (cellOf_congr (putLine_tenants ..) ..).trans hy.cellOf_name
  have hfind : findLine s1 t.tenant y.addr = some y := by
    rw [hs1]
    exact findLine_putLine_of ⟨hy.name.1, rfl⟩
  have hwf : memWf s1.memory = true := by
    rw [hmem]
    exact memWf_writeImage _ _ _ _ hm
  obtain ⟨hfree, hlast, hframe⟩ := releaseLine_freed hwf hy.image hk (releasedTag (tagOf s1 y))
  refine ⟨releaseLine s1 y (releasedTag (tagOf s1 y)), ?_, ?_, ?_, fun j hj => ?_⟩
  · rw [execRft, issueWord_ready hr]
    simp only [issueCtx_tline, checkTags_int ((counted_getTag _ t a).trans ha), checkTags_nil, heldLine_of_heldBy hy,
      issueCtx_tstores, issueCtx_ttenant, issueCtx_taddr, hst, hreads, issueCtx_whoOf, ne_eq, not_true_eq_false, if_false,
      Bool.true_eq_false]
    rw [show (whoOf t).tenant = t.line.tenant.toNat from rfl, hadv]
    show finishIssue s t _ (.ok (releaseLine s1 ((findLine s1 t.tenant y.addr).getD y) _) _) = _
    rw [hfind]
    rfl
  · rwa [hy.name.1, hy.name.2] at hfree
  · rw [hlast, tagOf_image hy.image hk, hline, returnLine_released old hh]
  · rw [hframe j hj, byteOf, byteOf, hmem, byteAt_writeImage_outside _ _ _ _ hj]

theorem execRft_notHeld (hr : Ready (hdrPriv g [a] 1 (.rft g a f)) s t) (ha : getTag t.line a = 0)
    (hno : ∀ y, findLine s t.tenant (getG t.line a).toNat = some y → y.clm = false ∨ y.holder ≠ t.addr) :
    execRft g a f s = .next (trapped s t (mkTrap 11 a.toNat 0)) := by
  rw [execRft, issueWord_ready hr]
  simp only [issueCtx_tline, checkTags_int ((counted_getTag _ t a).trans ha), checkTags_nil, heldLine_of_notHeld hno]
  rfl

end Return

/-! ### cpark (R422) -/

/-- A line killed is found no more (R408). -/
theorem findLine_killLine (s : State) (y : LiveLine) : findLine (killLine s y) y.tenant y.addr = none := by
  rw [killLine, findLine_congr (leaveErrors_lines ..)]
  exact findLine_dropLine ..

section Park

variable {g : BitVec 4} {a b : Reg} {s : State} {t y : LiveLine} {key : Nat}

/-- What cpark makes of the line `y` that the issuing line holds, by the value of gB. -/
def parkResult (s : State) (t y : LiveLine) (b : Reg) : Nat → Res
  | 0 => .ok (releaseLine s y (releasedTag (tagOf s y))) t
  | 1 => .ok (releaseLine s y (waitTag 10 0)) t
  | 2 => .ok (killLine s y) t
  | _ + 3 => .trap (trapRange b)

theorem execCpark_held (hr : Ready (hdrPriv g [a, b] 1 (.cpark g a b)) s t) (ha : getTag t.line a = 0) (hb : getTag t.line b = 0)
    (hy : HeldBy s t (getG t.line a).toNat y key) {v : Nat} (hv : (getG t.line b).toNat = v) : execCpark g a b s
      = finishIssue s t (coreOfPlace t.place) (parkResult s (issueCtx (hdrPriv g [a, b] 1 (.cpark g a b)) t).t y b v) := by
  rw [execCpark, issueWord_ready hr]
  simp only [issueCtx_tline, checkTags_int ((counted_getTag _ t a).trans ha), checkTags_int ((counted_getTag _ t b).trans hb),
    checkTags_nil, heldLine_of_heldBy hy, counted_getG, hv]
  match v with
  | 0 | 1 | 2 | _ + 3 => rfl

/-- A value of 0 or 1 ends the claim, with the tag that goes with it. -/
theorem execCpark_frees (hr : Ready (hdrPriv g [a, b] 1 (.cpark g a b)) s t) (ha : getTag t.line a = 0) (hb : getTag t.line b = 0)
    (hy : HeldBy s t (getG t.line a).toNat y key) (hm : memWf s.memory = true) {v : Nat} (hv : (getG t.line b).toNat = v) {w : Word}
    (hres : ∀ t, parkResult s t y b v = .ok (releaseLine s y w) t) :
    ∃ s', execCpark g a b s = .next (done s' t (counted (hdrPriv g [a, b] 1 (.cpark g a b)) t))
      ∧ Freed s t.tenant (getG t.line a).toNat key s' { memLine s.memory key with wait := w } := by
  refine ⟨releaseLine s y w, ?_, ?_⟩
  · rw [execCpark_held hr ha hb hy hv, hres, finishIssue_ok]
  · have h := releaseLine_freed hm hy.image hy.cellOf_name w
    rwa [hy.name.1, hy.name.2] at h

theorem execCpark_notHeld (hr : Ready (hdrPriv g [a, b] 1 (.cpark g a b)) s t) (ha : getTag t.line a = 0) (hb : getTag t.line b = 0)
    (hno : ∀ y, findLine s t.tenant (getG t.line a).toNat = some y → y.clm = false ∨ y.holder ≠ t.addr) :
    execCpark g a b s = .next (trapped s t (mkTrap 11 a.toNat 0)) := by
  rw [execCpark, issueWord_ready hr]
  simp only [issueCtx_tline, checkTags_int ((counted_getTag _ t a).trans ha), checkTags_int ((counted_getTag _ t b).trans hb),
    checkTags_nil, heldLine_of_notHeld hno]
  rfl

/-- A held line at each value of gB: released, parked, killed, or refused (R422). -/
theorem execCpark_cases (hr : Ready (hdrPriv g [a, b] 1 (.cpark g a b)) s t) (ha : getTag t.line a = 0) (hb : getTag t.line b = 0)
    (hy : HeldBy s t (getG t.line a).toNat y key) (hm : memWf s.memory = true) :
    let old := memLine s.memory key
    let next := fun (s' : State) => execCpark g a b s = .next (done s' t (counted (hdrPriv g [a, b] 1 (.cpark g a b)) t))
    let freed := Freed s t.tenant (getG t.line a).toNat key
    (getG t.line b = 0 → waitKind old.wait ≠ 10 → tagCorrupt old.wait = false → ∃ s', next s' ∧ freed s' { old with wait := 0 })
      ∧ (getG t.line b = 1 → ∃ s', next s' ∧ freed s' { old with wait := 0xA000000000000000 })
      ∧ (getG t.line b = 2 → ∃ s', next s' ∧ findLine s' t.tenant (getG t.line a).toNat = none)
      ∧ (3 ≤ (getG t.line b).toNat → execCpark g a b s = .next (trapped s t (mkTrap 11 b.toNat 0))) := by
  intro old next freed
  refine ⟨fun hv hkind hcor => ?_, fun hv => ?_, fun hv => ?_, fun hv => ?_⟩
  · refine execCpark_frees hr ha hb hy hm (v := 0) (by rw [hv]; rfl) fun t' => ?_
    rw [parkResult, tagOf_image hy.image hy.cellOf_name, releasedTag_of_not_parked hkind, if_neg (by rw [hcor]; decide)]
  · exact execCpark_frees hr ha hb hy hm (v := 1) (by rw [hv]; rfl) fun _ => rfl
  · refine ⟨killLine s y, execCpark_held hr ha hb hy (v := 2) (by rw [hv]; rfl), ?_⟩
    have hgone := findLine_killLine s y
    rwa [hy.name.1, hy.name.2] at hgone
  · exact execCpark_held hr ha hb hy (v := ((getG t.line b).toNat - 3) + 3) (by omega)

end Park

/-- Settles O40: each word has its clause, by the state of the line it names. -/
theorem lineControlWords : Obligations.line_control_words := by
  intro g d a b f s t hreq va free one line range
  refine ⟨execCevictSelf_ready, fun ha => ⟨fun hr hrep => ⟨execCevict_own hr ha, execCevict_unknown hr ha, ?_⟩, ?_,
    fun hno => ?_⟩⟩
  · intro y hva hf
    exact ⟨execCevict_inImage hr ha hva hf, fun hclm hplace hfree => execCevict_called hr ha hva hf hclm hplace hfree hreq hrep⟩
  · intro key halign hva hloc
    refine ⟨fun hr hctx => ?_, ?_⟩
    · have answers := fun {v : Nat} => execCclaim_answers hr ha halign hva hloc hctx (v := v)
      refine ⟨fun hf => answers fun h => claimAt_gone hf, fun y hf hj => ⟨fun hrep => ⟨fun hclm => ?_, ?_⟩, ?_⟩⟩
      · exact answers fun h => claimAt_claimed hf hj hrep hclm
      · intro hclm hfree hplace hk hm
        exact execCclaim_claims hr ha halign hva hloc hctx hreq hrep hf hj hclm hfree hplace hk hm.1
      · intro hrep hclm hh hplace hst
        exact answers fun h => claimAt_held hf hj hrep hclm hh hplace hst
    · intro y hf hclm hh hplace hk hfree hm old freed
      have hy : HeldBy s t va y key := ⟨hf, hclm, hh, hplace, hfree, halign, hloc, hk⟩
      refine ⟨fun hr pair hpair => ⟨execRft_drains hr ha hy, fun hacc => ?_⟩, fun hb hr => execCpark_cases hr ha hb hy hm.1⟩
      exact execRft_returns hr ha hy hm.1 hacc hpair
  · exact ⟨fun hr => execRft_notHeld hr ha hno, fun hb hr => execCpark_notHeld hr ha hb hno⟩

end Sys2Proof.Machine

/-! # Integer words on two registers (O1, O2) -/

namespace Sys2Proof.Machine

/-! ### Sources under a rule -/

theorem ruleVal_zero (v : Word) (n : Nat) : ruleVal 0 v n = (v.setWidth n).toInt := sval_eq v n
theorem ruleVal_one (v : Word) (n : Nat) : ruleVal 1 v n = (v.setWidth n).toInt := sval_eq v n
theorem ruleVal_two (v : Word) (n : Nat) : ruleVal 2 v n = ((v.setWidth n).toNat : Int) := congrArg Nat.cast (uval_eq v n)

/-! ### Rule 0 of sums, differences, products and shifts (R100) -/

theorem addVal_zero (w : BitVec 2) (x y : Word) :
    addVal w 0 x y = (x.setWidth (widthBits w) + y.setWidth (widthBits w)).signExtend 64 := by
  rw [addVal, reduce_zero, ruleVal_zero, ruleVal_zero, BitVec.ofInt_add, BitVec.ofInt_toInt, BitVec.ofInt_toInt]

theorem subVal_zero (w : BitVec 2) (x y : Word) :
    subVal w 0 x y = (x.setWidth (widthBits w) - y.setWidth (widthBits w)).signExtend 64 := by
  rw [subVal, reduce_zero, ruleVal_zero, ruleVal_zero, Int.sub_eq_add_neg, BitVec.ofInt_add, BitVec.ofInt_neg, BitVec.ofInt_toInt,
    BitVec.ofInt_toInt, BitVec.sub_eq_add_neg]

theorem mulVal_zero (w : BitVec 2) (x y : Word) :
    mulVal w 0 x y = (x.setWidth (widthBits w) * y.setWidth (widthBits w)).signExtend 64 := by
  rw [mulVal, reduce_zero, ruleVal_zero, ruleVal_zero, BitVec.ofInt_mul, BitVec.ofInt_toInt, BitVec.ofInt_toInt]

/-- A shift by n or more moves every bit out, so that limiting it to n changes nothing. -/
theorem shiftLeft_min {n : Nat} (x : BitVec n) (k : Nat) : x <<< min k n = x <<< k := by
  rcases Nat.le_total k n with h | h
  · rw [Nat.min_eq_left h]
  · rw [Nat.min_eq_right h, BitVec.shiftLeft_eq_zero (le_refl n), BitVec.shiftLeft_eq_zero h]

/-- A product with a power of two wraps to a left shift. -/
theorem ofInt_mul_two_pow {n : Nat} (x : BitVec n) (k : Nat) : BitVec.ofInt n (x.toInt * (2 ^ k : Nat)) = x <<< k := by
  have h : BitVec.ofNat n (2 ^ k) = BitVec.twoPow n k := BitVec.eq_of_toNat_eq (by rw [BitVec.toNat_ofNat, BitVec.toNat_twoPow])
  rw [BitVec.ofInt_mul, BitVec.ofInt_toInt, BitVec.ofInt_natCast, h, BitVec.mul_twoPow_eq_shiftLeft]

theorem shlVal_zero (w : BitVec 2) (x y : Word) : shlVal w 0 x y = (x.setWidth (widthBits w) <<< y.toNat).signExtend 64 := by
  rw [shlVal, reduce_zero, ruleVal_zero, ofInt_mul_two_pow, shiftLeft_min]

/-! ### Saturation of shifts (R100) -/

/-- Two factors that both lead out of the range saturate alike. -/
theorem clampInt_mul_large {lo hi v a b : Int} (hlo : lo ≤ 0) (hhi : 0 ≤ hi) (ha : hi < a ∧ -a ≤ lo) (hb : hi < b ∧ -b ≤ lo) :
    clampInt (v * a) lo hi = clampInt (v * b) lo hi := by
  obtain ⟨ha, ha'⟩ := ha
  obtain ⟨hb, hb'⟩ := hb
  unfold clampInt
  rcases lt_trichotomy v 0 with hv | rfl | hv
  · have h1 : v * a ≤ lo := by nlinarith
    have h2 : v * b ≤ lo := by nlinarith
    split <;> split <;> omega
  · simp
  · have h1 : hi < v * a := by nlinarith
    have h2 : hi < v * b := by nlinarith
    rw [if_neg (by omega), if_pos h1, if_neg (by omega), if_pos h2]

/-- A shift by n or more saturates as a shift by n does. -/
theorem clampInt_mul_two_pow_min {n : Nat} {lo hi : Int} (hlo : lo ≤ 0) (hhi : 0 ≤ hi) (h : hi < 2 ^ n) (h' : -2 ^ n ≤ lo)
    (v : Int) (k : Nat) : clampInt (v * (2 ^ min k n : Nat)) lo hi = clampInt (v * 2 ^ k) lo hi := by
  push_cast
  rcases Nat.le_total k n with hk | hk
  · rw [Nat.min_eq_left hk]
  · have hpow : (2 : Int) ^ n ≤ 2 ^ k := pow_le_pow_right₀ (by decide) hk
    rw [Nat.min_eq_right hk]
    exact clampInt_mul_large hlo hhi ⟨h, h'⟩ ⟨by omega, by omega⟩

theorem satS_mul_two_pow_min {n : Nat} (hn : 0 < n) (v : Int) (k : Nat) : satS (v * (2 ^ min k n : Nat)) n = satS (v * 2 ^ k) n := by
  have hp : (2 : Int) ^ n = 2 * 2 ^ (n - 1) := by rw [← Int.pow_succ', Nat.sub_add_cancel hn]
  have hpos : (0 : Int) < 2 ^ (n - 1) := by positivity
  exact clampInt_mul_two_pow_min (by push_cast; omega) (by push_cast; omega) (by push_cast; omega) (by push_cast; omega) v k

theorem satU_mul_two_pow_min (n : Nat) (v : Int) (k : Nat) : satU (v * (2 ^ min k n : Nat)) n = satU (v * 2 ^ k) n := by
  have hpos : (0 : Int) < 2 ^ n := by positivity
  exact clampInt_mul_two_pow_min (le_refl 0) (by push_cast; omega) (by push_cast; omega) (by omega) v k

theorem shlVal_one (w : BitVec 2) (x y : Word) : shlVal w 1 x y = reduce 1 (widthBits w) ((x.setWidth (widthBits w)).toInt * 2 ^ y.toNat) := by
  rw [shlVal, ruleVal_one]
  exact congrArg (extS · (widthBits w)) (satS_mul_two_pow_min (widthBits_pos w) _ _)

theorem shlVal_two (w : BitVec 2) (x y : Word) :
    shlVal w 2 x y = reduce 2 (widthBits w) (((x.setWidth (widthBits w)).toNat : Int) * 2 ^ y.toNat) := by
  rw [shlVal, ruleVal_two]
  exact congrArg (extZ · (widthBits w)) (satU_mul_two_pow_min (widthBits w) _ _)

/-- A function of two int64 registers whose value is known. -/
theorem issueBinary_gives {g : BitVec 4} {d a b : Reg} {s : State} {t : LiveLine} (hr : Ready (hdr g [d, a, b]) s t)
    (ha : getTag t.line a = 0) (hb : getTag t.line b = 0) {f : Word → Word → Word} {v : Word}
    (hv : f (getG t.line a) (getG t.line b) = v) :
    issueBinary g d a b f s = .next (done s t (setG (counted (hdr g [d, a, b]) t) d v 0)) := by
  rw [issueBinary_done hr ha hb, hv]

/-- Settles O1: the words differ in the value alone, and each value is the reduction of the exact one under its rule. -/
theorem integerRuledResults : Obligations.integer_ruled_results := by
  intro g d a b w s t hr ha hb n x y k gives clampS clampU
  have hn : 0 < n := widthBits_pos w
  have binary : ∀ {f : Word → Word → Word} {v : Word}, f (getG t.line a) (getG t.line b) = v → issueBinary g d a b f s = gives v :=
    issueBinary_gives hr ha hb
  refine ⟨binary (addVal_zero ..), binary ?_, binary ?_, binary (subVal_zero ..), binary ?_, binary ?_, binary (mulVal_zero ..),
    binary ?_, binary ?_, binary (shlVal_zero ..), binary ?_, binary ?_⟩
  · rw [addVal, ruleVal_one, ruleVal_one, reduce_one _ hn]
  · rw [addVal, ruleVal_two, ruleVal_two, reduce_two]
  · rw [subVal, ruleVal_one, ruleVal_one, reduce_one _ hn]
  · rw [subVal, ruleVal_two, ruleVal_two, reduce_two]
  · rw [mulVal, ruleVal_one, ruleVal_one, reduce_one _ hn]
  · rw [mulVal, ruleVal_two, ruleVal_two, reduce_two]
  · rw [shlVal_one, reduce_one _ hn]
  · rw [shlVal_two, reduce_two]

end Sys2Proof.Machine

namespace Sys2Proof.Machine

/-! ### Extensions of known bits -/

theorem extS_toInt {n : Nat} (x : BitVec n) : extS x.toInt n = x.signExtend 64 := by
  rw [extS_eq, BitVec.ofInt_toInt]

theorem extS_toNat {n : Nat} (x : BitVec n) : extS (x.toNat : Int) n = x.signExtend 64 := by
  rw [extS_eq, BitVec.ofInt_natCast, BitVec.ofNat_toNat, BitVec.setWidth_eq]

theorem extZ_toNat {n : Nat} (x : BitVec n) : extZ (x.toNat : Int) n = x.setWidth 64 := by
  rw [extZ_eq, BitVec.ofInt_natCast, BitVec.ofNat_toNat, BitVec.setWidth_eq]

/-- A bitwise function is that of the low bits. -/
theorem bitVal_eq (w : BitVec 2) (v : Word) : bitVal w v = (v.setWidth (widthBits w)).signExtend 64 := by
  rw [bitVal, extS_eq, BitVec.ofInt_natCast, BitVec.ofNat_toNat]

/-! ### Shifts at a width: an amount of n or more moves every bit out -/

theorem toNat_ushiftRight_min {n : Nat} (x : BitVec n) (k : Nat) : x.toNat / 2 ^ min k n = (x >>> k).toNat := by
  rw [BitVec.toNat_ushiftRight, Nat.shiftRight_eq_div_pow]
  rcases Nat.le_total k n with h | h
  · rw [Nat.min_eq_left h]
  · rw [Nat.min_eq_right h, Nat.div_eq_of_lt x.isLt, Nat.div_eq_of_lt (x.isLt.trans_le (Nat.pow_le_pow_right (by decide) h))]

theorem toInt_sshiftRight_min {n : Nat} (x : BitVec n) (k : Nat) : x.toInt / (2 ^ min k n : Nat) = (x.sshiftRight k).toInt := by
  rw [BitVec.toInt_sshiftRight, Int.shiftRight_eq_div_pow]
  rcases Nat.le_total k n with h | h
  · rw [Nat.min_eq_left h]
  · have hpow : 2 ^ n ≤ 2 ^ k := Nat.pow_le_pow_right (by decide) h
    have hx := x.isLt
    have hsign := BitVec.toInt_eq_toNat_cond x
    rw [Nat.min_eq_right h]
    by_cases hneg : x.toInt < 0
    · rw [Int.ediv_eq_neg_one_of_neg_of_le hneg (by split at hsign <;> omega),
        Int.ediv_eq_neg_one_of_neg_of_le hneg (by split at hsign <;> omega)]
    · rw [Int.ediv_eq_zero_of_lt (by omega) (by split at hsign <;> omega),
        Int.ediv_eq_zero_of_lt (by omega) (by split at hsign <;> omega)]

theorem shrVal_eq (w : BitVec 2) (x y : Word) : shrVal w x y = (x.setWidth (widthBits w) >>> y.toNat).setWidth 64 := by
  rw [shrVal, uval_eq, toNat_ushiftRight_min, extZ_toNat]

theorem sarVal_eq (w : BitVec 2) (x y : Word) :
    sarVal w x y = ((x.setWidth (widthBits w)).sshiftRight y.toNat).signExtend 64 := by
  rw [sarVal, sval_eq, toInt_sshiftRight_min, extS_toInt]

/-! ### Rotations -/

theorem rotl_eq {n : Nat} (x : BitVec n) {k : Nat} (h : k < n) : rotl x.toNat n k = (x.rotateLeft k).toNat := by
  have hsplit : 2 ^ n = 2 ^ (n - k) * 2 ^ k := by rw [← pow_add, Nat.sub_add_cancel h.le]
  have hhigh : x.toNat / 2 ^ (n - k) < 2 ^ k := Nat.div_lt_of_lt_mul (hsplit ▸ x.isLt)
  rw [BitVec.toNat_rotateLeft, Nat.mod_eq_of_lt h, rotl, Nat.shiftRight_eq_div_pow, Nat.shiftLeft_eq, hsplit,
    Nat.mul_mod_mul_right, ← Nat.shiftLeft_eq, Nat.shiftLeft_add_eq_or_of_lt hhigh]

theorem rotateLeft_sub {n : Nat} (x : BitVec n) {k : Nat} (h : k < n) : x.rotateLeft ((n - k) % n) = x.rotateRight k := by
  apply BitVec.eq_of_toNat_eq
  rw [BitVec.toNat_rotateLeft, BitVec.toNat_rotateRight, Nat.mod_mod, Nat.mod_eq_of_lt h]
  rcases Nat.eq_zero_or_pos k with rfl | hk
  · simp [Nat.shiftRight_eq_div_pow, Nat.shiftLeft_eq, Nat.div_eq_of_lt x.isLt, Nat.mod_eq_of_lt x.isLt]
  · rw [Nat.mod_eq_of_lt (show n - k < n by omega), Nat.sub_sub_self h.le, Nat.or_comm]

theorem rolVal_eq (w : BitVec 2) (x y : Word) :
    rolVal w x y = ((x.setWidth (widthBits w)).rotateLeft (y.toNat % widthBits w)).signExtend 64 := by
  rw [rolVal, uval_eq, rotl_eq _ (Nat.mod_lt _ (widthBits_pos w)), extS_toNat]

theorem rorVal_eq (w : BitVec 2) (x y : Word) :
    rorVal w x y = ((x.setWidth (widthBits w)).rotateRight (y.toNat % widthBits w)).signExtend 64 := by
  rw [rorVal, uval_eq, rotl_eq _ (Nat.mod_lt _ (widthBits_pos w)), extS_toNat, rotateLeft_sub _ (Nat.mod_lt _ (widthBits_pos w))]

/-! ### Minima and maxima -/

section Order

variable {n : Nat} (x y : BitVec n)

theorem min_toInt : min x.toInt y.toInt = (if x.slt y then x else y).toInt := by
  rw [BitVec.slt_eq_decide, apply_ite BitVec.toInt]
  grind

theorem max_toInt : max x.toInt y.toInt = (if x.slt y then y else x).toInt := by
  rw [BitVec.slt_eq_decide, apply_ite BitVec.toInt]
  grind

theorem min_toNat : min x.toNat y.toNat = (if x.ult y then x else y).toNat := by
  rw [BitVec.ult_eq_decide, apply_ite BitVec.toNat]
  grind

theorem max_toNat : max x.toNat y.toNat = (if x.ult y then y else x).toNat := by
  rw [BitVec.ult_eq_decide, apply_ite BitVec.toNat]
  grind

end Order

/-! ### High products -/

/-- The signed high product fits n bits. -/
theorem mulHigh_range {n : Nat} (hn : 0 < n) (x y : BitVec n) :
    -(2 : Int) ^ (n - 1) ≤ x.toInt * y.toInt / 2 ^ n ∧ x.toInt * y.toInt / 2 ^ n < (2 : Int) ^ (n - 1) := by
  have hp : (2 : Int) ^ n = 2 * 2 ^ (n - 1) := by rw [← Int.pow_succ', Nat.sub_add_cancel hn]
  have hpos : (0 : Int) < 2 ^ (n - 1) := by positivity
  have hx := BitVec.le_toInt x
  have hx' := BitVec.toInt_lt (x := x)
  have hy := BitVec.le_toInt y
  have hy' := BitVec.toInt_lt (x := y)
  rw [hp]
  generalize (2 : Int) ^ (n - 1) = p at *
  generalize x.toInt = u at *
  generalize y.toInt = v at *
  have hbound : |u * v| ≤ p * p := by
    rw [abs_mul]
    exact mul_le_mul (abs_le.mpr ⟨hx, hx'.le⟩) (abs_le.mpr ⟨hy, hy'.le⟩) (abs_nonneg v) hpos.le
  obtain ⟨hlow, hhigh⟩ := abs_le.mp hbound
  have hsq : 0 < p * p := by positivity
  rw [Int.le_ediv_iff_mul_le (by omega), Int.ediv_lt_iff_lt_mul (by omega)]
  constructor <;> nlinarith

theorem mulhVal_eq (w : BitVec 2) (x y : Word) : mulhVal w x y
    = BitVec.ofInt 64 ((x.setWidth (widthBits w)).toInt * (y.setWidth (widthBits w)).toInt / 2 ^ widthBits w) := by
  obtain ⟨hl, hu⟩ := mulHigh_range (widthBits_pos w) (x.setWidth (widthBits w)) (y.setWidth (widthBits w))
  rw [mulhVal, sval_eq, sval_eq]
  push_cast
  exact extS_of_range (widthBits_pos w) hl hu

theorem mulhbVal_eq (w : BitVec 2) (x y : Word) : mulhbVal w x y
    = BitVec.ofNat 64 ((x.setWidth (widthBits w)).toNat * (y.setWidth (widthBits w)).toNat / 2 ^ widthBits w) := by
  have hlt : (x.setWidth (widthBits w)).toNat * (y.setWidth (widthBits w)).toNat / 2 ^ widthBits w < 2 ^ widthBits w :=
    Nat.div_lt_of_lt_mul (Nat.mul_lt_mul'' (BitVec.isLt _) (BitVec.isLt _))
  rw [mulhbVal, uval_eq, uval_eq, extZ_of_range (Int.natCast_nonneg _) (by exact_mod_cast hlt), BitVec.ofInt_natCast]

/-- Settles O2: each value is the function of the low bits, extended as its row says. -/
theorem integerBinaryResults : Obligations.integer_binary_results := by
  intro g d a b w s t hr ha hb n x y k gives
  have hn : n ≤ 64 := widthBits_le w
  have binary : ∀ {f : Word → Word → Word} {v : Word}, f (getG t.line a) (getG t.line b) = v → issueBinary g d a b f s = gives v :=
    issueBinary_gives hr ha hb
  refine ⟨binary ?_, binary ?_, binary ?_, binary ?_, binary ?_, binary ?_, binary (shrVal_eq ..), binary (sarVal_eq ..),
    binary (rolVal_eq ..), binary (rorVal_eq ..), binary ?_, binary ?_, binary ?_, binary ?_, binary (mulhVal_eq ..),
    binary (mulhbVal_eq ..)⟩
  · rw [bitVal_eq, BitVec.setWidth_and]
  · rw [bitVal_eq, BitVec.setWidth_or]
  · rw [bitVal_eq, BitVec.setWidth_xor]
  · rw [bitVal_eq, BitVec.setWidth_and, BitVec.setWidth_not hn]
  · rw [bitVal_eq, BitVec.setWidth_or, BitVec.setWidth_not hn]
  · rw [bitVal_eq, BitVec.setWidth_not hn, BitVec.setWidth_xor]
  · rw [minVal, sval_eq, sval_eq, min_toInt, extS_toInt]
  · rw [maxVal, sval_eq, sval_eq, max_toInt, extS_toInt]
  · rw [minbVal, uval_eq, uval_eq, min_toNat, extZ_toNat]
  · rw [maxbVal, uval_eq, uval_eq, max_toNat, extZ_toNat]

end Sys2Proof.Machine

/-! # Division, and integer words on one register (O3, O4) -/

namespace Sys2Proof.Machine

/-! ### Quotients and remainders (R98, R99) -/

theorem sval_eq_zero_iff (v : Word) (n : Nat) : sval v n = 0 ↔ v.setWidth n = 0 := by
  rw [sval_eq, ← BitVec.toInt_inj, BitVec.ofNat_eq_ofNat, BitVec.toInt_zero]

theorem uval_eq_zero_iff (v : Word) (n : Nat) : uval v n = 0 ↔ v.setWidth n = 0 := by
  rw [uval_eq, ← BitVec.toNat_inj, BitVec.ofNat_eq_ofNat, BitVec.toNat_zero]

/-- A signed quotient at a width wraps to that of the bit vectors. -/
theorem ofInt_tdiv {n : Nat} (x y : BitVec n) : BitVec.ofInt n (x.toInt.tdiv y.toInt) = x.sdiv y :=
  BitVec.eq_of_toInt_eq (by rw [BitVec.toInt_ofInt, BitVec.toInt_sdiv])

/-- The remainder by -1 is 0. -/
theorem srem_neg_one {n : Nat} (x : BitVec n) (hn : 0 < n) : x.srem (-1) = 0 := by
  have h : (-1 : BitVec n).toInt = -1 := by
    rw [show (-1 : BitVec n) = BitVec.allOnes n from BitVec.neg_one_eq_allOnes, BitVec.toInt_allOnes, if_pos hn]
  apply BitVec.eq_of_toInt_eq
  rw [BitVec.toInt_srem, h]
  simp

theorem neg_one_ne_zero {n : Nat} (hn : 0 < n) : (-1 : BitVec n) ≠ 0 := by
  intro h
  have h1 := congrArg BitVec.toNat (BitVec.neg_eq_zero_iff.mp h)
  rw [BitVec.ofNat_eq_ofNat, BitVec.toNat_ofNat, BitVec.toNat_ofNat, Nat.mod_eq_of_lt (Nat.one_lt_two_pow hn.ne'),
    Nat.zero_mod] at h1
  exact one_ne_zero h1

section Division

variable {w : BitVec 2} {x y : Word}

theorem divVal_of_ne (h : y.setWidth (widthBits w) ≠ 0) :
    divVal w x y = ((x.setWidth (widthBits w)).sdiv (y.setWidth (widthBits w))).signExtend 64 := by
  rw [divVal, divInt, if_neg (mt (sval_eq_zero_iff _ _).mp h), sval_eq, sval_eq, extS_eq, ofInt_tdiv]

theorem divVal_zero (h : y.setWidth (widthBits w) = 0) : divVal w x y = -1 := by
  have hpos : (0 : Int) < 2 ^ (widthBits w - 1) := by positivity
  rw [divVal, divInt, if_pos ((sval_eq_zero_iff _ _).mpr h), extS_of_range (widthBits_pos w) (by omega) (by omega)]
  rfl

theorem remVal_of_ne (h : y.setWidth (widthBits w) ≠ 0) :
    remVal w x y = ((x.setWidth (widthBits w)).srem (y.setWidth (widthBits w))).signExtend 64 := by
  rw [remVal, divInt, if_neg (mt (sval_eq_zero_iff _ _).mp h), ← Int.tmod_def, sval_eq, sval_eq, ← BitVec.toInt_srem, extS_toInt]

theorem remVal_zero (h : y.setWidth (widthBits w) = 0) : remVal w x y = (x.setWidth (widthBits w)).signExtend 64 := by
  rw [remVal, (sval_eq_zero_iff _ _).mpr h, Int.zero_mul, Int.sub_zero, sval_eq, extS_toInt]

theorem divbVal_of_ne (h : y.setWidth (widthBits w) ≠ 0) :
    divbVal w x y = ((x.setWidth (widthBits w)).udiv (y.setWidth (widthBits w))).setWidth 64 := by
  rw [divbVal, if_neg (mt (uval_eq_zero_iff _ _).mp h), uval_eq, uval_eq, ← BitVec.toNat_udiv, extZ_toNat]
  rfl

theorem divbVal_zero (h : y.setWidth (widthBits w) = 0) : divbVal w x y = BitVec.ofNat 64 (2 ^ widthBits w - 1) := by
  have hpos : 0 < 2 ^ widthBits w := by positivity
  rw [divbVal, if_pos ((uval_eq_zero_iff _ _).mpr h),
    extZ_of_range (Int.natCast_nonneg _) (by exact_mod_cast Nat.sub_lt hpos Nat.one_pos), BitVec.ofInt_natCast]

theorem rembVal_eq : rembVal w x y = ((x.setWidth (widthBits w)).umod (y.setWidth (widthBits w))).setWidth 64 := by
  rw [rembVal, uval_eq, uval_eq, ← BitVec.toNat_umod, extZ_toNat]
  rfl

theorem rembVal_zero (h : y.setWidth (widthBits w) = 0) : rembVal w x y = (x.setWidth (widthBits w)).setWidth 64 := by
  rw [rembVal_eq, h]
  exact congrArg (BitVec.setWidth 64) BitVec.umod_zero

theorem divVal_intMin (hx : x.setWidth (widthBits w) = BitVec.intMin (widthBits w)) (hy : y.setWidth (widthBits w) = -1) :
    divVal w x y = (x.setWidth (widthBits w)).signExtend 64 := by
  rw [divVal_of_ne (by rw [hy]; exact neg_one_ne_zero (widthBits_pos w)), hx, hy]
  exact congrArg (BitVec.signExtend 64) BitVec.intMin_sdiv_neg_one

theorem remVal_neg_one (hy : y.setWidth (widthBits w) = -1) : remVal w x y = 0 := by
  rw [remVal_of_ne (by rw [hy]; exact neg_one_ne_zero (widthBits_pos w)), hy, srem_neg_one _ (widthBits_pos w)]
  rw [BitVec.signExtend, BitVec.ofNat_eq_ofNat, BitVec.toInt_zero]
  rfl

end Division

/-! ### Negation and magnitude (R98, R99, R100) -/

/-- A value in the signed range is reduced by RULE 1 as by RULE 0. -/
theorem reduce_one_of_range {n : Nat} {v : Int} (hl : -(2 : Int) ^ (n - 1) ≤ v) (hu : v < (2 : Int) ^ (n - 1)) :
    reduce 1 n v = reduce 0 n v := by
  have h : satS v n = v := by rw [satS_eq]; omega
  exact congrArg (extS · n) h

/-- The result that has no room in the signed range, under RULE 1. -/
theorem reduce_one_overflow {n : Nat} (hn : 0 < n) : reduce 1 n (2 ^ (n - 1)) = (BitVec.intMax n).setWidth 64 := by
  have hpos : 0 < 2 ^ (n - 1) := by positivity
  have h : max (-(2 : Int) ^ (n - 1)) (min ((2 : Int) ^ (n - 1) - 1) (2 ^ (n - 1))) = ((2 ^ (n - 1) - 1 : Nat) : Int) := by
    have hcast : ((2 ^ (n - 1) - 1 : Nat) : Int) = 2 ^ (n - 1) - 1 := by push_cast [Nat.one_le_two_pow]; rfl
    rw [hcast, min_eq_left (by omega), max_eq_right (by omega)]
  rw [reduce_one n hn, h, BitVec.ofInt_natCast, ← BitVec.toNat_intMax, BitVec.ofNat_toNat]

theorem negVal_zero (w : BitVec 2) (x : Word) : negVal w 0 x = (-(x.setWidth (widthBits w))).signExtend 64 := by
  rw [negVal, reduce_zero, sval_eq, BitVec.ofInt_neg, BitVec.ofInt_toInt]

theorem ofInt_natAbs {n : Nat} (x : BitVec n) : BitVec.ofInt n (x.toInt.natAbs : Int) = x.abs := by
  rw [BitVec.abs_eq]
  by_cases h : x.msb = true
  · have hneg := BitVec.toInt_neg_of_msb_true h
    rw [if_pos h, Int.ofNat_natAbs_of_nonpos hneg.le, BitVec.ofInt_neg, BitVec.ofInt_toInt]
  · have hpos := BitVec.toInt_nonneg_of_msb_false (Bool.not_eq_true _ ▸ h)
    rw [if_neg h, Int.natAbs_of_nonneg hpos, BitVec.ofInt_toInt]

theorem absVal_zero (w : BitVec 2) (x : Word) : absVal w 0 x = (x.setWidth (widthBits w)).abs.signExtend 64 := by
  rw [absVal, reduce_zero, sval_eq, ofInt_natAbs]

section Saturated

variable {w : BitVec 2} {x : Word}

/-- Above the least value, the signed reading lies within its range on both sides. -/
theorem toInt_gt_of_ne_intMin {n : Nat} {x : BitVec n} (hn : 0 < n) (h : x ≠ BitVec.intMin n) : -(2 : Int) ^ (n - 1) < x.toInt :=
  lt_of_le_of_ne (BitVec.le_toInt x) fun e => h (BitVec.eq_of_toInt_eq (by rw [BitVec.toInt_intMin_of_pos hn, e]))

theorem negVal_one_of_ne (h : x.setWidth (widthBits w) ≠ BitVec.intMin (widthBits w)) : negVal w 1 x = negVal w 0 x := by
  have hl := toInt_gt_of_ne_intMin (widthBits_pos w) h
  have hu := BitVec.toInt_lt (x := x.setWidth (widthBits w))
  rw [negVal, negVal, sval_eq, reduce_one_of_range (by omega) (by omega)]

theorem absVal_one_of_ne (h : x.setWidth (widthBits w) ≠ BitVec.intMin (widthBits w)) : absVal w 1 x = absVal w 0 x := by
  have hl := toInt_gt_of_ne_intMin (widthBits_pos w) h
  have hu := BitVec.toInt_lt (x := x.setWidth (widthBits w))
  rw [absVal, absVal, sval_eq, reduce_one_of_range (by omega) (by omega)]

theorem negVal_one_intMin (h : x.setWidth (widthBits w) = BitVec.intMin (widthBits w)) :
    negVal w 1 x = (BitVec.intMax (widthBits w)).setWidth 64 := by
  rw [negVal, sval_eq, h, BitVec.toInt_intMin_of_pos (widthBits_pos w), neg_neg,
    reduce_one_overflow (widthBits_pos w)]

theorem absVal_one_intMin (h : x.setWidth (widthBits w) = BitVec.intMin (widthBits w)) :
    absVal w 1 x = (BitVec.intMax (widthBits w)).setWidth 64 := by
  rw [absVal, sval_eq, h, BitVec.toInt_intMin_of_pos (widthBits_pos w), Int.natAbs_neg, Int.natAbs_of_nonneg (by positivity),
    reduce_one_overflow (widthBits_pos w)]

theorem absVal_zero_intMin (h : x.setWidth (widthBits w) = BitVec.intMin (widthBits w)) :
    absVal w 0 x = (x.setWidth (widthBits w)).signExtend 64 := by
  rw [absVal_zero, h, BitVec.abs_intMin]

theorem negVal_zero_intMin (h : x.setWidth (widthBits w) = BitVec.intMin (widthBits w)) :
    negVal w 0 x = (x.setWidth (widthBits w)).signExtend 64 := by
  rw [negVal_zero, h, BitVec.neg_intMin]

end Saturated

/-- A function of one int64 register whose value is known. -/
theorem issueUnary_gives {g : BitVec 4} {d a : Reg} {s : State} {t : LiveLine} (hr : Ready (hdr g [d, a]) s t)
    (ha : getTag t.line a = 0) {f : Word → Word} {v : Word} (hv : f (getG t.line a) = v) :
    issueUnary g d a f s = .next (done s t (setG (counted (hdr g [d, a]) t) d v 0)) := by
  rw [issueUnary_done hr ha, hv]

/-- Settles O3: the values by the divisor, and those of the least value. -/
theorem divisionNeverTraps : Obligations.division_never_traps := by
  intro g d a b w s t ha n x y
  refine ⟨?_, ?_⟩
  · intro hr hb gives
    have binary : ∀ {f : Word → Word → Word} {v : Word}, f (getG t.line a) (getG t.line b) = v → issueBinary g d a b f s = gives v :=
      issueBinary_gives hr ha hb
    exact ⟨fun hy => ⟨binary (divVal_zero hy), binary (remVal_zero hy), binary (divbVal_zero hy), binary (rembVal_zero hy)⟩,
      fun hx hy => ⟨binary (divVal_intMin hx hy), binary (remVal_neg_one hy)⟩,
      fun hy => ⟨binary (divVal_of_ne hy), binary (remVal_of_ne hy), binary (divbVal_of_ne hy), binary rembVal_eq⟩⟩
  · intro hr hx gives
    have unary : ∀ {f : Word → Word} {v : Word}, f (getG t.line a) = v → issueUnary g d a f s = gives v :=
      issueUnary_gives hr ha
    exact ⟨unary (absVal_zero_intMin hx), unary (negVal_zero_intMin hx), unary (absVal_one_intMin hx), unary (negVal_one_intMin hx)⟩

/-! ### Counts of bits and bytes (R98) -/

/-- One above the highest number below `n` of which `p` holds: 0 when it holds of none. -/
theorem topOf_filter_range (p : Nat → Bool) (n : Nat) :
    ∃ m, (((List.range n).filter p).getLast?.map (· + 1)).getD 0 = m ∧ m ≤ n ∧ (∀ i, m ≤ i → i < n → p i = false)
      ∧ (0 < m → p (m - 1) = true) := by
  induction n with
  | zero => exact ⟨0, rfl, le_refl 0, fun _ _ h => absurd h (Nat.not_lt_zero _), fun h => absurd h (Nat.lt_irrefl 0)⟩
  | succ n ih =>
    obtain ⟨m, hm, hle, habove, htop⟩ := ih
    rw [List.range_succ, List.filter_append, List.getLast?_append]
    by_cases hp : p n = true
    · simp only [List.filter_cons_of_pos hp, List.filter_nil, List.getLast?_singleton, Option.some_or, Option.map_some,
        Option.getD_some]
      exact ⟨n + 1, rfl, le_refl _, fun i h1 h2 => absurd h2 (Nat.not_lt.mpr h1), fun _ => hp⟩
    · simp only [List.filter_cons_of_neg hp, List.filter_nil, List.getLast?_nil, Option.none_or]
      refine ⟨m, hm, Nat.le_succ_of_le hle, fun i h1 h2 => ?_, htop⟩
      rcases Nat.lt_succ_iff_lt_or_eq.mp h2 with h | rfl
      · exact habove i h1 h
      · exact Bool.not_eq_true _ ▸ hp

/-- The lowest number below `n` of which `p` holds: `n` when it holds of none. -/
theorem headD_filter_range (p : Nat → Bool) (n : Nat) :
    let k := ((List.range n).filter p).headD n
    k ≤ n ∧ (∀ i, i < k → p i = false) ∧ (k < n → p k = true) := by
  rw [List.headD_eq_head?_getD, List.head?_filter]
  cases h : (List.range n).find? p with
  | none =>
    have hnone := List.find?_range_eq_none.mp h
    exact ⟨le_refl n, fun i hi => by simpa using hnone i hi, fun hlt => absurd hlt (Nat.lt_irrefl n)⟩
  | some k =>
    obtain ⟨hp, hk, hbelow⟩ := List.find?_range_eq_some.mp h
    exact ⟨(List.mem_range.mp hk).le, fun i hi => by simpa using hbelow i hi, fun _ => hp⟩

/-- A count within the width is not changed by its extension. -/
theorem extZ_natCast_of_le {k n : Nat} (h : k ≤ n) : extZ (k : Int) n = BitVec.ofNat 64 k := by
  have hlt : k < 2 ^ n := h.trans_lt Nat.lt_two_pow_self
  rw [extZ_of_range (Int.natCast_nonneg k) (by exact_mod_cast hlt), BitVec.ofInt_natCast]

theorem oneBits_eq {n : Nat} (x : BitVec n) : oneBits x.toNat n = (List.range n).filter fun i => x.getLsbD i := by
  refine List.filter_congr fun i _ => ?_
  rw [BitVec.getLsbD, Nat.testBit_eq_decide_div_mod_eq]
  rfl

theorem clzVal_spec (w : BitVec 2) (v : Word) :
    let n := widthBits w
    let x : BitVec n := v.setWidth n
    ∃ k, k ≤ n ∧ clzVal w v = BitVec.ofNat 64 k ∧ (∀ i, n - k ≤ i → x.getLsbD i = false) ∧ (k < n → x.getLsbD (n - 1 - k) = true) := by
  intro n x
  obtain ⟨m, hm, hle, habove, htop⟩ := topOf_filter_range (fun i => x.getLsbD i) n
  rw [clzVal, uval_eq, oneBits_eq, hm]
  refine ⟨n - m, Nat.sub_le _ _, extZ_natCast_of_le (Nat.sub_le _ _), fun i hi => ?_, fun hk => ?_⟩
  · rcases Nat.lt_or_ge i n with h | h
    · exact habove i (by omega) h
    · exact BitVec.getLsbD_of_ge x i h
  · have := htop (by omega)
    rwa [show n - 1 - (n - m) = m - 1 by omega]

theorem ctzVal_spec (w : BitVec 2) (v : Word) :
    let n := widthBits w
    let x : BitVec n := v.setWidth n
    ∃ k, k ≤ n ∧ ctzVal w v = BitVec.ofNat 64 k ∧ (∀ i, i < k → x.getLsbD i = false) ∧ (k < n → x.getLsbD k = true) := by
  intro n x
  obtain ⟨hle, hbelow, hk⟩ := headD_filter_range (fun i => x.getLsbD i) n
  rw [ctzVal, uval_eq, oneBits_eq]
  exact ⟨_, hle, extZ_natCast_of_le hle, hbelow, hk⟩

theorem popcVal_eq (w : BitVec 2) (v : Word) : popcVal w v
    = BitVec.ofNat 64 ((List.range (widthBits w)).countP fun i => (v.setWidth (widthBits w)).getLsbD i) := by
  have hle : ((List.range (widthBits w)).countP fun i => (v.setWidth (widthBits w)).getLsbD i) ≤ widthBits w :=
    List.countP_le_length.trans_eq List.length_range
  rw [popcVal, uval_eq, oneBits_eq, ← List.countP_eq_length_filter, extZ_natCast_of_le hle]

/-- Byte `i` of a number written as bytes. -/
theorem natLe_getD (v : Nat) {n i : Nat} (h : i < n) : (natLe v n).getD i 0 = BitVec.ofNat 8 (v / 256 ^ i) := by
  induction n generalizing v i with
  | zero => omega
  | succ n ih =>
    cases i with
    | zero => simp [natLe]
    | succ i => rw [natLe, List.getD_cons_succ, ih _ (by omega), Nat.div_div_eq_div_mul, pow_succ']

/-- The bytes of a number in the opposite order. -/
theorem leNat_reverse_natLe {n e : Nat} (x : BitVec n) (hn : n = 8 * e) :
    leNat (natLe x.toNat e).reverse < 2 ^ n
      ∧ ∀ j, j < e → leNat (natLe x.toNat e).reverse / 256 ^ j % 256 = (x.extractLsb' (n - 8 - 8 * j) 8).toNat := by
  have hlen : (natLe x.toNat e).reverse.length = e := by rw [List.length_reverse, length_natLe]
  refine ⟨?_, fun j hj => ?_⟩
  · have hpow : 2 ^ n = 256 ^ e := by rw [hn, pow_mul]; rfl
    exact (leNat_lt _).trans_eq (by rw [hlen, hpow])
  · have hpos : n - 8 - 8 * j = 8 * (e - 1 - j) := by omega
    rw [leNat_div_mod, List.getD_reverse _ (by rw [length_natLe]; exact hj), length_natLe, natLe_getD _ (by omega),
      BitVec.extractLsb'_toNat, BitVec.toNat_ofNat, Nat.shiftRight_eq_div_pow, hpos, pow_mul]
    rfl

theorem bswapVal_spec (w : BitVec 2) (v : Word) :
    let n := widthBits w
    (bswapVal w v).toNat < 2 ^ n
      ∧ ∀ j, j < n / 8 → (bswapVal w v).extractLsb' (8 * j) 8 = (v.setWidth n).extractLsb' (n - 8 - 8 * j) 8 := by
  intro n
  have hn : n = 8 * (n / 8) := by have := widthBits_cases w; omega
  obtain ⟨hlt, hbytes⟩ := leNat_reverse_natLe (v.setWidth n) hn
  have h64 : 2 ^ n ≤ 2 ^ 64 := Nat.pow_le_pow_right (by decide) (widthBits_le w)
  rw [bswapVal, uval_eq, extZ_of_range (Int.natCast_nonneg _) (by exact_mod_cast hlt), BitVec.ofInt_natCast]
  refine ⟨?_, fun j hj => extractLsb'_ofNat_eq ?_⟩
  · rw [BitVec.toNat_ofNat, Nat.mod_eq_of_lt (hlt.trans_le h64)]
    exact hlt
  · rw [Nat.mod_eq_of_lt (hlt.trans_le h64), pow_mul]
    exact hbytes j hj

/-- Settles O4: each word writes the value of its one operand, and the counts and byte order have the bits that R98 says. -/
theorem integerUnaryResults : Obligations.integer_unary_results := by
  intro g d a w s t hr n x gives
  refine ⟨issueLine_done hr (by simp), fun ha => ?_⟩
  have unary : ∀ {f : Word → Word} {v : Word}, f (getG t.line a) = v → issueUnary g d a f s = gives v :=
    issueUnary_gives hr ha
  obtain ⟨kz, hkz, hclz, hclz'⟩ := clzVal_spec w (getG t.line a)
  obtain ⟨kt, hkt, hctz, hctz'⟩ := ctzVal_spec w (getG t.line a)
  refine ⟨unary (negVal_zero ..), fun hx => unary ((negVal_one_of_ne hx).trans (negVal_zero ..)), unary (absVal_zero ..),
    fun hx => unary ((absVal_one_of_ne hx).trans (absVal_zero ..)), unary ?_, ⟨kz, hkz, unary hclz, hclz'⟩,
    ⟨kt, hkt, unary hctz, hctz'⟩, unary (popcVal_eq ..), ⟨_, unary rfl, bswapVal_spec w _⟩⟩
  rw [sextVal, sval_eq, extS_toInt]

end Sys2Proof.Machine

/-! # Immediate and bit-field words (O5) -/

namespace Sys2Proof.Machine

/-! ### Bit fields (R102, R103) -/

/-- The bits of a number whose `m` bits from bit `p` up are replaced. -/
theorem testBit_insert (old p m i : Nat) {x : Nat} (hx : x < 2 ^ m) :
    (old % 2 ^ p + x * 2 ^ p + old / 2 ^ (p + m) * 2 ^ (p + m)).testBit i
      = if p ≤ i ∧ i < p + m then x.testBit (i - p) else old.testBit i := by
  have hsum : old % 2 ^ p + x * 2 ^ p + old / 2 ^ (p + m) * 2 ^ (p + m)
      = 2 ^ p * (2 ^ m * (old / 2 ^ (p + m)) + x) + old % 2 ^ p := by
    rw [pow_add]
    ring
  rw [hsum, Nat.testBit_two_pow_mul_add _ (Nat.mod_lt _ (by positivity)), Nat.testBit_two_pow_mul_add _ hx]
  by_cases h1 : i < p
  · rw [if_pos h1, if_neg (by omega), Nat.testBit_mod_two_pow, decide_eq_true h1, Bool.true_and]
  · rw [if_neg h1]
    by_cases h2 : i < p + m
    · rw [if_pos (by omega), if_pos (by omega)]
    · rw [if_neg (by omega), if_neg (by omega), Nat.testBit_div_two_pow, show i - p - m + (p + m) = i by omega]

theorem binsVal_getLsbD (p n : BitVec 6) (old x : Word) {i : Nat} (hi : i < 64) : (binsVal p n old x).getLsbD i
    = if p.toNat ≤ i ∧ i < p.toNat + (n.toNat + 1) then x.getLsbD (i - p.toNat) else old.getLsbD i := by
  rw [binsVal, BitVec.getLsbD_ofNat, decide_eq_true hi, Bool.true_and, Nat.add_assoc p.toNat, testBit_insert _ _ _ _ (Nat.mod_lt _ (by positivity))]
  split
  · rw [Nat.testBit_mod_two_pow, decide_eq_true (by omega), Bool.true_and, BitVec.getLsbD]
  · rfl

theorem movhVal_getLsbD (p : Reg) (imm : BitVec 16) (x : Word) {i : Nat} (hi : i < 64) : (movhVal p imm x).getLsbD i
    = if 16 * p.toNat ≤ i ∧ i < 16 * p.toNat + 16 then imm.getLsbD (i - 16 * p.toNat) else x.getLsbD i := by
  rw [movhVal, BitVec.getLsbD_ofNat, decide_eq_true hi, Bool.true_and, testBit_insert _ _ _ _ imm.isLt]
  rfl

theorem bextVal_eq (p n : BitVec 6) (x : Word) : bextVal p n x = (x.extractLsb' p.toNat (n.toNat + 1)).signExtend 64 := by
  rw [bextVal, extS_eq, BitVec.ofInt_natCast, BitVec.extractLsb', Nat.shiftRight_eq_div_pow]

theorem bextbVal_eq (p n : BitVec 6) (x : Word) : bextbVal p n x = (x.extractLsb' p.toNat (n.toNat + 1)).setWidth 64 := by
  rw [bextbVal, extZ_eq, BitVec.ofInt_natCast, BitVec.extractLsb', Nat.shiftRight_eq_div_pow]

/-- A shift amount of a word stands in six bits. -/
theorem toNat_amount (k : BitVec 6) : (k.setWidth 64 : Word).toNat = k.toNat :=
  BitVec.toNat_setWidth_of_le (by decide)

/-! ### The words -/

section Immediate

variable {g : BitVec 4} {d a : Reg} {s : State} {t : LiveLine}

/-- A function of an int64 register and an extended immediate. -/
theorem issueImm_done (hr : Ready (hdr g [d, a]) s t) (ha : getTag t.line a = 0) (i : BitVec 16) (b : Bool) (f : Word → Word → Word) :
    issueImm g d a i b f s = .next (done s t (setG (counted (hdr g [d, a]) t) d
      (f (getG t.line a) (extField (issueCtx (hdr g [d, a]) t) i.toNat 16 b)) 0)) := by
  refine issueLine_done hr ?_
  simp [intUnary, checkTags, ha, orTrap]

theorem execMovi_done (hr : Ready (hdr g [d]) s t) (i : BitVec 16) : execMovi g d i s
    = .next (done s t (setG (counted (hdr g [d]) t) d (extField (issueCtx (hdr g [d]) t) i.toNat 16 true) 0)) :=
  issueLine_done hr rfl

theorem execMovh_done (hr : Ready (hdr g [d]) s t) (hd : getTag t.line d = 0) (p : Reg) (i : BitVec 16) :
    execMovh g d p i s = .next (done s t (setG (counted (hdr g [d]) t) d (movhVal p i (getG t.line d)) 0)) := by
  refine issueLine_done hr ?_
  simp [intUnary, checkTags, hd, orTrap]

end Immediate

/-- Settles O5: each word writes the value of its operand and its field, read bit by bit for the bit-field forms. -/
theorem immediateResults : Obligations.immediate_results := by
  intro g d a p imm w k pos len s t n x whole old m
  refine ⟨?_, ?_, ?_⟩
  · intro hr ha ext gives
    have unary : ∀ {f : Word → Word} {v : Word}, f (getG t.line a) = v → issueUnary g d a f s = gives v :=
      issueUnary_gives hr ha
    refine ⟨issueImm_done hr ha .., issueImm_done hr ha .., issueImm_done hr ha .., issueImm_done hr ha .., unary ?_, unary ?_,
      unary ?_, unary ?_, fun _ => ⟨unary (bextVal_eq ..), unary (bextbVal_eq ..)⟩⟩
    · rw [shlVal_zero, toNat_amount]
    · rw [shrVal_eq, toNat_amount]
    · rw [sarVal_eq, toNat_amount]
    · rw [rolVal_eq, toNat_amount]
  · intro hr gives
    refine ⟨execMovi_done hr imm, fun hp hd => ⟨_, execMovh_done hr hd p imm, ?_, fun i hi => ?_⟩⟩
    · apply BitVec.eq_of_getLsbD_eq
      intro i hi
      rw [BitVec.getLsbD_extractLsb', decide_eq_true hi, Bool.true_and, movhVal_getLsbD _ _ _ (by omega), if_pos (by omega),
        Nat.add_sub_cancel_left]
    · rcases Nat.lt_or_ge i 64 with h | h
      · rw [movhVal_getLsbD _ _ _ h, if_neg (by omega)]
      · rw [BitVec.getLsbD_of_ge _ _ h, BitVec.getLsbD_of_ge _ _ h]
  · intro hr ha hd _
    exact ⟨_, issueBinary_done hr ha hd _, fun i hi => binsVal_getLsbD pos len old whole hi⟩

end Sys2Proof.Machine

/-! # Transfers (O16) and words on predicates (O7, O8) -/

namespace Sys2Proof.Machine

/-! ### Transfers (R112) -/

/-- A field of a number is that of the word. -/
theorem nbits_eq (v : Word) (lo k : Nat) : nbits v.toNat lo k = (v.extractLsb' lo k).toNat := by
  rw [nbits, BitVec.extractLsb'_toNat, Nat.shiftRight_eq_div_pow]

theorem codeAligned_iff (v : Word) : codeAligned v = true ↔ v.extractLsb' 0 2 = 0 ∧ v.extractLsb' 48 16 = 0 := by
  rw [codeAligned, Bool.and_eq_true, beq_iff_eq, beq_iff_eq, nbits_eq, nbits_eq]
  exact and_congr (BitVec.toNat_inj (y := 0)) (BitVec.toNat_inj (y := 0))

section Transfer

variable {h : Hdr} {g : BitVec 4} {a d : Reg} {s : State} {t : LiveLine}

/-- A jump through a register goes to an aligned address, with the line as `f` leaves it. -/
theorem jumpReg_done (hr : Ready h s t) (ha : getTag t.line a = 0x0C ∨ getTag t.line a = 0) (f : Line → BitVec 48 → Line)
    (hv : codeAligned (getG t.line a) = true) :
    issueWord h (jumpReg a f) s = .next (doneAt s t (f (counted h t) (wordPc t)) ((getG t.line a).setWidth 48)) := by
  have htag : checkTags (counted h t) [(a, [codeTag, 0])] = none := by
    rcases ha with ha | ha <;> simp [checkTags, ha, codeTag]
  rw [issueWord_ready hr]
  simp only [jumpReg, issueCtx_tline, htag, counted_getG, hv, if_true]
  rfl

/-- An address that is not aligned takes CodeAlignment. -/
theorem jumpReg_unaligned (hr : Ready h s t) (ha : getTag t.line a = 0x0C ∨ getTag t.line a = 0) (f : Line → BitVec 48 → Line)
    (hv : ¬ codeAligned (getG t.line a) = true) :
    issueWord h (jumpReg a f) s = .next (trapped s t (trapCodeAlign (getG t.line a).toNat)) := by
  have htag : checkTags (counted h t) [(a, [codeTag, 0])] = none := by
    rcases ha with ha | ha <;> simp [checkTags, ha, codeTag]
  rw [issueWord_ready hr]
  simp only [jumpReg, issueCtx_tline, htag, counted_getG, hv]
  rfl

theorem execBr_done (hr : Ready (hdr g []) s t) (o : BitVec 22) : execBr g o s
    = .next (doneAt s t (counted (hdr g []) t) (branchTarget (wordPc t) (extField (issueCtx (hdr g []) t) o.toNat 22 true))) := by
  rw [execBr, issueWord_ready hr]
  rfl

theorem execCall_done (hr : Ready (hdr g [7]) s t) (o : BitVec 22) : execCall g o s
    = .next (doneAt s t (linkLine (counted (hdr g [7]) t) (wordPc t))
      (branchTarget (wordPc t) (extField (issueCtx (hdr g [7]) t) o.toNat 22 true))) := by
  rw [execCall, issueWord_ready hr]
  rfl

theorem execNop_done (hr : Ready (hdr g []) s t) : execNop g s = .next (done s t (counted (hdr g []) t)) := by
  rw [execNop, issueWord_ready hr]
  rfl

theorem execLoop_done (hr : Ready (hdr g [d]) s t) (hd : getTag t.line d = 0) (o : BitVec 16) :
    let l := setG (counted (hdr g [d]) t) d (getG t.line d - 1) 0
    execLoop g d o s = .next (if getG t.line d = 1 then done s t l
      else doneAt s t l (branchTarget (wordPc t) (extField (issueCtx (hdr g [d]) t) o.toNat 16 true))) := by
  rw [execLoop, issueWord_ready hr]
  simp only [issueCtx_tline, checkTags_int ((counted_getTag _ t d).trans hd), checkTags_nil, counted_getG]
  by_cases h1 : getG t.line d = 1
  · rw [if_pos h1, if_pos (by rw [h1]; rfl)]
    rfl
  · rw [if_neg h1, if_neg (fun h0 => h1 (sub_eq_zero.mp h0))]
    rfl

end Transfer

/-- Settles O16: branches and calls go to the target of their offset, register jumps by the alignment of gA, loop by its count. -/
theorem transferResults : Obligations.transfer_results := by
  intro g a d o o16 s t p link dest v aligned
  have hcode : codeAligned v = true ↔ aligned := codeAligned_iff v
  refine ⟨fun hr => ⟨execBr_done hr o, execNop_done hr⟩, fun hr => execCall_done hr o, fun hr ha => ⟨fun hv => ?_, fun hv => ?_⟩,
    fun hr ha => ⟨fun hv => ?_, fun hv => ?_⟩, fun hr hd => execLoop_done hr hd o16⟩
  · exact ⟨jumpReg_done hr ha _ (hcode.mpr hv), jumpReg_done hr ha _ (hcode.mpr hv)⟩
  · exact ⟨jumpReg_unaligned hr ha _ (mt hcode.mp hv), jumpReg_unaligned hr ha _ (mt hcode.mp hv)⟩
  · exact jumpReg_done hr ha linkLine (hcode.mpr hv)
  · exact jumpReg_unaligned hr ha linkLine (mt hcode.mp hv)

/-! ### Words whose operands pass the check of tags -/

/-- Registers of accepted tags raise no trap. -/
theorem checkTags_accepted {l : Line} {ts : List (Reg × List Byte)} (h : ∀ e ∈ ts, e.2.contains (getTag l e.1) = true) :
    checkTags l ts = none := by
  induction ts with
  | nil => rfl
  | cons e ts ih =>
    rw [List.forall_mem_cons] at h
    rw [checkTags, if_pos h.1, ih h.2]

/-- A word whose operands have the tags it asks for is done. -/
theorem issueChecked_done {h : Hdr} {s : State} {t : LiveLine} (hr : Ready h s t) {f : Ctx → Except Trap Line} {l : Line}
    {ts : List (Reg × List Byte)} (hf : f (issueCtx h t) = orTrap (checkTags (counted h t) ts) l)
    (hts : ∀ e ∈ ts, e.2.contains (getTag t.line e.1) = true) : issueWord h (lineBody f) s = .next (done s t l) := by
  refine issueLine_done hr ?_
  rw [hf, checkTags_accepted fun e he => by rw [counted_getTag]; exact hts e he]
  rfl

/-! ### Predicate operations (R105) -/

/-- A predicate field after a write: q0 is never written (R13). -/
theorem getQ_setQ (l : Line) (d r : Reg) (v : Byte) : getQ (setQ l d v) r = if r ≠ 0 ∧ r = d then v else getQ l r := by
  by_cases hrd : r = d
  · subst hrd
    by_cases h0 : r = 0
    · subst h0
      rw [if_neg fun h => h.1 rfl, setQ_zero]
    · rw [if_pos ⟨h0, rfl⟩, getQ_setQ_self _ _ _ h0]
  · rw [if_neg fun h => hrd h.2, getQ_setQ_ne _ _ _ _ hrd]

@[simp] theorem setQ_g (l : Line) (d : Reg) (v : Byte) : (setQ l d v).g = l.g := by
  unfold setQ; split <;> rfl

@[simp] theorem setQ_tag (l : Line) (d : Reg) (v : Byte) : (setQ l d v).tag = l.tag := by
  unfold setQ; split <;> rfl

theorem counted_g (h : Hdr) (t : LiveLine) : (counted h t).g = t.line.g := by rw [counted_frame]
theorem counted_tag (h : Hdr) (t : LiveLine) : (counted h t).tag = t.line.tag := by rw [counted_frame]

/-- The line after a write of qD alone. -/
theorem setQ_counted (h : Hdr) (t : LiveLine) (d : Reg) (v : Byte) :
    (∀ r, getQ (setQ (counted h t) d v) r = if r ≠ 0 ∧ r = d then v else getQ t.line r)
      ∧ (setQ (counted h t) d v).g = t.line.g ∧ (setQ (counted h t) d v).tag = t.line.tag :=
  ⟨fun r => by rw [getQ_setQ, counted_getQ], by rw [setQ_g, counted_g], by rw [setQ_tag, counted_tag]⟩

theorem truthField_any {n : Nat} (f : Nat → Bool) :
    truthField ((List.range n).any f) = if ((List.range n).map f).contains true then 0xFF else 0 := by
  simp [truthField]

theorem truthField_all {n : Nat} (f : Nat → Bool) :
    truthField ((List.range n).all f) = if ((List.range n).map f).contains false then 0 else 0xFF := by
  by_cases h : ∀ i < n, f i = true
  · have h' : ¬ ∃ i < n, f i = false := by simpa using h
    simp [truthField, h']
  · have h' : ∃ i < n, f i = false := by simpa using h
    simp [truthField, h, h']

theorem execGtoq_done {g : BitVec 4} {a : Reg} {s : State} {t : LiveLine} (hr : Ready (hdr g [a]) s t) (ha : getTag t.line a = 0)
    (d : Reg) : execGtoq g d a s = .next (done s t (setQ (counted (hdr g [a]) t) d ((getG t.line a).extractLsb' 0 8))) := by
  refine (issueChecked_done hr rfl (by simp [ha])).trans ?_
  rw [issueCtx_tline, counted_getG, ← BitVec.setWidth_eq_extractLsb' (by decide)]

/-- A predicate operation whose value is known. -/
theorem issueQ_gives {g : BitVec 4} {d : Reg} {s : State} {t : LiveLine} (hr : Ready (hdr g []) s t) {f : Line → Byte} {v : Byte}
    (hv : f (counted (hdr g []) t) = v) : issueQ g d f s = .next (done s t (setQ (counted (hdr g []) t) d v)) := by
  rw [issueQ_done hr, hv]

/-! The meanings of the words. -/

theorem exec_qand (g : BitVec 4) (d a b : Reg) (s : State) : exec (.qand g d a b) s = execQand g d a b s := rfl
theorem exec_qor (g : BitVec 4) (d a b : Reg) (s : State) : exec (.qor g d a b) s = execQor g d a b s := rfl
theorem exec_qxor (g : BitVec 4) (d a b : Reg) (s : State) : exec (.qxor g d a b) s = execQxor g d a b s := rfl
theorem exec_qnot (g : BitVec 4) (d a : Reg) (s : State) : exec (.qnot g d a) s = execQnot g d a s := rfl
theorem exec_qmov (g : BitVec 4) (d a : Reg) (s : State) : exec (.qmov g d a) s = execQmov g d a s := rfl
theorem exec_qset (g : BitVec 4) (d : Reg) (i : BitVec 8) (s : State) : exec (.qset g d i) s = execQset g d i s := rfl
theorem exec_qany (g : BitVec 4) (d a : Reg) (w : BitVec 2) (s : State) : exec (.qany g d a w) s = execQany g d a w s := rfl
theorem exec_qall (g : BitVec 4) (d a : Reg) (w : BitVec 2) (s : State) : exec (.qall g d a w) s = execQall g d a w s := rfl
theorem exec_qtog (g : BitVec 4) (d : Reg) (i : BitVec 8) (s : State) : exec (.qtog g d i) s = execQtog g d i s := rfl
theorem exec_gtoq (g : BitVec 4) (d a : Reg) (s : State) : exec (.gtoq g d a) s = execGtoq g d a s := rfl

/-- Settles O8: each word writes its value to qD and nothing else. -/
theorem predicateResults : Obligations.predicate_results := by
  intro g d a b imm w s t qa qb low after gives
  have word : ∀ {i : Instr} {v : Byte} (h : Hdr), exec i s = .next (done s t (setQ (counted h t) d v)) → gives i v :=
    fun h he => ⟨_, he, setQ_counted ..⟩
  refine ⟨fun hr => ?_, fun hr ha => word _ ((exec_gtoq ..).trans (execGtoq_done hr ha d))⟩
  refine ⟨word _ ((exec_qand ..).trans (issueQ_gives hr ?_)), word _ ((exec_qor ..).trans (issueQ_gives hr ?_)),
    word _ ((exec_qxor ..).trans (issueQ_gives hr ?_)), word _ ((exec_qnot ..).trans (issueQ_gives hr ?_)),
    word _ ((exec_qmov ..).trans (issueQ_gives hr ?_)), word _ ((exec_qset ..).trans (issueQ_gives hr rfl)),
    word _ ((exec_qany ..).trans (issueQ_gives hr ?_)), word _ ((exec_qall ..).trans (issueQ_gives hr ?_)),
    word _ ((exec_qtog ..).trans (issueQ_gives hr ?_))⟩
  · rw [counted_getQ, counted_getQ]
  · rw [counted_getQ, counted_getQ]
  · rw [counted_getQ, counted_getQ]
  · rw [counted_getQ]
  · rw [counted_getQ]
  · rw [truthField_any, counted_getQ]
  · rw [truthField_all, counted_getQ]
  · rw [counted_getQ]

/-! ### Compares (R104, R15) -/

/-- The twelve conditions on two bit vectors, in the order of R104. -/
def conditions {n : Nat} (x y : BitVec n) : List Bool :=
  [x == y, x != y, x.slt y, x.sle y, y.slt x, y.sle x, x.ult y, x.ule y, y.ult x, y.ule x, (x &&& y) != 0, (x &&& y) == 0]

theorem toNat_beq {n : Nat} (x y : BitVec n) : (x.toNat == y.toNat) = (x == y) := by
  rw [Bool.eq_iff_iff, beq_iff_eq, beq_iff_eq, BitVec.toNat_inj]

theorem condition_eq (x y : Word) (n : Nat) {c : Nat} (hc : c < 12) :
    (conditions (x.setWidth n) (y.setWidth n))[c]? = some (condition c x y n) := by
  have hand : uval (x &&& y) n = (x.setWidth n &&& y.setWidth n).toNat := by rw [uval_eq, BitVec.setWidth_and]
  have hzero : (0 : BitVec n).toNat = 0 := BitVec.toNat_zero
  match c, hc with
  | 0, _ | 1, _ => simp only [condition, uval_eq, bne, toNat_beq]; rfl
  | 2, _ | 3, _ | 4, _ | 5, _ => simp only [condition, sval_eq]; rfl
  | 6, _ | 7, _ | 8, _ | 9, _ => simp only [condition, uval_eq]; rfl
  | 10, _ | 11, _ => simp only [condition, hand, bne, ← hzero, toNat_beq]; rfl

/-- A condition that the list holds is the one that the word tests. -/
theorem condition_of_get {x y : Word} {n c : Nat} {p : Bool} (h : (conditions (x.setWidth n) (y.setWidth n))[c]? = some p) :
    condition c x y n = p := by
  have hc : c < 12 := (List.getElem?_eq_some_iff.mp h).1
  rw [condition_eq x y n hc] at h
  exact Option.some.inj h

/-- Bits put together are found again. -/
theorem testBit_bits_sum (f : Nat → Bool) (n i : Nat) :
    (((List.range n).map fun j => b2n (f j) * 2 ^ j).sum < 2 ^ n)
      ∧ (((List.range n).map fun j => b2n (f j) * 2 ^ j).sum.testBit i = (decide (i < n) && f i)) := by
  induction n with
  | zero => simp
  | succ n ih =>
    obtain ⟨hlt, hbit⟩ := ih
    rw [List.range_succ, List.map_append, List.sum_append, List.map_singleton, List.sum_singleton, add_comm, mul_comm]
    refine ⟨?_, ?_⟩
    · have := Nat.mul_le_mul_left (2 ^ n) (b2n_le (f n))
      rw [pow_succ]
      omega
    · rw [Nat.testBit_two_pow_mul_add _ hlt, hbit]
      split
      · rw [decide_eq_true ‹i < n›, decide_eq_true (by omega)]
      · rcases Nat.eq_or_lt_of_not_lt ‹_› with rfl | h
        · cases f i <;> simp [b2n]
        · have : b2n (f n) < 2 ^ (i - n) := (b2n_le _).trans_lt (Nat.one_lt_two_pow (by omega))
          rw [Nat.testBit_lt_two_pow this, decide_eq_false (by omega), Bool.false_and]

/-- The bits of a predicate field written lanewise. -/
theorem laneField_getLsbD (old mask : Byte) {n : Nat} (f : Nat → Bool) {j : Nat} (hj : j < 8) :
    (laneField old mask n f).getLsbD j = (decide (j < n) && if mask.getLsbD j then f j else old.getLsbD j) := by
  rw [laneField, BitVec.getLsbD_ofNat, decide_eq_true hj, Bool.true_and]
  exact (testBit_bits_sum _ n j).2

theorem ofNat_mod_two_pow (n v : Nat) : BitVec.ofNat n (v % 2 ^ n) = BitVec.ofNat n v :=
  BitVec.eq_of_toNat_eq (by rw [BitVec.toNat_ofNat, BitVec.toNat_ofNat, Nat.mod_mod])

/-- The low bits of a lane read as a word are the lane. -/
theorem laneWord_setWidth (v : Word) {n : Nat} (hn : n ≤ 64) (j : Nat) : (laneWord v n j).setWidth n = v.extractLsb' (n * j) n := by
  rw [laneWord, BitVec.setWidth_ofNat_of_le hn, laneAt, ofNat_mod_two_pow, BitVec.extractLsb', Nat.shiftRight_eq_div_pow]

theorem condition_lane (x y : Word) {n : Nat} (hn : n ≤ 64) (j : Nat) {c : Nat} (hc : c < 12) :
    (conditions (x.extractLsb' (n * j) n) (y.extractLsb' (n * j) n))[c]? = some (condition c (laneWord x n j) (laneWord y n j) n) := by
  rw [← laneWord_setWidth x hn, ← laneWord_setWidth y hn, condition_eq _ _ n hc]

theorem cmpiSigned_eq (c : BitVec 4) : cmpiSigned c = decide (c.toNat < 6 ∨ 9 < c.toNat) := by
  rw [Bool.eq_iff_iff]
  simp [cmpiSigned]

theorem exec_cmp (g : BitVec 4) (d a b : Reg) (c : BitVec 5) (w : BitVec 2) (l : BitVec 1) (s : State) :
    exec (.cmp g d a b c w l) s = execCmp g d a b c w l s := rfl
theorem exec_cmpi (g : BitVec 4) (d a : Reg) (c : BitVec 4) (i : BitVec 12) (s : State) :
    exec (.cmpi g d a c i) s = execCmpi g d a c i s := rfl

section Compare

variable {g : BitVec 4} {d a b : Reg} {s : State} {t : LiveLine}

theorem execCmp_scalar (hr : Ready (hdr g [a, b]) s t) (ha : getTag t.line a = 0) (hb : getTag t.line b = 0) (c : BitVec 5)
    (w : BitVec 2) : execCmp g d a b c w 0 s = .next (done s t (setQ (counted (hdr g [a, b]) t) d
      (truthField (condition c.toNat (getG t.line a) (getG t.line b) (widthBits w))))) := by
  refine (issueChecked_done hr (if_pos rfl) (by simp [ha, hb])).trans ?_
  rw [issueCtx_tline, counted_getG, counted_getG]

theorem execCmp_lanes {w : BitVec 2} (hr : Ready (hdr g [a, b]) s t) (ha : getTag t.line a = laneTag w)
    (hb : getTag t.line b = laneTag w) (c : BitVec 5) : execCmp g d a b c w 1 s = .next (done s t (setQ (counted (hdr g [a, b]) t) d
      (laneField (getQ t.line d) (laneMask t.line g) (2 ^ w.toNat) fun j => condition c.toNat
        (laneWord (getG t.line a) (widthBits w) j) (laneWord (getG t.line b) (widthBits w) j) (widthBits w)))) := by
  refine (issueChecked_done hr (if_neg (by decide)) (by simp [ha, hb])).trans ?_
  simp only [issueCtx_tline, counted_getG, counted_getQ, laneMask]

theorem execCmpi_done (hr : Ready (hdr g [a]) s t) (ha : getTag t.line a = 0) (c : BitVec 4) (i : BitVec 12) :
    execCmpi g d a c i s = .next (done s t (setQ (counted (hdr g [a]) t) d (truthField (condition c.toNat (getG t.line a)
      (extField (issueCtx (hdr g [a]) t) i.toNat 12 (cmpiSigned c)) 64)))) := by
  refine (issueChecked_done hr rfl (by simp [ha])).trans ?_
  rw [issueCtx_tline, counted_getG]

end Compare

/-- Settles O7: a compare tests the condition of its code on the low bits, on each enabled lane, or on all bits. -/
theorem compareResults : Obligations.compare_results := by
  intro g d a b c ci imm w s t n conds lane
  refine ⟨fun hr => ⟨fun ha hb p hp => ?_, fun hw ha hb hc => ?_⟩, ?_⟩
  · rw [exec_cmp, execCmp_scalar hr ha hb, condition_of_get hp]
    rfl
  · refine ⟨_, (exec_cmp ..).trans (execCmp_lanes hr ha hb c), fun j hj => ?_⟩
    rw [laneField_getLsbD _ _ _ hj]
    by_cases hlane : j < 2 ^ w.toNat
    · rw [if_neg (Nat.not_le.mpr hlane), decide_eq_true hlane, Bool.true_and]
      by_cases hm : (laneMask t.line g).getLsbD j = true
      · rw [if_pos hm, if_pos hm]
        exact (condition_lane _ _ (widthBits_le w) j hc).symm
      · rw [if_neg hm, if_neg hm]
    · rw [if_pos (Nat.not_lt.mp hlane), decide_eq_false hlane, Bool.false_and]
  · intro hr ha y p hp
    have hp' : (conditions ((getG t.line a).setWidth 64) (y.setWidth 64))[ci.toNat]? = some p := by
      rw [BitVec.setWidth_eq, BitVec.setWidth_eq]
      exact hp
    rw [exec_cmpi, execCmpi_done hr ha, cmpiSigned_eq, condition_of_get hp']
    rfl

end Sys2Proof.Machine

/-! # Short-vector words (O9, O10) -/

namespace Sys2Proof.Machine

/-! ### Lanes (R10, R14) -/

theorem lanesOf_lt (b : Nat) (f : Nat → Nat) (n : Nat) : lanesOf b f n < 2 ^ (b * n) := by
  induction n with
  | zero => simp [lanesOf]
  | succ n ih =>
    have hx : f n % 2 ^ b < 2 ^ b := Nat.mod_lt _ (by positivity)
    rw [lanesOf, Nat.mul_succ, pow_add]
    nlinarith

/-- A lane put is the lane found. -/
theorem lanesOf_lane (b : Nat) (f : Nat → Nat) {n j : Nat} (hj : j < n) : lanesOf b f n / 2 ^ (b * j) % 2 ^ b = f j % 2 ^ b := by
  induction n with
  | zero => omega
  | succ n ih =>
    rw [lanesOf]
    rcases Nat.lt_succ_iff_lt_or_eq.mp hj with h | rfl
    · obtain ⟨e, rfl⟩ := Nat.exists_eq_add_of_le h
      rw [show f (j + 1 + e) % 2 ^ b * 2 ^ (b * (j + 1 + e)) = 2 ^ (b * j) * (2 ^ b * (f (j + 1 + e) % 2 ^ b * 2 ^ (b * e))) by ring,
        Nat.add_mul_div_left _ _ (by positivity), Nat.add_mul_mod_self_left, ih h]
    · rw [Nat.add_mul_div_right _ _ (by positivity), Nat.div_eq_of_lt (lanesOf_lt b f j), Nat.zero_add, Nat.mod_mod]

theorem laneAt_eq (v : Word) (b j : Nat) : laneAt v b j = (v.extractLsb' (b * j) b).toNat := by
  rw [laneAt, BitVec.extractLsb'_toNat, Nat.shiftRight_eq_div_pow]

/-- A register written lanewise (R14): an enabled lane is new, a disabled one is the old one. -/
theorem laneWrite_lane (old : Word) (mask : Byte) {b n : Nat} (hn : b * n ≤ 64) (f : Nat → Nat) {j : Nat} (hj : j < n) :
    (laneWrite old mask b n f).extractLsb' (b * j) b = if mask.getLsbD j then BitVec.ofNat b (f j) else old.extractLsb' (b * j) b := by
  have hlt := (lanesOf_lt b (fun j => if mask.getLsbD j then f j else laneAt old b j) n).trans_le (Nat.pow_le_pow_right two_pos hn)
  rw [laneWrite, extractLsb'_ofNat, Nat.mod_eq_of_lt hlt, ← ofNat_mod_two_pow, lanesOf_lane b _ hj, ofNat_mod_two_pow]
  split
  · rfl
  · rw [laneAt_eq, BitVec.ofNat_toNat, BitVec.setWidth_eq]

theorem widthBits_mul_lanes (w : BitVec 2) : widthBits w * 2 ^ w.toNat = 64 := by
  revert w
  decide

/-! ### Lane values -/

theorem ofNat_wrapTo (v : Int) (n : Nat) : BitVec.ofNat n (wrapTo v n) = BitVec.ofInt n v := by
  rw [wrapTo_eq, BitVec.ofNat_toNat, BitVec.setWidth_eq]

theorem laneInt_signed {n : Nat} (x : BitVec n) : laneInt 0 x.toNat n = x.toInt := signed_eq x
theorem laneInt_unsigned {n : Nat} (x : BitVec n) : laneInt 1 x.toNat n = (x.toNat : Int) := rfl

theorem ofNat_laneSat_signed (v : Int) (n : Nat) :
    BitVec.ofNat n (laneSat 0 v n) = BitVec.ofInt n (max (-(2 : Int) ^ (n - 1)) (min ((2 : Int) ^ (n - 1) - 1) v)) := by
  rw [← satS_eq, ← ofNat_wrapTo]
  rfl

theorem ofNat_laneSat_unsigned (v : Int) (n : Nat) :
    BitVec.ofNat n (laneSat 1 v n) = BitVec.ofInt n (max 0 (min ((2 : Int) ^ n - 1) v)) := by
  rw [← satU_eq, ← ofNat_wrapTo]
  rfl

theorem toNat_shiftLeft_min {n : Nat} (x : BitVec n) (k : Nat) : x.toNat * 2 ^ min k n % 2 ^ n = (x <<< k).toNat := by
  rw [← shiftLeft_min, BitVec.toNat_shiftLeft, Nat.shiftLeft_eq]

theorem ofNat_toNat_self {n : Nat} (x : BitVec n) : BitVec.ofNat n x.toNat = x := by
  rw [BitVec.ofNat_toNat, BitVec.setWidth_eq]

section LaneValues

variable {n : Nat} (x y : BitVec n)

theorem lane_add : BitVec.ofNat n ((x.toNat + y.toNat) % 2 ^ n) = x + y := by
  rw [← BitVec.toNat_add, ofNat_toNat_self]

theorem lane_sub : BitVec.ofNat n (wrapTo ((x.toNat : Int) - y.toNat) n) = x - y := by
  rw [ofNat_wrapTo, Int.sub_eq_add_neg, BitVec.ofInt_add, BitVec.ofInt_neg, BitVec.ofInt_natCast, BitVec.ofInt_natCast,
    ofNat_toNat_self, ofNat_toNat_self, BitVec.sub_eq_add_neg]

/-- The lesser or the greater lane by its sign. -/
theorem lane_choose_signed (z z' : BitVec n) :
    BitVec.ofNat n (if laneInt 0 x.toNat n ≤ laneInt 0 y.toNat n then z.toNat else z'.toNat) = if x.sle y then z else z' := by
  rw [laneInt_signed, laneInt_signed, apply_ite (BitVec.ofNat n), ofNat_toNat_self, ofNat_toNat_self]
  exact if_congr BitVec.sle_iff_toInt_le.symm rfl rfl

theorem lane_choose_unsigned (z z' : BitVec n) :
    BitVec.ofNat n (if laneInt 1 x.toNat n ≤ laneInt 1 y.toNat n then z.toNat else z'.toNat) = if x.ule y then z else z' := by
  rw [laneInt_unsigned, laneInt_unsigned, apply_ite (BitVec.ofNat n), ofNat_toNat_self, ofNat_toNat_self]
  exact if_congr (by rw [BitVec.ule_eq_decide, decide_eq_true_eq, Int.ofNat_le]) rfl rfl

theorem lane_avg_unsigned : BitVec.ofNat n (wrapTo ((laneInt 1 x.toNat n + laneInt 1 y.toNat n + 1) / 2) n)
    = BitVec.ofNat n ((x.toNat + y.toNat + 1) / 2) := by
  rw [ofNat_wrapTo, laneInt_unsigned, laneInt_unsigned, ← BitVec.ofInt_natCast]
  push_cast
  rfl

theorem lane_shl : BitVec.ofNat n (x.toNat * 2 ^ min y.toNat n % 2 ^ n) = x <<< y.toNat := by
  rw [toNat_shiftLeft_min, ofNat_toNat_self]

theorem lane_shr : BitVec.ofNat n (x.toNat / 2 ^ min y.toNat n) = x >>> y.toNat := by
  rw [toNat_ushiftRight_min, ofNat_toNat_self]

theorem lane_sar : BitVec.ofNat n (wrapTo (signed x.toNat n / (2 ^ min y.toNat n : Nat)) n) = x.sshiftRight y.toNat := by
  rw [signed_eq, toInt_sshiftRight_min, ofNat_wrapTo, BitVec.ofInt_toInt]

end LaneValues

/-! ### The meanings of the words -/

theorem exec_vadd (g : BitVec 4) (d a b : Reg) (w : BitVec 2) (s : State) : exec (.vadd g d a b w) s = execVadd g d a b w s := rfl
theorem exec_vsub (g : BitVec 4) (d a b : Reg) (w : BitVec 2) (s : State) : exec (.vsub g d a b w) s = execVsub g d a b w s := rfl
theorem exec_vshl (g : BitVec 4) (d a b : Reg) (w : BitVec 2) (s : State) : exec (.vshl g d a b w) s = execVshl g d a b w s := rfl
theorem exec_vshr (g : BitVec 4) (d a b : Reg) (w : BitVec 2) (s : State) : exec (.vshr g d a b w) s = execVshr g d a b w s := rfl
theorem exec_vsar (g : BitVec 4) (d a b : Reg) (w : BitVec 2) (s : State) : exec (.vsar g d a b w) s = execVsar g d a b w s := rfl
theorem exec_vshuf (g : BitVec 4) (d a b : Reg) (w : BitVec 2) (s : State) : exec (.vshuf g d a b w) s = execVshuf g d a b w s := rfl
theorem exec_vadds (g : BitVec 4) (d a b : Reg) (w : BitVec 2) (u : BitVec 1) (s : State) :
    exec (.vadds g d a b w u) s = execVadds g d a b w u s := rfl
theorem exec_vsubs (g : BitVec 4) (d a b : Reg) (w : BitVec 2) (u : BitVec 1) (s : State) :
    exec (.vsubs g d a b w u) s = execVsubs g d a b w u s := rfl
theorem exec_vmul (g : BitVec 4) (d a b : Reg) (w : BitVec 2) (u : BitVec 1) (s : State) :
    exec (.vmul g d a b w u) s = execVmul g d a b w u s := rfl
theorem exec_vmin (g : BitVec 4) (d a b : Reg) (w : BitVec 2) (u : BitVec 1) (s : State) :
    exec (.vmin g d a b w u) s = execVmin g d a b w u s := rfl
theorem exec_vmax (g : BitVec 4) (d a b : Reg) (w : BitVec 2) (u : BitVec 1) (s : State) :
    exec (.vmax g d a b w u) s = execVmax g d a b w u s := rfl
theorem exec_vavg (g : BitVec 4) (d a b : Reg) (w : BitVec 2) (u : BitVec 1) (s : State) :
    exec (.vavg g d a b w u) s = execVavg g d a b w u s := rfl
theorem exec_vpack (g : BitVec 4) (d a b : Reg) (w : BitVec 2) (u : BitVec 1) (s : State) :
    exec (.vpack g d a b w u) s = execVpack g d a b w u s := rfl
theorem exec_vdot (g : BitVec 4) (d a b : Reg) (w : BitVec 2) (u : BitVec 1) (s : State) :
    exec (.vdot g d a b w u) s = execVdot g d a b w u s := rfl
theorem exec_vsel (g : BitVec 4) (d a b : Reg) (w : BitVec 2) (z : Reg) (s : State) :
    exec (.vsel g d a b w z) s = execVsel g d a b w z s := rfl
theorem exec_vunpk (g : BitVec 4) (d a : Reg) (w : BitVec 2) (h : BitVec 1) (s : State) : exec (.vunpk g d a w h) s = execVunpk g d a w h s := rfl
theorem exec_vsum (g : BitVec 4) (d a : Reg) (w : BitVec 2) (u : BitVec 1) (s : State) : exec (.vsum g d a w u) s = execVsum g d a w u s := rfl

/-! ### The words on lanes -/

section Lanes

variable {g : BitVec 4} {d a b : Reg} {w : BitVec 2} {s : State} {t : LiveLine}

/-- A word that writes its lanes under the mask of its guard, by the lane results. -/
theorem lanes_given {o : Host.Outcome State Fault Refusal} {h : Hdr} {n m : Nat} {f : Nat → Nat} {tag : Byte}
    (ho : o = .next (done s t (setG (counted h t) d (laneWrite (getG t.line d) (laneMask t.line g) n m f) tag)))
    (hm : n * m ≤ 64) {r : Nat → BitVec n} (hf : ∀ j, j < m → BitVec.ofNat n (f j) = r j) :
    ∃ v, o = .next (done s t (setG (counted h t) d v tag)) ∧ ∀ j, j < m → v.extractLsb' (n * j) n
      = if (laneMask t.line g).getLsbD j then r j else (getG t.line d).extractLsb' (n * j) n :=
  ⟨_, ho, fun j hj => by rw [laneWrite_lane _ _ hm _ hj, hf j hj]⟩

theorem issueLanes_done (hr : Ready (hdr g [d, a, b]) s t) (ha : getTag t.line a = laneTag w) (hb : getTag t.line b = laneTag w)
    (f : Nat → Nat → Nat) : issueLanes g d a b w f s = .next (done s t (setG (counted (hdr g [d, a, b]) t) d
      (laneWrite (getG t.line d) (laneMask t.line g) (widthBits w) (2 ^ w.toNat) fun j =>
        f (laneAt (getG t.line a) (widthBits w) j) (laneAt (getG t.line b) (widthBits w) j)) (laneTag w))) := by
  refine (issueChecked_done hr rfl (by simp [ha, hb])).trans ?_
  simp only [issueCtx_tline, counted_getG, counted_getQ, laneMask]

theorem execVsel_done (hr : Ready (hdr g [d, a, b]) s t) (ha : getTag t.line a = laneTag w) (hb : getTag t.line b = laneTag w)
    (z : Reg) : execVsel g d a b w z s = .next (done s t (setG (counted (hdr g [d, a, b]) t) d
      (laneWrite (getG t.line d) (laneMask t.line g) (widthBits w) (2 ^ w.toNat) fun j => if (getQ t.line z).getLsbD j
        then laneAt (getG t.line a) (widthBits w) j else laneAt (getG t.line b) (widthBits w) j) (laneTag w))) := by
  refine (issueChecked_done hr rfl (by simp [ha, hb])).trans ?_
  simp only [issueCtx_tline, counted_getG, counted_getQ, laneMask]

theorem execVshuf_done (hr : Ready (hdr g [d, a, b]) s t) (ha : getTag t.line a = laneTag w) (hb : getTag t.line b = 0) :
    execVshuf g d a b w s = .next (done s t (setG (counted (hdr g [d, a, b]) t) d
      (laneWrite (getG t.line d) (laneMask t.line g) (widthBits w) (2 ^ w.toNat) fun j => if laneAt (getG t.line b) 4 j < 2 ^ w.toNat
        then laneAt (getG t.line a) (widthBits w) (laneAt (getG t.line b) 4 j) else 0) (laneTag w))) := by
  refine (issueChecked_done hr rfl (by simp [ha, hb])).trans ?_
  simp only [issueCtx_tline, counted_getG, counted_getQ, laneMask]

end Lanes

/-- Settles O9: each word is a function of lanes, and each lane value is that of the bit vectors. -/
theorem laneResults : Obligations.lane_results := by
  intro g d a b ss w s t hr ha hw n lane clampS clampU gives
  have hn : n * 2 ^ w.toNat ≤ 64 := (widthBits_mul_lanes w).le
  refine ⟨fun hb => ?_, fun hb => lanes_given ((exec_vshuf ..).trans (execVshuf_done hr ha hb)) hn fun j _ => ?_⟩
  · have lanes : ∀ {i : Instr} {f : Nat → Nat → Nat} {r : Nat → BitVec n}, exec i s = issueLanes g d a b w f s →
        (∀ j, BitVec.ofNat n (f (lane a j).toNat (lane b j).toNat) = r j) → gives i r :=
      fun hi hf => lanes_given (hi.trans (issueLanes_done hr ha hb _)) hn fun j _ => by
        rw [laneAt_eq, laneAt_eq]
        exact hf j
    refine ⟨lanes (exec_vadd ..) fun j => lane_add .., lanes (exec_vsub ..) fun j => lane_sub ..,
      lanes (exec_vadds ..) fun j => ?_, lanes (exec_vadds ..) fun j => ?_, lanes (exec_vsubs ..) fun j => ?_,
      lanes (exec_vsubs ..) fun j => ?_, lanes (exec_vmul ..) fun j => ?_, lanes (exec_vmul ..) fun j => ?_,
      lanes (exec_vmin ..) fun j => lane_choose_signed .., lanes (exec_vmin ..) fun j => lane_choose_unsigned ..,
      lanes (exec_vmax ..) fun j => lane_choose_signed .., lanes (exec_vmax ..) fun j => lane_choose_unsigned ..,
      lanes (exec_vavg ..) fun j => ?_, lanes (exec_vavg ..) fun j => lane_avg_unsigned ..,
      lanes (exec_vshl ..) fun j => lane_shl .., lanes (exec_vshr ..) fun j => lane_shr .., lanes (exec_vsar ..) fun j => lane_sar ..,
      lanes_given ((exec_vsel ..).trans (execVsel_done hr ha hb ss)) hn fun j _ => ?_⟩
    · rw [ofNat_laneSat_signed, laneInt_signed, laneInt_signed]
    · rw [ofNat_laneSat_unsigned, laneInt_unsigned, laneInt_unsigned]
    · rw [ofNat_laneSat_signed, laneInt_signed, laneInt_signed]
    · rw [ofNat_laneSat_unsigned, laneInt_unsigned, laneInt_unsigned]
    · rw [ofNat_laneSat_signed, laneInt_signed, laneInt_signed]
    · rw [ofNat_laneSat_unsigned, laneInt_unsigned, laneInt_unsigned]
    · rw [ofNat_wrapTo, laneInt_signed, laneInt_signed]
    · rw [laneAt_eq, laneAt_eq, apply_ite (BitVec.ofNat _), ofNat_toNat_self, ofNat_toNat_self]
  · rw [laneAt_eq, laneAt_eq, apply_ite (BitVec.ofNat _), ofNat_toNat_self]
    rfl

end Sys2Proof.Machine

/-! ### Words that change the lane class (O10) -/

namespace Sys2Proof.Machine

/-- The sum over the enabled lanes is the sum of those. -/
theorem laneSum_eq (mask : Byte) (n : Nat) (f : Nat → Int) :
    laneSum mask n f = (((List.range n).filter fun j => mask.getLsbD j).map f).sum := by
  rw [laneSum]
  induction List.range n with
  | nil => rfl
  | cons j l ih =>
    rw [List.map_cons, List.sum_cons, ih]
    by_cases hj : mask.getLsbD j = true
    · rw [if_pos hj, List.filter_cons_of_pos hj, List.map_cons, List.sum_cons]
    · rw [if_neg hj, List.filter_cons_of_neg hj, Int.zero_add]

/-- An unsigned number limited from above alone. -/
theorem ofInt_limit_natCast (k v : Nat) :
    BitVec.ofInt k (max 0 (min ((2 : Int) ^ k - 1) (v : Int))) = BitVec.ofNat k (min (2 ^ k - 1) v) := by
  have hpos : 0 < 2 ^ k := by positivity
  have h : max 0 (min ((2 : Int) ^ k - 1) (v : Int)) = ((min (2 ^ k - 1) v : Nat) : Int) := by
    rw [max_eq_right (le_min (by have : (0 : Int) < 2 ^ k := by positivity
                                 omega) (Int.natCast_nonneg v))]
    push_cast [Nat.one_le_two_pow]
    rfl
  rw [h, BitVec.ofInt_natCast]

theorem unpacked_lanes_le (w : BitVec 2) : 2 * widthBits w * (2 ^ w.toNat / 2) ≤ 64 := by
  revert w
  decide

theorem lane_extend {n : Nat} (x : BitVec n) (m : Nat) : BitVec.ofNat m (wrapTo (signed x.toNat n) m) = x.signExtend m := by
  rw [signed_eq, ofNat_wrapTo, BitVec.signExtend]

section LaneClasses

variable {g : BitVec 4} {d a b : Reg} {w : BitVec 2} {s : State} {t : LiveLine}

theorem execVpack_done (hr : Ready (hdr g [d, a, b]) s t) (ha : getTag t.line a = laneTag w) (hb : getTag t.line b = laneTag w)
    (u : BitVec 1) : execVpack g d a b w u s = .next (done s t (setG (counted (hdr g [d, a, b]) t) d
      (laneWrite (getG t.line d) (laneMask t.line g) (widthBits w / 2) (2 * 2 ^ w.toNat) fun j =>
        laneSat u (laneInt u (if j < 2 ^ w.toNat then laneAt (getG t.line a) (widthBits w) j
          else laneAt (getG t.line b) (widthBits w) (j - 2 ^ w.toNat)) (widthBits w)) (widthBits w / 2)) (laneTag (w + 1)))) := by
  refine (issueChecked_done hr rfl (by simp [ha, hb])).trans ?_
  simp only [issueCtx_tline, counted_getG, counted_getQ, laneMask]

theorem execVunpk_done (hr : Ready (hdr g [d, a]) s t) (ha : getTag t.line a = laneTag w) (h : BitVec 1) :
    execVunpk g d a w h s = .next (done s t (setG (counted (hdr g [d, a]) t) d
      (laneWrite (getG t.line d) (laneMask t.line g) (2 * widthBits w) (2 ^ w.toNat / 2) fun j =>
        wrapTo (signed (laneAt (getG t.line a) (widthBits w) (j + h.toNat * (2 ^ w.toNat / 2))) (widthBits w)) (2 * widthBits w))
      (laneTag (w - 1)))) := by
  refine (issueChecked_done hr rfl (by simp [ha])).trans ?_
  simp only [issueCtx_tline, counted_getG, counted_getQ, laneMask]

theorem execVdot_done (hr : Ready (hdr g [d, a, b]) s t) (ha : getTag t.line a = laneTag w) (hb : getTag t.line b = laneTag w)
    (hd : getTag t.line d = 0) (u : BitVec 1) : execVdot g d a b w u s = .next (done s t (setG (counted (hdr g [d, a, b]) t) d
      (getG t.line d + BitVec.ofInt 64 (laneSum (laneMask t.line g) (2 ^ w.toNat) fun j =>
        laneInt u (laneAt (getG t.line a) (widthBits w) j) (widthBits w)
          * laneInt u (laneAt (getG t.line b) (widthBits w) j) (widthBits w))) 0)) := by
  refine (issueChecked_done hr rfl (by simp [ha, hb, hd])).trans ?_
  simp only [issueCtx_tline, counted_getG, counted_getQ, laneMask]

theorem execVsum_done (hr : Ready (hdr g [d, a]) s t) (ha : getTag t.line a = laneTag w) (u : BitVec 1) :
    execVsum g d a w u s = .next (done s t (setG (counted (hdr g [d, a]) t) d
      (BitVec.ofInt 64 (laneSum (laneMask t.line g) (2 ^ w.toNat) fun j =>
        laneInt u (laneAt (getG t.line a) (widthBits w) j) (widthBits w))) 0)) := by
  refine (issueChecked_done hr rfl (by simp [ha])).trans ?_
  simp only [issueCtx_tline, counted_getG, counted_getQ, laneMask]

end LaneClasses

/-- Settles O10: a change of class is a function of result lanes, and a reduction is a sum over the enabled lanes. -/
theorem laneClassChanges : Obligations.lane_class_changes := by
  intro g d a b w h s t ha n lanes mask lane on
  refine ⟨fun hr hb => ?_, fun hr hw => ?_⟩
  · intro l src packs
    have hsrc : ∀ j, (if j < lanes then laneAt (getG t.line a) n j else laneAt (getG t.line b) n (j - lanes)) = (src j).toNat := by
      intro j
      rw [laneAt_eq, laneAt_eq, ← apply_ite BitVec.toNat]
    have pack : ∀ (u : BitVec 1) (f : BitVec n → BitVec (n / 2)), n / 2 * (2 * lanes) ≤ 64 →
        (∀ x : BitVec n, BitVec.ofNat (n / 2) (laneSat u (laneInt u x.toNat n) (n / 2)) = f x) → packs u f :=
      fun u f hn hf => lanes_given ((exec_vpack ..).trans (execVpack_done hr ha hb _)) hn fun j _ => by
        rw [hsrc]
        exact hf (src j)
    refine ⟨fun hw => ?_, fun hw hd => ⟨?_, ?_⟩⟩
    · have hn : n / 2 * (2 * lanes) ≤ 64 := by rcases hw with rfl | rfl <;> decide
      refine ⟨pack 0 (fun x => .ofInt (n / 2) (max (-(2 : Int) ^ (n / 2 - 1)) (min ((2 : Int) ^ (n / 2 - 1) - 1) x.toInt))) hn
        fun x => ?_, pack 1 (fun x => .ofNat (n / 2) (min (2 ^ (n / 2) - 1) x.toNat)) hn fun x => ?_⟩
      · rw [laneInt_signed, ofNat_laneSat_signed]
      · rw [laneInt_unsigned, ofNat_laneSat_unsigned, ofInt_limit_natCast]
    · rw [exec_vdot, execVdot_done hr ha hb hd, laneSum_eq]
      simp only [laneAt_eq, laneInt_signed]
      rfl
    · rw [exec_vdot, execVdot_done hr ha hb hd, laneSum_eq]
      simp only [laneAt_eq, laneInt_unsigned]
      rfl
  · intro l
    refine ⟨?_, ?_, lanes_given ((exec_vunpk ..).trans (execVunpk_done hr ha h)) (unpacked_lanes_le w) fun j _ => ?_⟩
    · rw [exec_vsum, execVsum_done hr ha, laneSum_eq]
      simp only [laneAt_eq, laneInt_signed]
      rfl
    · rw [exec_vsum, execVsum_done hr ha, laneSum_eq]
      simp only [laneAt_eq, laneInt_unsigned]
      rfl
    · rw [laneAt_eq, lane_extend]

end Sys2Proof.Machine

/-! # Float words (O11, O12) -/

namespace Sys2Proof.Machine

/-! ### Exceptions of the enabled lanes (R44) -/

/-- The lanes below `n` that a mask enables. -/
def enabledLanes (mask : Byte) (n : Nat) : List Nat := (List.range n).filter fun j => mask.getLsbD j

theorem laneExc_eq (mask : Byte) (n : Nat) (f : Nat → BitVec 5) :
    laneExc mask n f = ((enabledLanes mask n).map f).foldl (· ||| ·) 0 := by
  rw [laneExc, enabledLanes, List.foldl_map, List.foldl_filter]

theorem any_enabled (mask : Byte) (n : Nat) (p : Nat → Bool) :
    ((List.range n).any fun j => mask.getLsbD j && p j) = (enabledLanes mask n).any p := by
  rw [enabledLanes, List.any_filter]

/-- How a float word ends (R44, R45): with its flags raised, its line as `p` says and four turns forfeited when `sub`, or in the
float trap. -/
def FloatEnds (o : Host.Outcome State Fault Refusal) (s : State) (t : LiveLine) (e : BitVec 5) (sub : Bool) (p : Line → Prop) : Prop :=
  if e &&& t.line.fen = 0 then
    ∃ u, o = .next (afterIssue s u (wordPc t + 4)) ∧ p u.line ∧ u.line.fflg = t.line.fflg ||| e
      ∧ u.forfeit = (if sub then 4 else t.forfeit) ∧ u.place = t.place
  else o = .next (trapped s t (trapFloat e))

theorem forfeitFor_line (s : State) (c : Nat) (sub : Bool) (t : LiveLine) : (forfeitFor s c sub t).line = t.line := by
  unfold forfeitFor; split <;> rfl

theorem forfeitFor_place (s : State) (c : Nat) (sub : Bool) (t : LiveLine) : (forfeitFor s c sub t).place = t.place := by
  unfold forfeitFor; split <;> rfl

theorem forfeitFor_forfeit (s : State) (c : Nat) (sub : Bool) (t : LiveLine) :
    (forfeitFor s c sub t).forfeit = if sub then 4 else t.forfeit := by
  unfold forfeitFor; split <;> simp [*]

theorem counted_fen (h : Hdr) (t : LiveLine) : (counted h t).fen = t.line.fen := by rw [counted_frame]
theorem counted_fflg (h : Hdr) (t : LiveLine) : (counted h t).fflg = t.line.fflg := by rw [counted_frame]
theorem counted_rmode (h : Hdr) (t : LiveLine) : (counted h t).rmode = t.line.rmode := by rw [counted_frame]

/-- The rounding does not depend on the header. -/
theorem roundingOf_issueCtx (h k : Hdr) (t : LiveLine) : roundingOf (issueCtx h t) = roundingOf (issueCtx k t) := by
  simp only [roundingOf, issueCtx_md, issueCtx_tline, counted_rmode]

theorem floatTraps_iff (h : Hdr) (t : LiveLine) (e : BitVec 5) : floatTraps (counted h t) e = true ↔ e &&& t.line.fen ≠ 0 := by
  rw [floatTraps, counted_fen, bne_iff_ne]

/-- A ready word that signals its exceptions ends by them. -/
theorem signal_ends {h : Hdr} {s : State} {t : LiveLine} (hr : Ready h s t) {body : Ctx → State → Res} {e : BitVec 5} {sub : Bool}
    {l : Line} (hb : body (issueCtx h t) s = signal (issueCtx h t) s e sub l) (hl : l.fflg = t.line.fflg) {p : Line → Prop}
    (hp : p (raiseFlags l e)) : FloatEnds (issueWord h body s) s t e sub p := by
  rw [issueWord_ready hr, hb, FloatEnds, signal, issueCtx_tline]
  by_cases he : e &&& t.line.fen = 0
  · rw [if_pos he, if_neg fun ht => (floatTraps_iff h t e).mp ht he]
    refine ⟨_, rfl, ?_, ?_, forfeitFor_forfeit .., forfeitFor_place ..⟩
    · rw [forfeitFor_line]
      exact hp
    · rw [forfeitFor_line, ← hl]
      rfl
  · rw [if_neg he, if_pos ((floatTraps_iff h t e).mpr he)]
    rfl

/-! ### Float operations on lanes (R108) -/

theorem lanesAt_eq (l : Line) (srcs : List Reg) (n j : Nat) :
    lanesAt l srcs n j = srcs.map fun r => ((getG l r).extractLsb' (n * j) n).toNat := by
  simp only [lanesAt, laneAt_eq]

theorem lanesAt_counted (h : Hdr) (t : LiveLine) (srcs : List Reg) (n j : Nat) :
    lanesAt (counted h t) srcs n j = lanesAt t.line srcs n j := by
  simp only [lanesAt, counted_getG]

@[simp] theorem getG_raiseFlags (l : Line) (e : BitVec 5) (r : Reg) : getG (raiseFlags l e) r = getG l r := rfl
@[simp] theorem getTag_raiseFlags (l : Line) (e : BitVec 5) (r : Reg) : getTag (raiseFlags l e) r = getTag l r := rfl
@[simp] theorem getQ_raiseFlags (l : Line) (e : BitVec 5) (r : Reg) : getQ (raiseFlags l e) r = getQ l r := rfl
@[simp] theorem getQ_setG (l : Line) (d : Reg) (v : Word) (tag : Byte) (r : Reg) : getQ (setG l d v tag) r = getQ l r := rfl

@[simp] theorem setQ_fflg (l : Line) (d : Reg) (v : Byte) : (setQ l d v).fflg = l.fflg := by
  unfold setQ; split <;> rfl

/-- A write of gD leaves the other registers. -/
theorem otherRegs_setG (h : Hdr) (t : LiveLine) (d : Reg) (v : Word) (tag : Byte) : OtherRegs d t.line (setG (counted h t) d v tag) :=
  fun r hne => by rw [getG_setG_ne _ _ _ _ _ hne, getTag_setG_ne _ _ _ _ _ hne, counted_getG, counted_getTag]; exact ⟨rfl, rfl⟩

section FloatWord

variable {g : BitVec 4} {d a b : Reg} {w : BitVec 2} {x : BitVec 1} {s : State} {t : LiveLine}

/-- The mask of a float word: lane 0 alone when X = 0 (R108). -/
theorem floatMask_counted (h : Hdr) : floatMask (counted h t) g x = if x = 1 then laneMask t.line g else 1 := by
  simp only [floatMask, laneMask, counted_getQ]

/-- A register that a float word writes: all of it when X = 0, the enabled lanes when X = 1 (R11, R14). -/
theorem floatWrite_lanes (old : Word) (mask : Byte) (f : Fmt) (x : BitVec 1) (r : Nat → Nat) :
    (x = 0 → floatWrite old mask f x r = BitVec.ofNat 64 (r 0))
      ∧ (x = 1 → ∀ j, j < 64 / f.bits → (floatWrite old mask f x r).extractLsb' (f.bits * j) f.bits
        = if mask.getLsbD j then BitVec.ofNat f.bits (r j) else old.extractLsb' (f.bits * j) f.bits) := by
  refine ⟨fun h => ?_, fun h j hj => ?_⟩
  · rw [floatWrite, if_neg (by rw [h]; decide)]
  · rw [floatWrite, if_pos h, laneWrite_lane _ _ (Nat.mul_div_le 64 f.bits) _ hj]

/-- The sources of a float word and the header it is given. -/
theorem issueFloat_ends {srcs : List Reg} (hr : Ready (hdr g (d :: srcs)) s t) (htag : ∀ q ∈ srcs, getTag t.line q = floatTag w)
    {op : Fmt → Nat → List Nat → Nat × BitVec 5} {r : Nat → Nat × BitVec 5} (k : Hdr)
    (hop : ∀ j, op (fmtOf w) (roundingOf (issueCtx k t)) (lanesAt t.line srcs (fmtOf w).bits j) = r j) :
    let f := fmtOf w
    let mask : Byte := if x = 1 then laneMask t.line g else 1
    let enabled := enabledLanes mask (if x = 1 then 64 / f.bits else 1)
    let lane := fun (r : Reg) (j : Nat) => ((getG t.line r).extractLsb' (f.bits * j) f.bits).toNat
    FloatEnds (issueFloat g d srcs w x op s) s t ((enabled.map fun j => (r j).2).foldl (· ||| ·) 0)
      (enabled.any fun j => isSubnormal f (r j).1 || srcs.any fun q => isSubnormal f (lane q j))
      fun l => getTag l d = floatTag w ∧ OtherRegs d t.line l ∧ (∀ q, getQ l q = getQ t.line q)
        ∧ (x = 0 → getG l d = BitVec.ofNat 64 (r 0).1)
        ∧ (x = 1 → ∀ j, j < (if x = 1 then 64 / f.bits else 1) → (getG l d).extractLsb' (f.bits * j) f.bits
          = if mask.getLsbD j then BitVec.ofNat f.bits (r j).1 else (getG t.line d).extractLsb' (f.bits * j) f.bits) := by
  intro f mask enabled lane
  have htags : checkTags (counted (hdr g (d :: srcs)) t) (srcs.map fun r => (r, [floatTag w])) = none := by
    refine checkTags_accepted fun e he => ?_
    obtain ⟨q, hq, rfl⟩ := List.mem_map.mp he
    simp [htag q hq]
  have hsub : ∀ j, ((lanesAt t.line srcs (fmtOf w).bits j).any (isSubnormal (fmtOf w)) || isSubnormal (fmtOf w) (r j).1)
      = (isSubnormal f (r j).1 || srcs.any fun q => isSubnormal f (lane q j)) := by
    intro j
    rw [Bool.or_comm, lanesAt_eq, List.any_map]
    rfl
  obtain ⟨hwhole, hlanes⟩ := floatWrite_lanes (getG t.line d) mask f x fun j => (r j).1
  refine signal_ends hr (l := setG (counted (hdr g (d :: srcs)) t) d (floatWrite (getG t.line d) mask f x fun j => (r j).1) (floatTag w))
    ?_ ?_ ⟨?_, ?_, ?_, ?_, ?_⟩
  · simp only [issueCtx_tline, htags, floatMask_counted, counted_getG, lanesAt_counted, roundingOf_issueCtx _ k, hop, floatLanes,
      laneExc_eq, any_enabled, hsub]
    rfl
  · rw [setG_fflg, counted_fflg]
  · simp
  · exact fun q hq => otherRegs_setG _ _ _ _ _ q hq
  · simp
  · intro hx
    simpa using hwhole hx
  · intro hx j hj
    rw [if_pos hx] at hj
    simpa using hlanes hx j hj

/-- A compare of floats writes its predicate field (R15). -/
theorem execFcmp_ends (hr : Ready (hdr g [a, b]) s t) (ha : getTag t.line a = floatTag w) (hb : getTag t.line b = floatTag w)
    (c : BitVec 4) :
    let f := fmtOf w
    let mask : Byte := if x = 1 then laneMask t.line g else 1
    let n := if x = 1 then 64 / f.bits else 1
    let enabled := enabledLanes mask n
    let lane := fun (r : Reg) (j : Nat) => ((getG t.line r).extractLsb' (f.bits * j) f.bits).toNat
    let r := fun j => fcmp f c.toNat (lane a j) (lane b j)
    FloatEnds (execFcmp g d a b w c x s) s t ((enabled.map fun j => (r j).2).foldl (· ||| ·) 0)
      (enabled.any fun j => isSubnormal f 0 || [a, b].any fun q => isSubnormal f (lane q j))
      fun l => l.g = t.line.g ∧ l.tag = t.line.tag ∧ OtherPreds d t.line l
        ∧ (d ≠ 0 → x = 0 → getQ l d = if (r 0).1 then 0xFF else 0)
        ∧ (d ≠ 0 → x = 1 → ∀ j, j < 8 → (getQ l d).getLsbD j
          = (decide (j < n) && (if mask.getLsbD j then (r j).1 else (getQ t.line d).getLsbD j))) := by
  intro f mask n enabled lane r
  have htags : checkTags (counted (hdr g [a, b]) t) [(a, [floatTag w]), (b, [floatTag w])] = none :=
    checkTags_accepted (by simp [ha, hb])
  have hsub : ∀ j, (lanesAt t.line [a, b] (fmtOf w).bits j).any (isSubnormal (fmtOf w))
      = (isSubnormal f 0 || [a, b].any fun q => isSubnormal f (lane q j)) := by
    intro j
    have hzero : isSubnormal f 0 = false := by simp [isSubnormal]
    rw [hzero, Bool.false_or, lanesAt_eq, List.any_map]
    rfl
  refine signal_ends hr (l := setQ (counted (hdr g [a, b]) t) d
    (if x = 1 then laneField (getQ t.line d) mask n fun j => (r j).1 else truthField (r 0).1)) ?_ ?_ ⟨?_, ?_, ?_, ?_, ?_⟩
  · simp only [issueCtx_tline, htags, floatMask_counted, counted_getG, counted_getQ, lanesAt_counted, laneAt_eq, floatLanes,
      laneExc_eq, any_enabled, hsub]
    rfl
  · rw [setQ_fflg, counted_fflg]
  · exact (setQ_g ..).trans (counted_g ..)
  · exact (setQ_tag ..).trans (counted_tag ..)
  · intro q hq
    rw [getQ_raiseFlags, getQ_setQ_ne _ _ _ _ hq, counted_getQ]
  · intro hd hx
    rw [getQ_raiseFlags, getQ_setQ_self _ _ _ hd, if_neg (by rw [hx]; decide)]
    rfl
  · intro hd hx j hj
    rw [getQ_raiseFlags, getQ_setQ_self _ _ _ hd, if_pos hx, laneField_getLsbD _ _ _ hj]

end FloatWord

/-! ### The meanings of the words -/

theorem exec_fadd (g : BitVec 4) (d a b : Reg) (w : BitVec 2) (x : BitVec 1) (s : State) :
    exec (.fadd g d a b w x) s = execFadd g d a b w x s := rfl
theorem exec_fsub (g : BitVec 4) (d a b : Reg) (w : BitVec 2) (x : BitVec 1) (s : State) :
    exec (.fsub g d a b w x) s = execFsub g d a b w x s := rfl
theorem exec_fmul (g : BitVec 4) (d a b : Reg) (w : BitVec 2) (x : BitVec 1) (s : State) :
    exec (.fmul g d a b w x) s = execFmul g d a b w x s := rfl
theorem exec_fdiv (g : BitVec 4) (d a b : Reg) (w : BitVec 2) (x : BitVec 1) (s : State) :
    exec (.fdiv g d a b w x) s = execFdiv g d a b w x s := rfl
theorem exec_fmin (g : BitVec 4) (d a b : Reg) (w : BitVec 2) (x : BitVec 1) (s : State) :
    exec (.fmin g d a b w x) s = execFmin g d a b w x s := rfl
theorem exec_fmax (g : BitVec 4) (d a b : Reg) (w : BitVec 2) (x : BitVec 1) (s : State) :
    exec (.fmax g d a b w x) s = execFmax g d a b w x s := rfl
theorem exec_fma (g : BitVec 4) (d a b : Reg) (w : BitVec 2) (x : BitVec 1) (s : State) :
    exec (.fma g d a b w x) s = execFma g d a b w x s := rfl
theorem exec_fsqrt (g : BitVec 4) (d a : Reg) (w : BitVec 2) (x : BitVec 1) (s : State) : exec (.fsqrt g d a w x) s = execFsqrt g d a w x s := rfl
theorem exec_fround (g : BitVec 4) (d a : Reg) (w : BitVec 2) (x : BitVec 1) (s : State) : exec (.fround g d a w x) s = execFround g d a w x s := rfl
theorem exec_fcmp (g : BitVec 4) (d a b : Reg) (w : BitVec 2) (c : BitVec 4) (x : BitVec 1) (s : State) :
    exec (.fcmp g d a b w c x) s = execFcmp g d a b w c x s := rfl
theorem exec_fcvt (g : BitVec 4) (d a : Reg) (l : BitVec 2) (src tgt : Reg) (s : State) :
    exec (.fcvt g d a l src tgt) s = execFcvt g d a l src tgt s := rfl

/-- Settles O11: the operations of `issueFloat` differ in the function of their lanes alone. -/
theorem floatResults : Obligations.float_results := by
  intro g d a b w c x s t _ f n mask lane enabled exceptions met ends arith rm
  have arithOf : ∀ {i : Instr} {srcs : List Reg} {op : Fmt → Nat → List Nat → Nat × BitVec 5} {r : Nat → Nat × BitVec 5},
      exec i s = issueFloat g d srcs w x op s →
      (∀ j, op f rm (srcs.map fun q => lane q j) = r j) → arith i srcs r := by
    intro i srcs op r hi hop hr ht
    have h := issueFloat_ends (x := x) hr ht (hdr g [d, a, b]) fun j => (congrArg (op f rm) (lanesAt_eq ..)).trans (hop j)
    rw [← hi] at h
    exact h
  refine ⟨arithOf (exec_fadd ..) fun _ => rfl, arithOf (exec_fsub ..) fun _ => rfl, arithOf (exec_fmul ..) fun _ => rfl,
    arithOf (exec_fdiv ..) fun _ => rfl, arithOf (exec_fsqrt ..) fun _ => rfl, arithOf (exec_fmin ..) fun _ => rfl,
    arithOf (exec_fmax ..) fun _ => rfl, arithOf (exec_fma ..) fun _ => rfl, arithOf (exec_fround ..) fun _ => rfl,
    fun hr ha hb => ?_⟩
  have h := execFcmp_ends (d := d) (x := x) hr ha hb c
  rw [← exec_fcmp] at h
  exact h

end Sys2Proof.Machine

/-! ### Conversions (R110) -/

namespace Sys2Proof.Machine

/-- A float word's end without its forfeit and its place. -/
theorem FloatEnds.line {o : Host.Outcome State Fault Refusal} {s : State} {t : LiveLine} {e : BitVec 5} {sub : Bool} {p : Line → Prop}
    (h : FloatEnds o s t e sub p) :
    if e &&& t.line.fen = 0 then ∃ u, o = .next (afterIssue s u (wordPc t + 4)) ∧ u.line.fflg = t.line.fflg ||| e ∧ p u.line
    else o = .next (trapped s t (trapFloat e)) := by
  rw [FloatEnds] at h
  split at h
  · obtain ⟨u, ho, hp, hf, -, -⟩ := h
    rw [if_pos ‹_›]
    exact ⟨u, ho, hf, hp⟩
  · rw [if_neg ‹_›]
    exact h

/-- The exceptions of lane 0 alone. -/
theorem laneExc_single (f : Nat → BitVec 5) : laneExc 1 1 f = f 0 := BitVec.zero_or

theorem laneAt_zero (v : Word) (n : Nat) : laneAt v n 0 = v.toNat % 2 ^ n := by
  rw [laneAt, Nat.mul_zero, pow_zero, Nat.div_one]

/-- A scalar target is written extended when it is i32 (R110). -/
theorem cvtScalar_eq (tgt : Reg) (r : Nat) :
    cvtScalar tgt r = if tgt = 6 then (BitVec.ofNat 32 r).signExtend 64 else BitVec.ofNat 64 r := by
  rw [cvtScalar, extS_eq, BitVec.ofInt_natCast]

theorem cvtTag_scalar (k : Reg) : cvtTag k 0 = if k.toNat < 4 then floatTag (k.setWidth 2) else 0 := by
  simp [cvtTag, cvtFloat]

theorem cvtTag_lanes (k : Reg) : cvtTag k 1 = if k.toNat < 4 then floatTag (k.setWidth 2) else 1 := by
  simp [cvtTag, cvtFloat]

section Convert

variable {g : BitVec 4} {d a : Reg} {src tgt : Reg} {s : State} {t : LiveLine}

/-- What a conversion leaves in gD and in the other registers. -/
def Converted (d : Reg) (t : LiveLine) (tag : Byte) (p : Word → Prop) (l : Line) : Prop :=
  getTag l d = tag ∧ OtherRegs d t.line l ∧ p (getG l d)

theorem converted_setG (h : Hdr) (e : BitVec 5) {v : Word} {tag : Byte} {p : Word → Prop} (hp : p v) :
    Converted d t tag p (raiseFlags (setG (counted h t) d v tag) e) :=
  ⟨by simp, fun q hq => otherRegs_setG _ _ _ _ _ q hq, by simpa using hp⟩

theorem execFcvt_scalar (hr : Ready (hdr g [d, a]) s t) (ha : getTag t.line a = cvtTag src 0) :
    let r := convert src tgt (roundingOf (issueCtx (hdr g [d, a]) t)) ((getG t.line a).toNat % 2 ^ cvtBits src)
    ∃ sub, FloatEnds (execFcvt g d a 0 src tgt s) s t r.2 sub (Converted d t (cvtTag tgt 0) (· = cvtScalar tgt r.1)) := by
  intro r
  have htags : checkTags (counted (hdr g [d, a]) t) [(a, [cvtTag src 0])] = none := checkTags_accepted (by simp [ha])
  refine ⟨?sub, signal_ends hr (l := setG (counted (hdr g [d, a]) t) d (cvtScalar tgt r.1) (cvtTag tgt 0)) ?_ ?_ (converted_setG _ _ rfl)⟩
  rotate_left
  · simp only [issueCtx_tline, htags, counted_getG, laneAt_zero, laneExc_single, if_neg (show ¬ (0 : BitVec 2) = 1 by decide)]
    rfl
  · rw [setG_fflg, counted_fflg]

theorem execFcvt_lanes (hr : Ready (hdr g [d, a]) s t) (ha : getTag t.line a = cvtTag src 1) :
    let n := cvtBits src
    let mask := laneMask t.line g
    let r := fun j => convert src tgt (roundingOf (issueCtx (hdr g [d, a]) t)) ((getG t.line a).extractLsb' (n * j) n).toNat
    ∃ sub, FloatEnds (execFcvt g d a 1 src tgt s) s t (((enabledLanes mask (64 / n)).map fun j => (r j).2).foldl (· ||| ·) 0) sub
      (Converted d t (cvtTag tgt 1) fun v => ∀ j, j < 64 / n → v.extractLsb' (n * j) n
        = if mask.getLsbD j then BitVec.ofNat n (r j).1 else (getG t.line d).extractLsb' (n * j) n) := by
  intro n mask r
  have htags : checkTags (counted (hdr g [d, a]) t) [(a, [cvtTag src 1])] = none := checkTags_accepted (by simp [ha])
  refine ⟨?sub, signal_ends hr (l := setG (counted (hdr g [d, a]) t) d (laneWrite (getG t.line d) mask n (64 / n) fun j => (r j).1)
    (cvtTag tgt 1)) ?_ ?_ (converted_setG _ _ fun j hj => laneWrite_lane _ _ (Nat.mul_div_le 64 n) _ hj)⟩
  rotate_left
  · simp only [issueCtx_tline, htags, counted_getG, counted_getQ, laneMask, laneAt_eq, laneExc_eq, if_true]
    rfl
  · rw [setG_fflg, counted_fflg]

end Convert

/-- Settles O12: a scalar conversion and a conversion of lanes. -/
theorem conversionResults : Obligations.conversion_results := by
  intro g d a src tgt s t hr _ rm v n one lanes enabled exc i
  refine ⟨fun ha => ?_, fun ha _ => ?_⟩
  · obtain ⟨_, h⟩ := execFcvt_scalar (tgt := tgt) hr ha
    rw [← exec_fcvt, cvtTag_scalar, cvtScalar_eq] at h
    exact h.line
  · obtain ⟨_, h⟩ := execFcvt_lanes (tgt := tgt) hr ha
    rw [← exec_fcvt, cvtTag_lanes] at h
    exact h.line

end Sys2Proof.Machine

/-! # Loads and stores at issue (O19), R113 -/

namespace Sys2Proof.Machine

/-- An aligned address below 2^56 raises no trap of its own (R47). -/
theorem addrTrap_fits {size ea : Nat} (write : Bool) (h : ea % size = 0 ∧ ea < 2 ^ 56) : addrTrap size ea write = none := by
  rw [addrTrap, if_neg (not_not.mpr h.1), if_neg (Nat.not_le.mpr h.2)]

theorem withLoc_found {s : State} {c : Ctx} {size ea : Nat} {write : Bool} {loc : Loc} (h : ea % size = 0 ∧ ea < 2 ^ 56)
    (k : Loc → Res) : withLoc s c size ea write (.ok loc) k = k loc := by
  rw [withLoc, addrTrap_fits write h]

/-- The effective address of a word, from the register as it stood before the issue (R113). -/
theorem effAddr_issueCtx (h : Hdr) (t : LiveLine) (a : Reg) (off w size : Nat) : effAddr (issueCtx h t) a off w size
    = (getG t.line a + extField (issueCtx h t) off w true * BitVec.ofNat 64 size).toNat := by
  rw [effAddr, issueCtx_tline, counted_getG]

section Dispatch

variable (g : BitVec 4) (d a z : Reg) (c : BitVec 2) (la : BitVec 4) (s : State)

theorem exec_ld (o : BitVec 7) : exec (.ld g d a z c la o) s = execLd g d a z c la o s := rfl
theorem exec_st (o : BitVec 7) : exec (.st g d a z c la o) s = execSt g d a z c la o s := rfl
theorem exec_ldx (ty : BitVec 4) (o : Reg) : exec (.ldx g d a ty z c la o) s = execLdx g d a ty z c la o s := rfl
theorem exec_stx (ty : BitVec 4) (o : Reg) : exec (.stx g d a ty z c la o) s = execStx g d a ty z c la o s := rfl

end Dispatch

section Issue

variable {h : Hdr} {d a z : Reg} {s : State} {t : LiveLine} {loc : Loc} {ea : Nat}

theorem issueLoad_found (ha : getTag t.line a = 0) {ty : Nat} (hf : ea % typeSize ty = 0 ∧ ea < 2 ^ 56)
    (hl : locate s (whoOf t) .load ea z = .ok loc) (tag : Byte) :
    issueLoad ty tag d a ea z (issueCtx h t) s = .ok (sendPkt s (mkPkt s (issueCtx h t) (.read (typeSize ty) ty d) false ea loc))
      { (issueCtx h t).t with line := setPending (setTag (counted h t) d tag) d } := by
  rw [issueLoad, issueCtx_tline, checkTags_int ((counted_getTag h t a).trans ha), issueCtx_whoOf, hl]
  exact withLoc_found hf _

theorem issueStore_found (ha : getTag t.line a = 0) {size : Nat} (hf : ea % size = 0 ∧ ea < 2 ^ 56)
    (hl : locateStore s (whoOf t) ea size z = .ok loc) :
    issueStore size d a ea z (issueCtx h t) s
      = .ok (sendPkt s (mkPkt s (issueCtx h t) (.write size (BitVec.ofNat 64 ((getG t.line d).toNat % 2 ^ (8 * size))) none) false ea loc))
        { (issueCtx h t).t with stores := t.stores + 1 } := by
  rw [issueStore, issueCtx_tline, checkTags_int ((counted_getTag h t a).trans ha), issueCtx_whoOf, hl, counted_getG]
  exact withLoc_found hf _

end Issue

/-- A store of 8 bytes sends the whole register. -/
theorem ofNat_toNat_whole (v : Word) : BitVec.ofNat 64 (v.toNat % 2 ^ (8 * 8)) = v := by
  rw [Nat.mod_eq_of_lt v.isLt, BitVec.ofNat_toNat, BitVec.setWidth_eq]

/-- Settles O19: an access that fits and is located is sent at issue. -/
theorem loadStoreIssue : Obligations.load_store_issue := by
  intro g d a z c la o ty o3 s t loc ha size hl hs ea fits
  refine ⟨fun hr => ⟨fun hf hloc => ?_, fun hf hloc => ?_⟩, fun hr => ⟨fun hf hloc => ?_, fun hf hloc => ?_⟩⟩
  · rw [exec_ld, execLd, issueWord_ready hr, effAddr_issueCtx, issueLoad_found ha hf hloc]
    rfl
  · rw [exec_ldx, execLdx, issueWord_ready hr, effAddr_issueCtx, issueLoad_found ha hf hloc]
    rfl
  · rw [exec_st, execSt, issueWord_ready hr, effAddr_issueCtx, issueStore_found ha hf hloc, ofNat_toNat_whole]
    rfl
  · rw [exec_stx, execStx, issueWord_ready hr, effAddr_issueCtx, issueStore_found ha hf hloc]
    rfl

end Sys2Proof.Machine

/-! # Frames of words (O59)

The frame of loads fails where the answer is neither completion nor a wait with a tag: a load that finds a swap-out under way ends
it (R349), which writes what was held for the page (R134), and its line leaves the slot ready (`Res.bounce`). The statement excludes
that answer by the line's place, and so not for a line that stood at its core's first level before. -/

namespace Sys2Proof.Machine

/-- A line at the first level of core 0 with g2 in the page at 0x50000. -/
def strandedLine : LiveLine := LiveLine.new 0 0x10000 (.cl1 0) (setG Line.zero 2 0x50000 0)

/-- A tenant whose page at 0x50000 is on its way out of the frame at 0x30000, with a root of one byte held for it. -/
def swappingTenant : Tenant :=
  { Tenant.zero with
    ptab := [(5, 0x70000000CF)], moves := [(5, ⟨0, true, some 0x30000, 0x7000, none⟩)], heldRoots := [(0x50000, [1])] }

/-- That tenant's line issues. -/
def swappingOut : State := { State.reset with thr := some strandedLine, tenants := [(0, swappingTenant)] }

/-- A load of g1 from the page. -/
def loadSwapped : Instr := .ld 0 1 2 0 0 0 0

/-- The load leaves its line ready at its place, and byte 0x30000 written. -/
def LeavesByte (o : Host.Outcome State Fault Refusal) : Prop :=
  ∃ s' t', o = .next s' ∧ s'.thr = some t' ∧ t'.line.wait = 0 ∧ t'.place = .cl1 0 ∧ byteOf s' 0x30000 = 1

/-- The same as a check. -/
def leavesByte (o : Host.Outcome State Fault Refusal) : Bool :=
  match o with
  | .next s' => (s'.thr.any fun t => t.line.wait == 0 && t.place == .cl1 0) && byteOf s' 0x30000 == 1
  | _ => false

theorem LeavesByte.of_check {o : Host.Outcome State Fault Refusal} (h : leavesByte o = true) : LeavesByte o := by
  cases o with
  | next s' =>
    rw [leavesByte, Bool.and_eq_true, Option.any_eq_true, beq_iff_eq] at h
    obtain ⟨⟨t', ht, hp⟩, hb⟩ := h
    rw [Bool.and_eq_true, beq_iff_eq, beq_iff_eq] at hp
    exact ⟨s', t', rfl, ht, hp.1, hp.2, hb⟩
  | _ => exact absurd h (by simp [leavesByte])

theorem loadSwapped_leavesByte : LeavesByte (exec loadSwapped swappingOut) := LeavesByte.of_check (by decide)

theorem byteOf_swappingOut : byteOf swappingOut 0x30000 = 0 := by decide

/-- Refutes O59: a load ends the swap-out of its page, so that the root held for it is written, and leaves its line, which stood at
the first level of its core, ready there. -/
theorem not_wordFrames : ¬ Obligations.word_frames := by
  intro h
  obtain ⟨s', t', he, ht, hw, hp, hb⟩ := loadSwapped_leavesByte
  obtain ⟨-, -, -, loads, -⟩ := h 0 1 2 0 0 0 0 0 0 0 0 0 0 0 0 0 0 loadSwapped swappingOut s' strandedLine t' rfl rfl he ht hw
  have hm := (loads (List.mem_cons_self ..) hp).1
  have h0 := byteOf_swappingOut
  rw [byteOf, ← hm, ← byteOf, hb] at h0
  exact absurd h0 (by decide)

end Sys2Proof.Machine

/-! # Packets performed where they arrive (O22): R113, R247, R172 -/

namespace Sys2Proof.Machine

/-! ### What a store at a cell leaves -/

/-- What every step keeps, a run of steps keeps. -/
theorem foldl_keeps {α β : Type} {f : State → α → State} {π : State → β} (hf : ∀ s x, π (f s x) = π s) (l : List α) (s : State) :
    π (l.foldl f s) = π s := by
  induction l generalizing s with
  | nil => rfl
  | cons x l ih => rw [List.foldl_cons, ih, hf]

theorem enterReady_memory_gangs (s : State) (x : LiveLine) :
    ((enterReady s x).memory, (enterReady s x).gangs) = (s.memory, s.gangs) := by
  unfold enterReady
  extract_lets
  split <;> rfl

theorem noteCorrupt_memory_gangs (s : State) (k n : Nat) :
    ((noteCorrupt s k n).memory, (noteCorrupt s k n).gangs) = (s.memory, s.gangs) :=
  foldl_keeps (π := fun s => (s.memory, s.gangs)) enterReady_memory_gangs _ s

theorem wakeStored_memory_gangs (s : State) (k : Nat) : ((wakeStored s k).memory, (wakeStored s k).gangs) = (s.memory, s.gangs) := by
  unfold wakeStored
  extract_lets
  exact foldl_keeps (f := fun s (p : Pkt) => sendPkt s { p with id := s.nextId }) (π := fun s => (s.memory, s.gangs))
    (fun _ _ => rfl) _ _

/-- A store at a cell writes its bytes, and wakes (R113, R146). -/
theorem writeLoc_cell_memory_gangs (s : State) (k n v : Nat) :
    ((writeLoc s (.cell k) n v).memory, (writeLoc s (.cell k) n v).gangs) = (memWrite s.memory k n v, s.gangs) := by
  rw [writeLoc, noteCorrupt_memory_gangs, wakeStored_memory_gangs]

@[simp] theorem writeLoc_cell_memory (s : State) (k n v : Nat) : (writeLoc s (.cell k) n v).memory = memWrite s.memory k n v :=
  congrArg Prod.fst (writeLoc_cell_memory_gangs s k n v)

@[simp] theorem writeLoc_cell_gangs (s : State) (k n v : Nat) : (writeLoc s (.cell k) n v).gangs = s.gangs :=
  congrArg Prod.snd (writeLoc_cell_memory_gangs s k n v)

/-- A packet is ours by the gang table alone. -/
theorem isOurs_of_gangs {s s' : State} (h : s'.gangs = s.gangs) (p : Pkt) : isOurs s' p = isOurs s p := by
  rw [isOurs, isOurs, vmodOf, vmodOf, gangOf, gangOf, h]

/-! ### The full/empty bit of a word -/

theorem mem_setIns_self (k : Nat) (l : List Nat) : k ∈ setIns k l := by
  induction l with
  | nil => exact List.mem_singleton_self k
  | cons x l ih =>
    rw [setIns]
    split
    · exact List.mem_cons_self ..
    · split
      · rename_i hk
        exact hk ▸ List.mem_cons_self ..
      · exact List.mem_cons_of_mem _ ih

theorem not_mem_setDel_self (k : Nat) {l : List Nat} (h : l.Pairwise (· < ·)) : k ∉ setDel k l := by
  induction l with
  | nil => exact List.not_mem_nil
  | cons x l ih =>
    obtain ⟨hx, hl⟩ := List.pairwise_cons.mp h
    rw [setDel]
    split
    · rename_i hk
      exact fun hm => Nat.lt_irrefl k (hk ▸ hx k hm)
    · rename_i hk
      exact fun hm => (List.mem_cons.mp hm).elim (fun e => hk e.symm) (ih hl)

theorem feAt_fePut_self {m : Memory} (h : memWf m = true) (k : Nat) (b : Bool) : feAt (fePut m k b) k = b := by
  have hr : m.full.Pairwise (· < ·) := (rising_iff _).mp ((memWf_iff m).mp h).2.1
  cases b with
  | true => exact List.contains_iff_mem.mpr (mem_setIns_self _ _)
  | false => exact Bool.eq_false_iff.mpr fun hc => not_mem_setDel_self _ hr (List.contains_iff_mem.mp hc)

/-! ### A store packet -/

theorem performWrite_none (s : State) (l : Loc) (n : Nat) (v : Word) : performWrite s l n v none = writeLoc s l n v.toNat := by
  cases l <;> rfl

theorem performWrite_some (s : State) (k n : Nat) (v : Word) (b : Bool) : performWrite s (.cell k) n v (some b)
    = if feAt (memWrite s.memory k n v.toNat) k = b then writeLoc s (.cell k) n v.toNat
      else wakeFullEmpty { writeLoc s (.cell k) n v.toNat with memory := fePut (memWrite s.memory k n v.toNat) k b } k := by
  rw [← writeLoc_cell_memory]
  rfl

theorem wakeFullEmpty_memory (s : State) (k : Nat) : (wakeFullEmpty s k).memory = s.memory := rfl

theorem wakeFullEmpty_gangs (s : State) (k : Nat) : (wakeFullEmpty s k).gangs = s.gangs := rfl

/-- The bytes a store packet leaves. -/
theorem performWrite_bytes (s : State) (k n : Nat) (v : Word) (fe : Option Bool) :
    (performWrite s (.cell k) n v fe).memory.bytes = (memWrite s.memory k n v.toNat).bytes := by
  cases fe with
  | none => rw [performWrite_none, writeLoc_cell_memory]
  | some b =>
    rw [performWrite_some]
    split
    · rw [writeLoc_cell_memory]
    · rw [wakeFullEmpty_memory]
      rfl

theorem performWrite_gangs (s : State) (k n : Nat) (v : Word) (fe : Option Bool) :
    (performWrite s (.cell k) n v fe).gangs = s.gangs := by
  cases fe with
  | none => rw [performWrite_none, writeLoc_cell_gangs]
  | some b =>
    rw [performWrite_some]
    split
    · exact writeLoc_cell_gangs s k n v.toNat
    · rw [wakeFullEmpty_gangs]
      exact writeLoc_cell_gangs s k n v.toNat

/-- An `ste` sets the full/empty bit of its word (R172). -/
theorem feAt_performWrite {s : State} (h : memWf s.memory = true) (k n : Nat) (v : Word) (b : Bool) :
    feAt (performWrite s (.cell k) n v (some b)).memory k = b := by
  rw [performWrite_some]
  split
  · rw [writeLoc_cell_memory]
    assumption
  · rw [wakeFullEmpty_memory]
    exact feAt_fePut_self (memWf_memWrite _ _ _ _ h) k b

/-! ### The bytes of a number in memory -/

/-- A byte of memory is its digit of any read that covers it. -/
theorem byteAt_eq_memRead (m : Memory) (k : Nat) {n i : Nat} (hi : i < n) :
    byteAt (k + i) m.bytes = BitVec.ofNat 8 (memRead m k n / 256 ^ i) := by
  obtain ⟨r, rfl⟩ : ∃ r, n = i + (r + 1) := ⟨n - i - 1, by omega⟩
  have hstep : memRead m (k + i) (r + 1) = (byteAt (k + i) m.bytes).toNat + 256 * memRead m (k + i + 1) r := rfl
  rw [memRead_add, Nat.add_mul_div_left _ _ (pow_pos (by decide) i), Nat.div_eq_of_lt (memRead_lt m k i), Nat.zero_add, hstep]
  apply BitVec.eq_of_toNat_eq
  rw [BitVec.toNat_ofNat, Nat.add_mul_mod_self_left, Nat.mod_eq_of_lt (BitVec.isLt _)]

/-- The bytes of a word that is written. -/
theorem byteAt_memWrite_inside {m : Memory} (h : memWf m = true) (k n : Nat) (v : Word) {i : Nat} (hi : i < n) :
    byteAt (k + i) (memWrite m k n v.toNat).bytes = v.extractLsb' (8 * i) 8 := by
  apply BitVec.eq_of_toNat_eq
  rw [byteAt_eq_memRead _ k hi, memRead_memWrite h, BitVec.toNat_ofNat, BitVec.extractLsb'_toNat, Nat.shiftRight_eq_div_pow,
    show n = i + (1 + (n - i - 1)) by omega, pow_add, Nat.mod_mul_right_div_self, pow_add, pow_one,
    Nat.mod_mod_of_dvd _ (Dvd.intro _ rfl), pow_mul]
  rfl

/-! ### A read-modify-write -/

/-- The functions of R247 below cas, on n-bit numbers. -/
def amoBinary (fn n x y : Nat) : Nat :=
  match fn with
  | 0 => (x + y) % 2 ^ n
  | 1 => Nat.land x y
  | 2 => Nat.lor x y
  | 3 => Nat.xor x y
  | 4 => if (BitVec.ofNat n x).sle (BitVec.ofNat n y) then x else y
  | 5 => if (BitVec.ofNat n x).sle (BitVec.ofNat n y) then y else x
  | 6 => min x y
  | 7 => max x y
  | _ => y

theorem amoNew_binary {fn n x y : Nat} (hf : fn < 9) (hx : x < 2 ^ n) (hy : y < 2 ^ n) (c : Nat) :
    amoNew fn n x y c = (amoBinary fn n x y, 0) := by
  have hle : signed x n ≤ signed y n ↔ (BitVec.ofNat n x).sle (BitVec.ofNat n y) = true := by
    rw [BitVec.sle_iff_toInt_le, ← signed_eq, ← signed_eq, BitVec.toNat_ofNat, BitVec.toNat_ofNat, Nat.mod_eq_of_lt hx,
      Nat.mod_eq_of_lt hy]
  interval_cases fn <;> simp only [amoNew, amoBinary, hle]

theorem amoResult_eq (fn n old : Nat) :
    amoResult fn n old = if fn = 0 ∨ fn = 4 ∨ fn = 5 then (BitVec.ofNat n old).signExtend 64 else BitVec.ofNat 64 old := by
  rw [amoResult, extS_eq, BitVec.ofInt_natCast]

theorem exec_resultArrival (id : Nat) (s : State) : exec (.resultArrival id) s = execResultArrival id s := rfl
theorem exec_storeAcknowledgement (id : Nat) (s : State) :
    exec (.storeAcknowledgement id) s = execStoreAcknowledgement id s := rfl

section Arrival

variable {s : State} {id : Nat} {p : Pkt} {k : Nat}

/-- A packet of this member's line at a cell that can be performed now. -/
structure Arrives (s : State) (id : Nat) (p : Pkt) (k : Nat) : Prop where
  found : findPkt s id = some p
  named : p.id = id
  loc : p.loc = .cell k
  now : performable s p = true
  ours : isOurs s p = true
  plain : p.ans = false

/-- The result of an access goes to its line. -/
theorem sendResult_ours {s' : State} (h : Arrives s id p k) (hg : s'.gangs = s.gangs) (reg : Reg) (v : Word) (e : BitVec 5) :
    sendResult s' p reg v e = deliverResult s' p.tenant p.line reg v e := by
  rw [sendResult, if_pos ((isOurs_of_gangs hg p).trans h.ours), h.plain]
  rfl

theorem resultArrival_read (h : Arrives s id p k) {size ty : Nat} {reg : Reg} (hb : p.body = .read size ty reg) (hty : ty < 17)
    (hp : poisoned s.memory k size = false) :
    exec (.resultArrival id) s
      = .next (deliverResult (dropPkt s id) p.tenant p.line reg (formLoad ty (memRead s.memory k size)) 0) := by
  have hperf : performAccess (dropPkt s id) p = sendResult (dropPkt s id) p reg (formLoad ty (memRead s.memory k size)) 0 := by
    simp only [performAccess, hb, h.loc, locPoisoned, registerWatch, if_neg (fun hc : ty = 17 ∧ _ => (hty.ne hc.1))]
    exact if_neg (Bool.eq_false_iff.mp hp)
  rw [exec_resultArrival, execResultArrival, h.found]
  simp only [hb, h.now, if_true, hperf, sendResult_ours h (s' := dropPkt s id) rfl]

/-- An RMW packet gives its line the old value and the flags, in the state that the RMW leaves (R247). -/
theorem resultArrival_rmw (h : Arrives s id p k) {fn size : Nat} {y c : Word} {reg : Reg} (hb : p.body = .rmw fn size y c reg)
    (hp : poisoned s.memory k size = false) {s' : State} {e : BitVec 5} (hg : s'.gangs = s.gangs)
    (hr : performRmw (dropPkt s id) p.tenant (.cell k) fn size y.toNat c.toNat = (s', memRead s.memory k size, e)) :
    exec (.resultArrival id) s
      = .next (deliverResult s' p.tenant p.line reg (amoResult fn (8 * size) (memRead s.memory k size)) e) := by
  have hperf : performAccess (dropPkt s id) p = sendResult s' p reg (amoResult fn (8 * size) (memRead s.memory k size)) e := by
    simp only [performAccess, hb, h.loc, locPoisoned, hr]
    exact if_neg (Bool.eq_false_iff.mp hp)
  rw [exec_resultArrival, execResultArrival, h.found]
  simp only [hb, h.now, if_true, hperf, sendResult_ours h hg]

theorem storeAcknowledgement_write (h : Arrives s id p k) {size : Nat} {v : Word} {fe : Option Bool} (hb : p.body = .write size v fe)
    (hc : countAtCore s p = true) : exec (.storeAcknowledgement id) s
      = .next (storeDone (performWrite (dropPkt s id) (.cell k) size v fe) p.tenant p.line) := by
  have ours : isOurs (performWrite (dropPkt s id) (.cell k) size v fe) p = true :=
    (isOurs_of_gangs (performWrite_gangs _ _ _ _ _) p).trans h.ours
  have hack : acknowledge (performWrite (dropPkt s id) (.cell k) size v fe) p
      = storeDone (performWrite (dropPkt s id) (.cell k) size v fe) p.tenant p.line := by
    rw [acknowledge, h.plain, ours]
    rfl
  rw [exec_storeAcknowledgement, execStoreAcknowledgement, h.found]
  simp only [hc, if_true, storeAnswered, hb, h.now, h.loc, h.named, hack]

/-- An RMW that stores the value `v`: not a cas that fails. -/
theorem performRmw_stores {s : State} {t k fn size y c v : Nat} {e : BitVec 5}
    (hn : amoNew fn (8 * size) (memRead s.memory k size) (y % 2 ^ (8 * size)) (c % 2 ^ (8 * size)) = (v, e))
    (hc : ¬ (fn = 9 ∧ memRead s.memory k size ≠ c % 2 ^ (8 * size))) :
    performRmw s t (.cell k) fn size y c = (writeLoc s (.cell k) size v, memRead s.memory k size, e) := by
  have hold : readLoc s t (.cell k) size = memRead s.memory k size := rfl
  simp only [performRmw, hold, hn, if_neg hc]

/-- A cas that fails writes nothing (R249). -/
theorem performRmw_cas_fails {s : State} {t k size y c : Nat} (hc : memRead s.memory k size ≠ c % 2 ^ (8 * size)) :
    performRmw s t (.cell k) 9 size y c = (s, memRead s.memory k size, 0) := by
  have hold : readLoc s t (.cell k) size = memRead s.memory k size := rfl
  simp only [performRmw, hold, true_and, if_pos hc]

end Arrival

/-- A store packet's bytes stand at its cell, and no byte elsewhere changes (R113, R172). -/
theorem performWrite_frame (s : State) (k size : Nat) (v : Word) (fe : Option Bool) {j : Nat} (hj : j < k ∨ k + size ≤ j) :
    byteOf (performWrite s (.cell k) size v fe) j = byteOf s j := by
  rw [byteOf, performWrite_bytes, byteAt_memWrite_outside _ _ _ _ _ hj, byteOf]

/-- Settles O22: a read, a store and each read-modify-write, performed at their cell. -/
theorem memoryPacketsPerform : Obligations.memory_packets_perform := by
  intro id s p k hfound hid hloc hnow hours hans gone old fn2
  have h : Arrives s id p k := ⟨hfound, hid, hloc, hnow, hours, hans⟩
  refine ⟨fun size ty reg hb hty hsize hp => ?_, fun size v fe hb hc => ⟨?_, ?_, ?_, ?_⟩, ?_⟩
  · rw [resultArrival_read h hb hty hp, formLoad, ← hsize, extS_eq, BitVec.ofInt_natCast]
  · exact storeAcknowledgement_write h hb hc
  · exact fun j hj => performWrite_frame gone k size v fe hj
  · intro hcan i hi _
    rw [byteOf, performWrite_bytes]
    exact byteAt_memWrite_inside hcan.1 k size v hi
  · intro b hcan hfe
    rw [hfe]
    exact feAt_performWrite (s := gone) hcan.1 k size v b
  · intro fn size y c reg hb hfn hsize hp n sum arrives stored
    have hlt : old size < 2 ^ n := by
      have := memRead_lt s.memory k size
      rwa [show 256 = 2 ^ 8 by rfl, ← pow_mul] at this
    have hy : y.toNat % 2 ^ n < 2 ^ n := Nat.mod_lt _ (pow_pos (by decide) _)
    have stores : ∀ {v : Nat} {e : BitVec 5}, ¬ (fn = 9 ∧ old size ≠ c.toNat % 2 ^ n) →
        amoNew fn n (old size) (y.toNat % 2 ^ n) (c.toNat % 2 ^ n) = (v, e) → ∃ s', stored v s' ∧ arrives s' e := by
      intro v e hcas hnew
      refine ⟨writeLoc gone (.cell k) size v, ⟨writeLoc_cell_memory gone k size v, rfl⟩, ?_⟩
      have hx := resultArrival_rmw h hb hp (writeLoc_cell_gangs gone k size v) (performRmw_stores (s := gone) hnew hcas)
      rwa [amoResult_eq] at hx
    refine ⟨fun hf => ?_, fun hf he => ?_, fun hf he => ?_, fun hf => ?_⟩
    · exact stores (fun hc => absurd hc.1 (by omega)) (amoNew_binary hf hlt hy _)
    · refine stores (fun hc => hc.2 he) ?_
      rw [hf, ← he]
      exact congrArg (·, 0) (if_pos rfl)
    · have hx := resultArrival_rmw h hb hp (s' := gone) (e := 0) rfl (by rw [hf]; exact performRmw_cas_fails (s := gone) he)
      rwa [amoResult_eq] at hx
    · refine stores (fun hc => absurd hc.1 (by omega)) ?_
      have hfmt : (if n = 64 then fmt64 else fmt32) = if size = 8 then fmt64 else fmt32 := by
        rcases hsize with rfl | rfl <;> rfl
      rw [hf]
      exact congrArg (fadd · 0 (old size) (y.toNat % 2 ^ n)) hfmt

end Sys2Proof.Machine

/-! # Block instructions (O25): R115 to R117 -/

namespace Sys2Proof.Machine

/-! ### A device choice changes nothing an access looks at -/

theorem choose_lt (s : State) {n : Nat} (h : 0 < n) : (choose s n).1 < n := by
  unfold choose
  split <;> exact Nat.mod_lt _ h

@[simp] theorem choose_memory (s : State) (n : Nat) : (choose s n).2.memory = s.memory := by
  unfold choose
  split <;> rfl

theorem blockLoc_choose (s : State) (n : Nat) (c : Ctx) (e va : Nat) (write : Bool) :
    blockLoc (choose s n).2 c e va write = blockLoc s c e va write := by
  unfold choose
  split <;> rfl

/-! ### The location of an element -/

section Element

variable {s : State} {h : Hdr} {t : LiveLine} {e va key kp kq p q : Nat} {v : Word} {c : Ctx}

/-- An element that is read lies in memory that may be accessed now. -/
theorem blockLoc_source (hf : va % e = 0 ∧ va < 2 ^ 56) (hl : locate s (whoOf t) .load va 0 = .ok (.cell key))
    (hheld : locHeld s (.cell key) = false) (hr : readHeld s (.cell key) e = false) :
    blockLoc s (issueCtx h t) e va false = .ok (.cell key) := by
  rw [blockLoc, addrTrap_fits _ hf, issueCtx_whoOf]
  simp only [if_neg Bool.false_ne_true, hl]
  exact if_neg (by simp [hheld, hr])

/-- An element that is written lies in memory that may be accessed now. -/
theorem blockLoc_target (hf : va % e = 0 ∧ va < 2 ^ 56) (hl : locateWrite s (whoOf t) va 0 = .ok (.cell key))
    (hheld : locHeld s (.cell key) = false) : blockLoc s (issueCtx h t) e va true = .ok (.cell key) := by
  rw [blockLoc, addrTrap_fits _ hf, issueCtx_whoOf]
  simp only [if_true, hl]
  exact if_neg (by simp [hheld])

theorem blockElem_rfill (hp : blockLoc s c e p true = .ok (.cell kp)) :
    blockElem .rfill s c e p q v = .moved (writeLoc s (.cell kp) e (v.toNat % 256 ^ e)) false := by
  rw [blockElem, hp]
  rfl

theorem blockElem_rmov (hq : blockLoc s c e q false = .ok (.cell kq)) (hp : blockLoc s c e p true = .ok (.cell kp))
    (hb : poisoned s.memory kq e = false) :
    blockElem .rmov s c e p q v = .moved (writeLoc s (.cell kp) e (memRead s.memory kq e)) false := by
  have hb : locPoisoned s (.cell kq) e = false := hb
  rw [blockElem, hq, hp]
  simp only [hb]
  rfl

theorem blockElem_rcmp (hp : blockLoc s c e p false = .ok (.cell kp)) (hq : blockLoc s c e q false = .ok (.cell kq))
    (hbp : poisoned s.memory kp e = false) (hbq : poisoned s.memory kq e = false) : blockElem .rcmp s c e p q v
      = if memRead s.memory kp e = memRead s.memory kq e then .moved s false else .differs false := by
  have hbp : locPoisoned s (.cell kp) e = false := hbp
  have hbq : locPoisoned s (.cell kq) e = false := hbq
  rw [blockElem, hp, hq]
  simp only [hbp, hbq]
  rfl

/-- A move or a fill meets no difference. -/
theorem blockElem_differs {op : BlockOp} {bad : Bool} (h : blockElem op s c e p q v = .differs bad) : op = .rcmp := by
  cases op with
  | rcmp => rfl
  | rfill =>
    simp only [blockElem] at h
    split at h
    · cases h
    · split at h <;> cases h
  | rmov =>
    simp only [blockElem] at h
    split at h
    · cases h
    · split at h
      · cases h
      · split at h <;> cases h

theorem eq_of_ite_moved {x : Prop} [Decidable x] {s s' : State} {bad bad' bad'' : Bool}
    (h : (if x then Elem.moved s bad else .differs bad') = .moved s' bad'') : s' = s := by
  split at h
  · injection h with hs
    exact hs.symm
  · cases h

/-- A compare writes nothing. -/
theorem blockElem_rcmp_moved {s' : State} {bad : Bool} (h : blockElem .rcmp s c e p q v = .moved s' bad) : s' = s := by
  simp only [blockElem] at h
  split at h
  · cases h
  · split at h
    · cases h
    · split at h
      · cases h
      · exact eq_of_ite_moved h

end Element

/-! ### The registers after `m` elements -/

/-- The pointers and the count after `m` elements of `e` bytes, from those of `l`; `src` says that the second pointer moves too. -/
structure Advanced (d a b : Reg) (e : Nat) (src : Bool) (l : Line) (m : Nat) (l' : Line) : Prop where
  first : getG l' d = getG l d + BitVec.ofNat 64 (m * e)
  second : getG l' a = if src then getG l a + BitVec.ofNat 64 (m * e) else getG l a
  count : getG l' b = getG l b - BitVec.ofNat 64 m
  others : ∀ r, r ≠ d → r ≠ a → r ≠ b → getG l' r = getG l r ∧ getTag l' r = getTag l r
  firstTag : getTag l' d = 0
  countTag : getTag l' b = 0

section Advance

variable {d a b : Reg} {e : Nat} {src : Bool} {l l' : Line}

theorem blockAdvance_first (hda : d ≠ a) (hdb : d ≠ b) :
    getG (blockAdvance l d a b e src) d = getG l d + BitVec.ofNat 64 e ∧ getTag (blockAdvance l d a b e src) d = 0 := by
  cases src <;> simp [blockAdvance, getG_setG_ne _ _ _ _ _ hda, getG_setG_ne _ _ _ _ _ hdb, getTag_setG_ne _ _ _ _ _ hda,
    getTag_setG_ne _ _ _ _ _ hdb]

theorem blockAdvance_second (hda : d ≠ a) (hab : a ≠ b) : getG (blockAdvance l d a b e src) a
    = if src then getG l a + BitVec.ofNat 64 e else getG l a := by
  cases src <;> simp [blockAdvance, getG_setG_ne _ _ _ _ _ hda.symm, getG_setG_ne _ _ _ _ _ hab]

theorem blockAdvance_count (hab : a ≠ b) (hdb : d ≠ b) :
    getG (blockAdvance l d a b e src) b = getG l b - 1 ∧ getTag (blockAdvance l d a b e src) b = 0 := by
  cases src <;> simp [blockAdvance, getG_setG_ne _ _ _ _ _ hab.symm, getG_setG_ne _ _ _ _ _ hdb.symm]

theorem blockAdvance_others {r : Reg} (hd : r ≠ d) (ha : r ≠ a) (hb : r ≠ b) : getG (blockAdvance l d a b e src) r = getG l r
    ∧ getTag (blockAdvance l d a b e src) r = getTag l r := by
  cases src <;> simp [blockAdvance, getG_setG_ne _ _ _ _ _ hd, getG_setG_ne _ _ _ _ _ ha, getG_setG_ne _ _ _ _ _ hb,
    getTag_setG_ne _ _ _ _ _ hd, getTag_setG_ne _ _ _ _ _ ha, getTag_setG_ne _ _ _ _ _ hb]

theorem Advanced.start (hd : getTag l d = 0) (hb : getTag l b = 0) : Advanced d a b e src l 0 l where
  first := by simp
  second := by simp
  count := by simp
  others := fun _ _ _ _ => ⟨rfl, rfl⟩
  firstTag := hd
  countTag := hb

theorem add_ofNat_succ (v : Word) (m e : Nat) :
    v + BitVec.ofNat 64 (m * e) + BitVec.ofNat 64 e = v + BitVec.ofNat 64 ((m + 1) * e) := by
  rw [BitVec.add_assoc, ← BitVec.ofNat_add, Nat.succ_mul]

theorem sub_ofNat_succ (v : Word) (m : Nat) : v - BitVec.ofNat 64 m - 1 = v - BitVec.ofNat 64 (m + 1) := by
  rw [BitVec.ofNat_add, sub_sub]
  rfl

/-- One more element. -/
theorem Advanced.step (hda : d ≠ a) (hab : a ≠ b) (hdb : d ≠ b) {m : Nat} (h : Advanced d a b e src l m l') :
    Advanced d a b e src l (m + 1) (blockAdvance l' d a b e src) where
  first := by rw [(blockAdvance_first hda hdb).1, h.first, add_ofNat_succ]
  second := by
    rw [blockAdvance_second hda hab, h.second]
    cases src
    · rfl
    · exact add_ofNat_succ _ m e
  count := by rw [(blockAdvance_count hab hdb).1, h.count, sub_ofNat_succ]
  others := fun r hd ha hb => by
    obtain ⟨hg, ht⟩ := h.others r hd ha hb
    rw [(blockAdvance_others hd ha hb).1, (blockAdvance_others hd ha hb).2]
    exact ⟨hg, ht⟩
  firstTag := (blockAdvance_first hda hdb).2
  countTag := (blockAdvance_count hab hdb).2

/-- Where control goes does not matter. -/
theorem Advanced.atPc {m : Nat} (h : Advanced d a b e src l m l') (pc : BitVec 48) : Advanced d a b e src l m { l' with pc := pc } :=
  ⟨h.first, h.second, h.count, h.others, h.firstTag, h.countTag⟩

/-- The count is used up exactly when as many elements are done. -/
theorem Advanced.count_eq_zero_iff {m : Nat} (h : Advanced d a b e src l m l') (hm : m ≤ 64) :
    getG l' b = 0 ↔ m = (getG l b).toNat := by
  have hmod : m % 2 ^ 64 = m := Nat.mod_eq_of_lt (by omega)
  rw [h.count]
  constructor
  · intro hz
    rw [sub_eq_zero.mp hz, BitVec.toNat_ofNat, hmod]
  · intro he
    rw [he, BitVec.ofNat_toNat, BitVec.setWidth_eq, sub_self]

end Advance

/-! ### The elements of a step -/

section Run

variable {op : BlockOp} {c : Ctx} {d a b : Reg} {e : Nat}

/-- The run after an element is done (R116). -/
def BlockRun.next (r : BlockRun) (op : BlockOp) (d a b : Reg) (e : Nat) (s : State) (bad : Bool) : BlockRun where
  s := s
  t := noteError { r.t with line := blockAdvance r.t.line d a b e (op != .rfill) } bad none (getG r.t.line d).toNat
  diff := false
  done := r.done + 1

/-- The element that a run is at. -/
def BlockRun.elem (r : BlockRun) (op : BlockOp) (c : Ctx) (d a : Reg) (e : Nat) : Elem :=
  blockElem op r.s c e (getG r.t.line d).toNat (getG r.t.line a).toNat (getG r.t.line a)

@[simp] theorem noteError_line (t : LiveLine) (bad : Bool) (r : Option Reg) (va : Nat) : (noteError t bad r va).line = t.line := by
  cases bad <;> rfl

theorem blockRun_moved {r : BlockRun} {s : State} {bad : Bool} (h : r.elem op c d a e = .moved s bad) (k : Nat) :
    blockRun op c d a b e (k + 1) r = blockRun op c d a b e k (r.next op d a b e s bad) := by
  rw [blockRun, ← BlockRun.elem, h]
  rfl

theorem blockRun_differs {r : BlockRun} {bad : Bool} (h : r.elem op c d a e = .differs bad) (k : Nat) :
    blockRun op c d a b e (k + 1) r = { r with t := noteError r.t bad none (getG r.t.line d).toNat, diff := true } := by
  rw [blockRun, ← BlockRun.elem, h]

theorem blockRun_stops {r : BlockRun} (hm : ∀ s bad, r.elem op c d a e ≠ .moved s bad) (hd : ∀ bad, r.elem op c d a e ≠ .differs bad)
    (k : Nat) : blockRun op c d a b e (k + 1) r = r := by
  rw [blockRun, ← BlockRun.elem]
  split
  · exact absurd ‹_› (hm _ _)
  · exact absurd ‹_› (hd _)
  · rfl

/-- What an element keeps, a run keeps; a relation to the number of elements may grow with each. -/
theorem blockRun_keeps {P : BlockRun → Prop} (hm : ∀ r s bad, r.elem op c d a e = .moved s bad → P r → P (r.next op d a b e s bad))
    (hd : ∀ r bad, r.elem op c d a e = .differs bad → P r →
      P { r with t := noteError r.t bad none (getG r.t.line d).toNat, diff := true })
    (k : Nat) (r : BlockRun) (h : P r) : P (blockRun op c d a b e k r) := by
  induction k generalizing r with
  | zero => exact h
  | succ k ih =>
    cases he : r.elem op c d a e with
    | moved s bad =>
      rw [blockRun_moved he]
      exact ih _ (hm r s bad he h)
    | differs bad =>
      rw [blockRun_differs he]
      exact hd r bad he h
    | remote =>
      rw [blockRun_stops (by simp [he]) (by simp [he])]
      exact h
    | stop x =>
      rw [blockRun_stops (by simp [he]) (by simp [he])]
      exact h

theorem blockRun_done_le (k : Nat) (r : BlockRun) : (blockRun op c d a b e k r).done ≤ r.done + k := by
  induction k generalizing r with
  | zero => exact le_refl _
  | succ k ih =>
    cases he : r.elem op c d a e with
    | moved s bad =>
      rw [blockRun_moved he]
      exact (ih _).trans (Nat.le_of_eq (Nat.succ_add_eq_add_succ r.done k))
    | differs bad =>
      rw [blockRun_differs he]
      exact Nat.le_add_right _ _
    | remote =>
      rw [blockRun_stops (by simp [he]) (by simp [he])]
      exact Nat.le_add_right _ _
    | stop x =>
      rw [blockRun_stops (by simp [he]) (by simp [he])]
      exact Nat.le_add_right _ _

/-- A run does no fewer elements than it began with, and its registers say how many. -/
theorem blockRun_advanced (hda : d ≠ a) (hab : a ≠ b) (hdb : d ≠ b) {l : Line} (k : Nat) {r : BlockRun}
    (h : Advanced d a b e (op != .rfill) l r.done r.t.line) :
    r.done ≤ (blockRun op c d a b e k r).done
      ∧ Advanced d a b e (op != .rfill) l (blockRun op c d a b e k r).done (blockRun op c d a b e k r).t.line := by
  refine blockRun_keeps (P := fun r' => r.done ≤ r'.done ∧ Advanced d a b e (op != .rfill) l r'.done r'.t.line) ?_ ?_ k r ⟨le_refl _, h⟩
  · rintro r' s bad - ⟨hle, hadv⟩
    refine ⟨hle.trans (Nat.le_succ _), ?_⟩
    rw [BlockRun.next, noteError_line]
    exact hadv.step hda hab hdb
  · rintro r' bad - ⟨hle, hadv⟩
    refine ⟨hle, ?_⟩
    rw [noteError_line]
    exact hadv

/-- A move or a fill ends with no difference found. -/
theorem blockRun_diff (hop : op ≠ .rcmp) (k : Nat) {r : BlockRun} (h : r.diff = false) :
    (blockRun op c d a b e k r).diff = false :=
  blockRun_keeps (P := fun r => r.diff = false) (fun _ _ _ _ _ => rfl) (fun _ _ he _ => absurd (blockElem_differs he) hop) k r h

/-- A compare writes nothing. -/
theorem blockRun_rcmp_memory (k : Nat) (r : BlockRun) : (blockRun .rcmp c d a b e k r).s.memory = r.s.memory := by
  refine blockRun_keeps (P := fun r' => r'.s.memory = r.s.memory) ?_ (fun _ _ _ h => h) k r rfl
  intro r' s bad he h
  rw [BlockRun.next, blockElem_rcmp_moved he]
  exact h

end Run

/-! ### A step of a block instruction -/

section Step

variable {op : BlockOp} {d a b : Reg} {w : BitVec 2} {h : Hdr} {s : State} {t : LiveLine}

/-- The operands of a block instruction are int64 (R116, log entry 78). -/
def BlockTags (op : BlockOp) (d a b : Reg) (l : Line) : Prop :=
  getTag l d = 0 ∧ (op ≠ .rfill → getTag l a = 0) ∧ getTag l b = 0

theorem blockTags_checked {l : Line} (ht : BlockTags op d a b l) :
    checkTags l ((d, [0]) :: (if op = .rfill then [] else [(a, [0])]) ++ [(b, [0])]) = none := by
  obtain ⟨hd, ha, hb⟩ := ht
  by_cases hop : op = .rfill
  · simp [hop, checkTags, hd, hb]
  · simp [hop, checkTags, hd, ha hop, hb]

theorem blockTags_counted (ht : BlockTags op d a b t.line) : BlockTags op d a b (counted h t) := by
  obtain ⟨hd, ha, hb⟩ := ht
  exact ⟨by rw [counted_getTag, hd], fun hop => by rw [counted_getTag, ha hop], by rw [counted_getTag, hb]⟩

/-- With nothing left to do the word is done. -/
theorem block_done (hr : Ready h s t) (ht : BlockTags op d a b t.line) (hn : getG t.line b = 0) :
    issueWord h (blockStep op d a b w) s = .next (done s t (counted h t)) := by
  rw [issueWord_ready hr]
  simp only [blockStep, issueCtx_tline, blockTags_checked (blockTags_counted ht), counted_getG, if_pos hn]
  rfl

/-- A line that is not in the middle of an element on another member, with something left to do and aligned pointers. -/
structure BlockReady (op : BlockOp) (d a b : Reg) (e : Nat) (t : LiveLine) : Prop where
  tags : BlockTags op d a b t.line
  left : getG t.line b ≠ 0
  first : (getG t.line d).toNat % e = 0
  second : op ≠ .rfill → (getG t.line a).toNat % e = 0
  noReq : t.req = none
  noReplies : t.replies = []

/-- A step past its checks: its first element, then the run. -/
def blockBegin (op : BlockOp) (d a b : Reg) (e : Nat) (c : Ctx) (s : State) : Res :=
  match BlockRun.elem ⟨s, c.t, false, 0⟩ op c d a e with
  | .stop x => stopRes s c x
  | .remote => blockRemote op c s d a b e
  | .differs bad => .ok s (noteError c.t bad none (getG c.t.line d).toNat)
  | .moved _ _ =>
    let r := choose s (min (getG c.t.line b).toNat 64)
    let run := blockRun op c d a b e (r.1 + 1) ⟨r.2, c.t, false, 0⟩
    blockEnd c run.s run.t b run.diff

theorem blockStep_begin (hb : BlockReady op d a b (8 / 2 ^ w.toNat) t) :
    blockStep op d a b w (issueCtx h t) s = blockBegin op d a b (8 / 2 ^ w.toNat) (issueCtx h t) s := by
  have hq : ¬ (op ≠ .rfill ∧ (getG t.line a).toNat % (8 / 2 ^ w.toNat) ≠ 0) := fun hc => hc.2 (hb.second hc.1)
  have hreq : ¬ ((issueCtx h t).t.req.isSome = true ∨ (issueCtx h t).t.replies ≠ []) := by
    simp [issueCtx, hb.noReq, hb.noReplies]
  simp only [blockStep, blockBegin, BlockRun.elem, issueCtx_tline, blockTags_checked (blockTags_counted hb.tags), counted_getG,
    if_neg hb.left, if_neg (not_not.mpr hb.first), if_neg hq, if_neg hreq] <;> rfl

/-- The run of a step that is at its first element. -/
def blockStart (h : Hdr) (s : State) (t : LiveLine) : BlockRun := ⟨s, (issueCtx h t).t, false, 0⟩

theorem blockStart_elem {e : Nat} : (blockStart h s t).elem op (issueCtx h t) d a e
    = blockElem op s (issueCtx h t) e (getG t.line d).toNat (getG t.line a).toNat (getG t.line a) := by
  simp only [BlockRun.elem, blockStart, issueCtx_tline, counted_getG]

/-- A compare whose first pair differs is done, its registers unchanged (R116). -/
theorem block_differs (hr : Ready h s t) (hb : BlockReady op d a b (8 / 2 ^ w.toNat) t)
    (he : (blockStart h s t).elem op (issueCtx h t) d a (8 / 2 ^ w.toNat) = .differs false) :
    issueWord h (blockStep op d a b w) s = .next (done s t (counted h t)) := by
  rw [issueWord_ready hr, blockStep_begin hb, blockBegin, ← blockStart, he]
  rfl

/-- Where control goes after a run (R116): past the word when nothing is left or a difference was found. -/
def blockPc (t : LiveLine) (b : Reg) (run : BlockRun) : BitVec 48 :=
  if run.diff ∨ getG run.t.line b = 0 then wordPc t + 4 else t.line.pc

theorem finishIssue_blockEnd (run : BlockRun) : finishIssue s t (coreOfPlace t.place) (blockEnd (issueCtx h t) run.s run.t b run.diff)
    = .next (afterIssue run.s run.t (blockPc t b run)) := by
  have hpc : (issueCtx h t).t.line.pc = t.line.pc := by rw [issueCtx_tline, counted_frame]
  rw [blockEnd, blockPc, hpc]
  split <;> rfl

/-- The state in which the run of a step begins: a device choice has been made. -/
def chosen (s : State) (t : LiveLine) (b : Reg) : State := (choose s (min (getG t.line b).toNat 64)).2

/-- A step whose first element is done on this member is a run of 1 to 64 elements, no more than are left (R116). -/
theorem block_moved (hr : Ready h s t) (hb : BlockReady op d a b (8 / 2 ^ w.toNat) t)
    (he : ∃ s' bad, (blockStart h s t).elem op (issueCtx h t) d a (8 / 2 ^ w.toNat) = .moved s' bad) :
    ∃ k, k < min (getG t.line b).toNat 64
      ∧ let run := blockRun op (issueCtx h t) d a b (8 / 2 ^ w.toNat) (k + 1) (blockStart h (chosen s t b) t)
        issueWord h (blockStep op d a b w) s = .next (afterIssue run.s run.t (blockPc t b run)) := by
  obtain ⟨s', bad, he⟩ := he
  have hpos : 0 < min (getG t.line b).toNat 64 :=
    lt_min (Nat.pos_of_ne_zero fun h0 => hb.left (BitVec.eq_of_toNat_eq h0)) (by decide)
  refine ⟨_, choose_lt s hpos, ?_⟩
  rw [issueWord_ready hr, blockStep_begin hb, blockBegin, ← blockStart, he]
  simp only [issueCtx_tline, counted_getG]
  exact finishIssue_blockEnd _

/-- The first element is done on this member, and leaves memory `m`. -/
def FirstMoves (op : BlockOp) (d a b : Reg) (e : Nat) (h : Hdr) (s : State) (t : LiveLine) (m : Memory) : Prop :=
  ∀ s0, s0 = s ∨ s0 = chosen s t b →
    ∃ s1, (blockStart h s0 t).elem op (issueCtx h t) d a e = .moved s1 false ∧ s1.memory = m

theorem afterIssue_memory (s : State) (t : LiveLine) (pc : BitVec 48) : (afterIssue s t pc).memory = s.memory :=
  countIssue_memory s t.place

/-- What the step leaves of the line: the registers after `m` elements, and its PC. -/
structure BlockEnds (op : BlockOp) (d a b : Reg) (e : Nat) (t : LiveLine) (m : Nat) (u : LiveLine) : Prop where
  some_ : 1 ≤ m
  atMost : m ≤ min (getG t.line b).toNat 64
  regs : Advanced d a b e (op != .rfill) t.line m u.line
  all : m = (getG t.line b).toNat → u.line.pc = wordPc t + 4
  pc : u.line.pc = t.line.pc ∨ u.line.pc = wordPc t + 4
  stays : op ≠ .rcmp → m ≠ (getG t.line b).toNat → u.line.pc = t.line.pc

section Moves

variable {m : Memory} (hr : Ready h s t) (hb : BlockReady op d a b (8 / 2 ^ w.toNat) t)
  (hf : FirstMoves op d a b (8 / 2 ^ w.toNat) h s t m)

include hr hb hf

/-- A step that does its first element does 1 to 64, no more than are left (R116). -/
theorem block_ends (hda : d ≠ a) (hab : a ≠ b) (hdb : d ≠ b) : ∃ s' u n, issueWord h (blockStep op d a b w) s = .next s'
    ∧ s'.thr = some u ∧ BlockEnds op d a b (8 / 2 ^ w.toNat) t n u := by
  obtain ⟨s0, he0, -⟩ := hf s (.inl rfl)
  obtain ⟨k, hk, hx⟩ := block_moved hr hb ⟨s0, false, he0⟩
  obtain ⟨s1, he1, -⟩ := hf _ (.inr rfl)
  set run := blockRun op (issueCtx h t) d a b (8 / 2 ^ w.toNat) (k + 1) (blockStart h (chosen s t b) t) with hrun
  have hstart : Advanced d a b (8 / 2 ^ w.toNat) (op != .rfill) t.line 0 (issueCtx h t).t.line := by
    obtain ⟨hd, -, hbt⟩ := hb.tags
    rw [issueCtx_tline]
    constructor <;> simp [hd, hbt]
  have hnext := blockRun_moved (b := b) he1 k
  have hadv := blockRun_advanced (op := op) (c := issueCtx h t) hda hab hdb k
    (r := (blockStart h (chosen s t b) t).next op d a b (8 / 2 ^ w.toNat) s1 false) (hstart.step hda hab hdb)
  have hdiff : op ≠ .rcmp → run.diff = false := fun hop => blockRun_diff hop (k + 1) rfl
  rw [← hnext, ← hrun] at hadv
  obtain ⟨hpos, hregs⟩ := hadv
  have hle : run.done ≤ 0 + (k + 1) := blockRun_done_le (k + 1) (blockStart h (chosen s t b) t)
  have hmost : run.done ≤ min (getG t.line b).toNat 64 := by omega
  have hzero := hregs.count_eq_zero_iff (hmost.trans (min_le_right _ _))
  refine ⟨_, _, run.done, hx, rfl, hpos, hmost, hregs.atPc _, fun hall => ?_, ?_, fun hop hnot => ?_⟩
  · exact if_pos (.inr (hzero.mpr hall))
  · exact (ite_eq_or_eq _ _ _).symm
  · exact if_neg (by rw [hdiff hop, hzero]; exact fun hc => hc.elim Bool.false_ne_true hnot)

/-- A step with one element left has exactly its effect on memory (R116). -/
theorem block_single (hn : (getG t.line b).toNat = 1) :
    ∃ s', issueWord h (blockStep op d a b w) s = .next s' ∧ s'.memory = m := by
  obtain ⟨s0, he0, -⟩ := hf s (.inl rfl)
  obtain ⟨k, hk, hx⟩ := block_moved hr hb ⟨s0, false, he0⟩
  obtain ⟨s1, he1, hm⟩ := hf _ (.inr rfl)
  obtain rfl : k = 0 := by omega
  refine ⟨_, hx, ?_⟩
  rw [afterIssue_memory, blockRun_moved he1]
  exact hm

end Moves

/-- A compare changes no memory (R116). -/
theorem block_rcmp_memory {m : Memory} (hr : Ready h s t) (hb : BlockReady .rcmp d a b (8 / 2 ^ w.toNat) t)
    (hf : FirstMoves .rcmp d a b (8 / 2 ^ w.toNat) h s t m) :
    ∃ s', issueWord h (blockStep .rcmp d a b w) s = .next s' ∧ s'.memory = s.memory := by
  obtain ⟨s0, he0, -⟩ := hf s (.inl rfl)
  obtain ⟨k, -, hx⟩ := block_moved hr hb ⟨s0, false, he0⟩
  refine ⟨_, hx, ?_⟩
  rw [afterIssue_memory, blockRun_rcmp_memory]
  exact choose_memory s _

end Step

/-! ### The three instructions -/

section Words

variable {g : BitVec 4} {d a b : Reg} {w : BitVec 2} {s : State} {t : LiveLine} {e kp kq : Nat} {h : Hdr}

/-- An element at `va` that may be read now, without a memory error, from `key` up. -/
structure ReadElem (s : State) (t : LiveLine) (e va key : Nat) : Prop where
  fits : va % e = 0 ∧ va < 2 ^ 56
  found : locate s (whoOf t) .load va 0 = .ok (.cell key)
  served : locHeld s (.cell key) = false
  free : readHeld s (.cell key) e = false
  clean : poisoned s.memory key e = false

/-- An element at `va` that may be written now from `key` up. -/
structure WriteElem (s : State) (t : LiveLine) (e va key : Nat) : Prop where
  fits : va % e = 0 ∧ va < 2 ^ 56
  found : locateWrite s (whoOf t) va 0 = .ok (.cell key)
  served : locHeld s (.cell key) = false

theorem ReadElem.blockLoc {va : Nat} (hs : ReadElem s t e va kq) {s0 : State} (h0 : s0 = s ∨ s0 = chosen s t b) :
    blockLoc s0 (issueCtx h t) e va false = .ok (.cell kq) := by
  have hl := blockLoc_source (h := h) hs.fits hs.found hs.served hs.free
  rcases h0 with rfl | rfl
  · exact hl
  · rwa [chosen, blockLoc_choose]

theorem WriteElem.blockLoc {va : Nat} (ht : WriteElem s t e va kp) {s0 : State} (h0 : s0 = s ∨ s0 = chosen s t b) :
    blockLoc s0 (issueCtx h t) e va true = .ok (.cell kp) := by
  have hl := blockLoc_target (h := h) ht.fits ht.found ht.served
  rcases h0 with rfl | rfl
  · exact hl
  · rwa [chosen, blockLoc_choose]

theorem chosen_memory {s0 : State} (h0 : s0 = s ∨ s0 = chosen s t b) : s0.memory = s.memory := by
  rcases h0 with rfl | rfl
  · rfl
  · exact choose_memory _ _

theorem firstMoves_rfill (hp : WriteElem s t e (getG t.line d).toNat kp) :
    FirstMoves .rfill d a b e h s t (memWrite s.memory kp e ((getG t.line a).toNat % 256 ^ e)) := by
  intro s0 h0
  refine ⟨_, blockStart_elem.trans (blockElem_rfill (hp.blockLoc h0)), ?_⟩
  rw [writeLoc_cell_memory, chosen_memory h0]

theorem firstMoves_rmov (hp : WriteElem s t e (getG t.line d).toNat kp) (hq : ReadElem s t e (getG t.line a).toNat kq) :
    FirstMoves .rmov d a b e h s t (memWrite s.memory kp e (memRead s.memory kq e)) := by
  intro s0 h0
  have hm := chosen_memory h0
  refine ⟨_, blockStart_elem.trans (blockElem_rmov (hq.blockLoc h0) (hp.blockLoc h0) (hm ▸ hq.clean)), ?_⟩
  rw [writeLoc_cell_memory, hm]

/-- The first pair of a compare. -/
theorem elem_rcmp (hp : ReadElem s t e (getG t.line d).toNat kp) (hq : ReadElem s t e (getG t.line a).toNat kq) {s0 : State}
    (h0 : s0 = s ∨ s0 = chosen s t b) : (blockStart h s0 t).elem .rcmp (issueCtx h t) d a e
      = if memRead s.memory kp e = memRead s.memory kq e then .moved s0 false else .differs false := by
  have hm := chosen_memory h0
  rw [blockStart_elem, blockElem_rcmp (hp.blockLoc h0) (hq.blockLoc h0) (hm ▸ hp.clean) (hm ▸ hq.clean), hm]

theorem firstMoves_rcmp (hp : ReadElem s t e (getG t.line d).toNat kp) (hq : ReadElem s t e (getG t.line a).toNat kq)
    (he : memRead s.memory kp e = memRead s.memory kq e) : FirstMoves .rcmp d a b e h s t s.memory := by
  intro s0 h0
  exact ⟨s0, (elem_rcmp hp hq h0).trans (if_pos he), chosen_memory h0⟩

theorem exec_rmov (g : BitVec 4) (d a b : Reg) (w : BitVec 2) (s : State) :
    exec (.rmov g d a b w) s = issueWord (hdr g [d, a, b]) (blockStep .rmov d a b w) s := rfl
theorem exec_rfill (g : BitVec 4) (d a b : Reg) (w : BitVec 2) (s : State) :
    exec (.rfill g d a b w) s = issueWord (hdr g [d, a, b]) (blockStep .rfill d a b w) s := rfl
theorem exec_rcmp (g : BitVec 4) (d a b : Reg) (w : BitVec 2) (s : State) :
    exec (.rcmp g d a b w) s = issueWord (hdr g [d, a, b]) (blockStep .rcmp d a b w) s := rfl

/-- A number written at an element reads back, and no byte elsewhere changes. -/
theorem memWrite_element {m m' : Memory} {k e v : Nat} (hw : memWf m = true) (hm : m' = memWrite m k e v) (hv : v < 256 ^ e) :
    memRead m' k e = v ∧ ∀ j, j < k ∨ k + e ≤ j → byteAt j m'.bytes = byteAt j m.bytes := by
  rw [hm]
  exact ⟨(memRead_memWrite hw k e v).trans (Nat.mod_eq_of_lt hv), fun j hj => byteAt_memWrite_outside m k e v j hj⟩

end Words

/-- Settles O25: with nothing left a word is done; else its first element is done, and the run of its step says the rest. -/
theorem blockSteps : Obligations.block_steps := by
  intro g d a b w s t h e n p q hr hda hab hdb hd hb hreq hrep source target moves stores
  have htags : ∀ op, (op ≠ .rfill → getTag t.line a = 0) → BlockTags op d a b t.line := fun op ha => ⟨hd, ha, hb⟩
  have hleft : n ≠ 0 → getG t.line b ≠ 0 := fun hn h0 => hn (congrArg BitVec.toNat h0)
  have hmoves : ∀ (i : Instr) (op : BlockOp) (m : Memory), exec i s = issueWord h (blockStep op d a b w) s →
      ((∀ w', i ≠ .rcmp g d a b w') → op ≠ .rcmp) → BlockReady op d a b e t → FirstMoves op d a b e h s t m →
      moves i (op != .rfill) := by
    intro i op m hi hop hready hfirst
    obtain ⟨s', u, k, hx, hu, hends⟩ := block_ends hr hready hfirst hda hab hdb
    obtain ⟨hf, hs, hc, ho, hft, hct⟩ := hends.regs
    exact ⟨s', u, k, hi.trans hx, hu, hends.some_, hends.atMost, hf, hs, hc, ho, hft, hct, hends.all, hends.pc,
      fun hne => hends.stays (hop hne)⟩
  have hstores : ∀ (i : Instr) (op : BlockOp) (kp v : Nat), exec i s = issueWord h (blockStep op d a b w) s → op ≠ .rcmp →
      v < 256 ^ e → BlockReady op d a b e t → FirstMoves op d a b e h s t (memWrite s.memory kp e v) →
      stores i (op != .rfill) kp v := by
    intro i op kp v hi hop hv hready hfirst
    refine ⟨hmoves i op _ hi (fun _ => hop) hready hfirst, fun hn hcan => ?_⟩
    obtain ⟨s', hx, hm⟩ := block_single hr hready hfirst hn
    exact ⟨s', hi.trans hx, memWrite_element hcan.1 hm hv⟩
  have hsource : ∀ {va key : Nat}, source va key → ReadElem s t e va key := fun ⟨h1, h2, h3, h4, h5, h6⟩ => ⟨⟨h1, h2⟩, h3, h4, h5, h6⟩
  have htarget : ∀ {va key : Nat}, target va key → WriteElem s t e va key := fun ⟨h1, h2, h3, h4⟩ => ⟨⟨h1, h2⟩, h3, h4⟩
  refine ⟨fun ha hn => ⟨?_, ?_⟩, fun hn => ?_, fun hn kp hkp => ?_, fun ha hn kp kq hkp hkq => ?_, fun ha hn kp kq hkp hkq => ?_⟩
  · exact (exec_rmov ..).trans (block_done hr (htags _ fun _ => ha) (BitVec.eq_of_toNat_eq hn))
  · exact (exec_rcmp ..).trans (block_done hr (htags _ fun _ => ha) (BitVec.eq_of_toNat_eq hn))
  · exact (exec_rfill ..).trans (block_done hr (htags _ fun hc => absurd rfl hc) (BitVec.eq_of_toNat_eq hn))
  · have hp := htarget hkp
    exact hstores _ .rfill kp _ (exec_rfill ..) (by decide) (Nat.mod_lt _ (pow_pos (by decide) e))
      ⟨htags _ fun hc => absurd rfl hc, hleft hn, hp.fits.1, fun hc => absurd rfl hc, hreq, hrep⟩ (firstMoves_rfill hp)
  · have hp := htarget hkp
    have hq := hsource hkq
    exact hstores _ .rmov kp _ (exec_rmov ..) (by decide) (memRead_lt _ _ _)
      ⟨htags _ fun _ => ha, hleft hn, hp.fits.1, fun _ => hq.fits.1, hreq, hrep⟩ (firstMoves_rmov hp hq)
  · have hp := hsource hkp
    have hq := hsource hkq
    have hready : BlockReady .rcmp d a b e t := ⟨htags _ fun _ => ha, hleft hn, hp.fits.1, fun _ => hq.fits.1, hreq, hrep⟩
    refine ⟨fun heq => ⟨?_, ?_⟩, fun hne => ?_⟩
    · exact hmoves _ .rcmp _ (exec_rcmp ..) (fun hc => absurd rfl (hc w)) hready (firstMoves_rcmp hp hq heq)
    · exact block_rcmp_memory hr hready (firstMoves_rcmp hp hq heq)
    · exact (exec_rcmp ..).trans (block_differs hr hready ((elem_rcmp (b := b) hp hq (.inl rfl)).trans (if_neg hne)))

end Sys2Proof.Machine
